-- ==== Sys2Proof/Word.lean ====
section
/-! DEFINITION. The plain words of the model: bytes, the numbers of stands, channels and streams, and the
fixed-length tables indexed by them. -/

namespace Sys2Proof

/-- A byte on one of the two serial lines (R20, R167). -/
abbrev Byte := BitVec 8

/-- The levels of a line in the start bit and the eight data bits of a byte: bit `i` is the level in bit time `i`, 1 for high
(R20, R167). -/
abbrev LineBits := BitVec 9

/-- A stand position, held zero-based: the value `k` is position `k + 1` of the manual (Conventions, Stand and
Span Numbering). -/
abbrev Stand := Fin 8

/-- A measurement channel, 0 to 31 (R28). -/
abbrev Chan := Fin 32

/-- A periodic stream, held zero-based: the value `i` is stream `i + 1` (R182). -/
abbrev StreamId := Fin 4

/-- An acceptance-table entry, 0 to 23 (R23). -/
abbrev EntryNo := Fin 24

/-- A stop input, held zero-based: the value `n` is stop input `n + 1` (R41). -/
abbrev StopNo := Fin 4

/-- The position number, 1 to 8, of a stand. -/
def Stand.pos (k : Stand) : Nat := k.val + 1

/-- The eight stand positions, from the entry end. -/
def allStands : List Stand := [0, 1, 2, 3, 4, 5, 6, 7]

/-- The 32 channels in ascending order. -/
def allChans : List Chan := List.finRange 32

/-- The four streams in order. -/
def allStreams : List StreamId := [0, 1, 2, 3]

/-- The four stop inputs in order. -/
def allStops : List StopNo := [0, 1, 2, 3]

/-- The entry of a fixed-length table at an index. -/
def vget {α : Type} {n : Nat} (v : Vector α n) (i : Fin n) : α := v[i.val]

/-- A fixed-length table with the entry at one index replaced. -/
def vset {α : Type} {n : Nat} (v : Vector α n) (i : Fin n) (x : α) : Vector α n := v.set i.val x

/-- The fixed-length table of a function. -/
def vtab {α : Type} {n : Nat} (f : Fin n → α) : Vector α n := Vector.ofFn f

@[simp] theorem vget_vtab {α : Type} {n : Nat} (f : Fin n → α) (i : Fin n) : vget (vtab f) i = f i := by
  simp [vget, vtab]

theorem vget_vset {α : Type} {n : Nat} (v : Vector α n) (i j : Fin n) (x : α) :
    vget (vset v i x) j = if j = i then x else vget v j := by
  simp only [vget, vset, Vector.getElem_set, Fin.ext_iff]
  by_cases h : (i : Nat) = j
  · simp [h]
  · simp [h, Ne.symm h]

@[simp] theorem vget_vset_self {α : Type} {n : Nat} (v : Vector α n) (i : Fin n) (x : α) :
    vget (vset v i x) i = x := by
  simp [vget_vset]

theorem vget_vset_ne {α : Type} {n : Nat} (v : Vector α n) {i j : Fin n} (x : α) (h : j ≠ i) :
    vget (vset v i x) j = vget v j := by
  simp [vget_vset, h]

/-- Two tables are equal when they agree at every index. -/
theorem vec_ext {α : Type} {n : Nat} {v w : Vector α n} (h : ∀ i, vget v i = vget w i) : v = w := by
  apply Vector.ext
  intro i hi
  exact h ⟨i, hi⟩

end Sys2Proof
end

