-- ==== Sys2Proof/Syntax.lean ====
section
/-! DEFINITION. The commands: one constructor for each row of spec/opcode_table.json. -/

namespace Sys2Proof

/-- The levels of the 20 sampled input pins, as read at the pins (1 is high). The index is the zero-based
number of the detector, stop loop or panel switch. Which level is active is R194's matter (`pinActive`). -/
structure InputPins where
  /-- hot-metal detectors of stands 1 to 8 -/
  hmd : BitVec 8
  /-- stop loops 1 to 4 -/
  stop : BitVec 4
  /-- panel-confirm switches of stands 1 to 8 -/
  panel : BitVec 8
  deriving DecidableEq, Repr

/-- One of the 20 input filters of R41. -/
inductive FilterId where
  | hmd (k : Stand)
  | stop (n : StopNo)
  | panel (k : Stand)
  deriving DecidableEq, Repr

/-- A rising edge on an encoder's pulse pin (R44, R194): the level of the direction pin at the edge (true is high), and the ns
since the edge before it on the same pin. -/
structure PulseEdge where
  dir : Bool
  sinceNs : Nat
  deriving DecidableEq, Repr

/-- What a reset source does (R193): the supply falls below its threshold or the RESET pin is low, and the reset is held; or
the source lets go, and the strap levels are those at that moment. -/
inductive ResetEdge where
  | hold
  | release (straps : BitVec 2)
  deriving DecidableEq, Repr

/-- A command to the part. The opcode table gives its rows no bits, so the operands are the model's (log 5):
what the event carries by its rule. A request carries its TAG and its raw body bytes (R168). -/
inductive Instr where
  /-- POWER_ON, R193: the power-on monitor holds the part in reset, or releases it -/
  | powerOn (edge : ResetEdge)
  /-- RESET_PIN, R193: how long the pin has been low, in ns, and whether it is low still or has gone high -/
  | resetPin (lowNs : Nat) (edge : ResetEdge)
  /-- FIRST_TICK, R54 -/
  | firstTick (pins : InputPins)
  /-- FILTER_ACCEPT, R42 -/
  | filterAccept (input : FilterId)
  /-- ENCODER_PULSE, R44: the stand and the edge -/
  | encoderPulse (k : Stand) (edge : PulseEdge)
  /-- FIELD_BYTE_RECEIVED, R20, R21: the levels sampled in the start bit and the data bits, and in the stop bit -/
  | fieldByteReceived (line : LineBits) (stop : Bool)
  /-- FIELD_INTER_BYTE_TIMEOUT, R21 -/
  | fieldInterByteTimeout
  /-- FIELD_FRAME, R22: the nine bytes of the frame -/
  | fieldFrame (frame : List Byte)
  /-- FRESHNESS_EXPIRY, R32 -/
  | freshnessExpiry (ch : Chan)
  /-- UPDATE_TIMER_EXPIRY, R90 -/
  | updateTimerExpiry (k : Stand)
  /-- FIELD_OUT_TX_END, R38 -/
  | fieldOutTxEnd
  /-- NON_OVERLAP_EXPIRY, R125 -/
  | nonOverlapExpiry (k : Stand)
  /-- EQUALIZE_EXPIRY, R126 -/
  | equalizeExpiry (k : Stand)
  /-- HANDOVER_TIMER_EXPIRY, R131 -/
  | handoverTimerExpiry (k : Stand)
  /-- STREAM_TIMER_EXPIRY, R182 -/
  | streamTimerExpiry (i : StreamId)
  /-- HOST_BYTE_RECEIVED, R167, R169: the levels sampled in the start bit and the data bits, and in the stop bit -/
  | hostByteReceived (line : LineBits) (stop : Bool)
  /-- HOST_INTER_BYTE_TIMEOUT, R169 -/
  | hostInterByteTimeout
  /-- HOST_TX_END, R174 -/
  | hostTxEnd
  /-- UNKNOWN_KIND_REQUEST, R172 -/
  | unknownKindRequest (kind tag : Byte) (body : List Byte)
  /-- IDENTIFY, R175 -/
  | identify (tag : Byte) (body : List Byte)
  /-- STATUS, R176 -/
  | status (tag : Byte) (body : List Byte)
  /-- CONFIGURE, R18 -/
  | configure (tag : Byte) (body : List Byte)
  /-- SET_ACCEPT, R25 -/
  | setAccept (tag : Byte) (body : List Byte)
  /-- READ_ACCEPT, R26 -/
  | readAccept (tag : Byte) (body : List Byte)
  /-- SET_ACTIONS, R152 -/
  | setActions (tag : Byte) (body : List Byte)
  /-- LOAD_STAND, R8 -/
  | loadStand (tag : Byte) (body : List Byte)
  /-- LOAD_MILL, R9 -/
  | loadMill (tag : Byte) (body : List Byte)
  /-- COMMIT, R13 -/
  | commit (tag : Byte) (body : List Byte)
  /-- CLEAR_PENDING, R10 -/
  | clearPending (tag : Byte) (body : List Byte)
  /-- READ_BANK, R11 -/
  | readBank (tag : Byte) (body : List Byte)
  /-- ARM, R66 -/
  | arm (tag : Byte) (body : List Byte)
  /-- DISARM, R67 -/
  | disarm (tag : Byte) (body : List Byte)
  /-- CLEAR_MILL, R81 -/
  | clearMill (tag : Byte) (body : List Byte)
  /-- SET_TRIM, R105 -/
  | setTrim (tag : Byte) (body : List Byte)
  /-- STOP, R158 -/
  | stop (tag : Byte) (body : List Byte)
  /-- ACK_TRIP, R156 -/
  | ackTrip (tag : Byte) (body : List Byte)
  /-- RESTORE, R127 -/
  | restore (tag : Byte) (body : List Byte)
  /-- HANDOVER, R129 -/
  | handover (tag : Byte) (body : List Byte)
  /-- READ_CHANNELS, R34 -/
  | readChannels (tag : Byte) (body : List Byte)
  /-- READ_TRACK, R82 -/
  | readTrack (tag : Byte) (body : List Byte)
  /-- READ_SEGMENTS, R83 -/
  | readSegments (tag : Byte) (body : List Byte)
  /-- READ_TRIPS, R159 -/
  | readTrips (tag : Byte) (body : List Byte)
  /-- SET_REPORTS, R183 -/
  | setReports (tag : Byte) (body : List Byte)
  /-- SET_AUX, R184 -/
  | setAux (tag : Byte) (body : List Byte)
  /-- RESET, R177 -/
  | softReset (tag : Byte) (body : List Byte)
  /-- TICK, R42: the pin levels sampled at the tick -/
  | tick (pins : InputPins)
  deriving DecidableEq, Repr

end Sys2Proof
end

