-- ==== Sys2Proof/Decode.lean ====
section
/-! DEFINITION. The command that a word of the opcode table spells. The table gives no row any bits (every
"fields" list is empty and there is no "fixed"), so no word spells a command (log 5). The bytes that do reach
the part, on the host and field lines, are taken by the assemblers of R169 and R21 (Machine/HostLink.lean,
Machine/FieldLine.lean). -/

namespace Sys2Proof

/-- The command spelled by a word of the table: none, since no row has bits. -/
def decodeTableWord (_nbits _w : Nat) : Option Instr := none

end Sys2Proof
end

