-- ==== Sys2Proof/Config.lean ====
section
/-! DEFINITION. What one part fixes: the capacities of the manual's Parameter Synopsis, and the free values
that the manual leaves open. -/

namespace Sys2Proof.Config

/-- Places of each span queue (R62). -/
def spanPlaces : Nat := 24

/-- Places of the retired ring (R64). -/
def ringPlaces : Nat := 32

/-- Places of the report queue (R179). -/
def queuePlaces : Nat := 96

/-- Trip keys, and places of the trip table (R138, R153). -/
def tripKeys : Nat := 71

/-- Segment numbers that READ_TRACK lists at most (R82). -/
def listedNumbers : Nat := 96

/-- Channel records that a READ_CHANNELS reply holds at most (R34). -/
def channelsPerReply : Nat := 20

/-- Trip records that a READ_TRIPS reply holds at most (R159). -/
def tripsPerReply : Nat := 12

/-- A byte of a reply whose value the manual does not state: read at `State.freeIx`, which every use advances.
Nothing constrains it (log 9, log 10). -/
opaque freeByte : Nat → Byte

end Sys2Proof.Config
end

