-- ==== Sys2Proof/Machine/State.lean ====
section
/-! DEFINITION. The state of the EK-T8, block by block, as plain data, and its value right after reset. Counts and
measured quantities are numbers; tags, masks, sequences, the ms count and line bytes are bit vectors. -/

namespace Sys2Proof.Machine

/-! ## Enumerated values (R188) -/

/-- The four trip actions, in ascending level (R150). -/
inductive Action where
  | note | freeze | open_ | millStop
  deriving DecidableEq, Repr

/-- The state of the active bank (R1). -/
inductive ActiveState where
  | invalid | valid
  deriving DecidableEq, Repr

/-- The state of the pending bank (R1). -/
inductive PendingState where
  | empty | editing | committed
  deriving DecidableEq, Repr

/-- The mill state (R65). -/
inductive MillState where
  | idle | armed | rolling | tailout
  deriving DecidableEq, Repr

/-- The state of a stand (R114). -/
inductive StandState where
  | out | setup | ready | thread | roll | tail | tripped | handover | local_
  deriving DecidableEq, Repr

/-- The state of a measurement channel (R28). -/
inductive ChanState where
  | empty | fresh | stale | invalid
  deriving DecidableEq, Repr

/-- The mode of a setpoint (R36). -/
inductive Mode where
  | preset | track | hold | open_
  deriving DecidableEq, Repr

/-- The out-of-pass code of a stand record (R4). -/
inductive OutCode where
  | park | hold | release
  deriving DecidableEq, Repr

/-- The source of a segment's entry thickness (R6, R58). -/
inductive EntrySrc where
  | schedule | gauge
  deriving DecidableEq, Repr

/-- The state of a trip record (R153). -/
inductive RecState where
  | raised | held | acked
  deriving DecidableEq, Repr

/-- The direction of a handover (R114). -/
inductive Direction where
  | toLocal | toCoord
  deriving DecidableEq, Repr

/-- The result that a HANDOVER_DONE notice reports (R131, R188). -/
inductive HandoverResult where
  | granted | deniedTimeout | abortedTrip | abortedReset
  deriving DecidableEq, Repr

/-- The presence state of a stand (R47). -/
inductive PresenceState where
  | absent | present | dropout
  deriving DecidableEq, Repr

/-- The mode of an AUX pin (R184). -/
inductive AuxMode where
  | off | attentionTrip | attentionAll | level
  deriving DecidableEq, Repr

/-! ## Schedule store -/

/-- A stand record: the 27 fields of R4, in their order. -/
structure StandRecord where
  outCode : OutCode
  sMin : Int
  sMax : Int
  sPreset : Int
  sOpen : Int
  z : Int
  m : Nat
  c : Nat
  kgm : Nat
  kff : Nat
  db : Nat
  r : Nat
  trimMax : Nat
  fMax : Nat
  pF : Nat
  w : Nat
  pW : Nat
  tCtl : Nat
  hTgt : Nat
  lSeg : Nat
  e : Nat
  lockDelay : Nat
  tConf : Nat
  ms : Nat
  iLim : Nat
  tNo : Nat
  tEq : Nat
  deriving DecidableEq, Repr

/-- One entry of the span table: nominal count N, loop tolerance T and head tolerance H (R6, R7). -/
structure SpanEntry where
  n : Nat
  t : Nat
  h : Nat
  deriving DecidableEq, Repr

/-- A mill record: the 8 fields of R6, in their order. Entry `i` of the span table is that of position `i + 2`. -/
structure MillRecord where
  activeSet : List Stand
  spanTable : Vector SpanEntry 7
  nX : Nat
  hEntry : Nat
  entrySource : EntrySrc
  km : Nat
  mdb : Nat
  nHold : Nat
  deriving DecidableEq, Repr

/-- The contents of a bank (R1). -/
structure Bank where
  mill : Option MillRecord
  stands : Vector (Option StandRecord) 8
  deriving DecidableEq, Repr

/-- The active bank (R1). -/
structure ActiveBank where
  state : ActiveState
  bank : Bank
  serial : Nat
  deriving DecidableEq, Repr

/-- The pending bank (R1). -/
structure PendingBank where
  state : PendingState
  bank : Bank
  serial : Nat
  deriving DecidableEq, Repr

/-- The device configuration record (R17); the action table has one row for each condition, in R152's order. -/
structure ConfigRecord where
  shortCount : Nat
  longCount : Nat
  tags : Vector (BitVec 12) 8
  freshness : Vector Nat 32
  actions : Vector Action 12
  deriving DecidableEq, Repr

/-- The schedule store (chapter 1). -/
structure ScheduleStore where
  active : ActiveBank
  pendingBank : PendingBank
  /-- the next serial number to be assigned (R2) -/
  counter : Nat
  config : ConfigRecord
  deriving DecidableEq, Repr

/-! ## Field line and measurement channels -/

/-- One entry of the acceptance table (R23). -/
structure AcceptEntry where
  enabled : Bool
  tag : BitVec 12
  mask : BitVec 12
  quantity : Nat
  channel : Chan
  deriving DecidableEq, Repr

/-- The field-in assembler (R21): HUNTING, or COLLECTING with the bytes held, first received first. -/
inductive FieldAssembler where
  | hunting
  | collecting (held : List Byte)
  deriving DecidableEq, Repr

/-- A setpoint: a mode and a gap reference in µm (R36). -/
structure Setpoint where
  mode : Mode
  gap : Int
  deriving DecidableEq, Repr

/-- The setpoint frame in transmission on field-out (R38, R39). -/
structure SetpointFrame where
  stand : Stand
  tag : BitVec 12
  seq : BitVec 4
  setpoint : Setpoint
  deriving DecidableEq, Repr

/-- The field line controller (chapter 2). -/
structure FieldLine where
  accept : Vector AcceptEntry 24
  asm : FieldAssembler
  /-- the setpoint transmit slots (R36) -/
  slots : Vector (Option Setpoint) 8
  /-- the frame in transmission; none is the idle line (R38) -/
  tx : Option SetpointFrame
  /-- the transmit sequences (R39) -/
  seqs : Vector (BitVec 4) 8
  deriving DecidableEq, Repr

/-- A measurement channel record (R28). Its freshness timeout is the configuration record's. -/
structure Channel where
  value : Int
  prev : Int
  state : ChanState
  warn : Bool
  lastSeq : Option (BitVec 4)
  hit : Option EntryNo
  remaining : Nat
  deriving DecidableEq, Repr

/-! ## Presence and length unit -/

/-- An input filter (R42). `due` is the model's own: the last tick brought the count to the class count, and the
accept (FILTER_ACCEPT) is still to be taken (log 2). -/
structure Filter where
  level : Bool
  count : Nat
  due : Bool
  deriving DecidableEq, Repr

/-- The presence logic of a stand (R47); the measurer counts nm. -/
structure Presence where
  state : PresenceState
  measurer : Nat
  deriving DecidableEq, Repr

/-- The presence and length unit (chapter 3). -/
structure PresenceUnit where
  /-- the first tick after the reset has been taken (R54) -/
  settled : Bool
  /-- the pins as last sampled (R42) -/
  pins : InputPins
  hmd : Vector Filter 8
  stop : Vector Filter 4
  panel : Vector Filter 8
  /-- the length accumulators, nm (R44) -/
  acc : Vector Nat 8
  pres : Vector Presence 8
  deriving DecidableEq, Repr

/-! ## Strip tracker -/

/-- The flags of a segment record (R58). -/
structure SegFlags where
  thread : Bool
  limited : Bool
  trip : Bool
  lost : Bool
  discarded : Bool
  deriving DecidableEq, Repr

/-- A segment record (R58). -/
structure Segment where
  coil : Nat
  seg : Nat
  entryH : Nat
  entrySrc : EntrySrc
  lastStand : Option Stand
  estH : Option Nat
  dev : Option Int
  gapRef : Int
  measH : Option Nat
  flags : SegFlags
  deriving DecidableEq, Repr

/-- A span queue, numbered as READ_TRACK codes it (R190): downstream position minus 2, and 7 for the exit span. -/
abbrev SpanId := Fin 8

/-- The strip tracker (chapter 4). -/
structure Tracker where
  mill : MillState
  coil : Nat
  allocated : Nat
  retired : Nat
  nextSeg : Nat
  /-- the segment number of the most recent allocation, 0 where none has been made since power-on or pin reset
  (R153) -/
  lastAlloc : Nat
  bites : Vector (Option Segment) 8
  /-- the span queues, oldest record first (R62) -/
  spans : Vector (List Segment) 8
  /-- the retired ring, oldest first (R64) -/
  ring : List Segment
  tailMarks : Vector Bool 8
  /-- the monitor hold count (R78) -/
  hold : Nat
  deriving DecidableEq, Repr

/-! ## Gap computation engine -/

/-- The gap record of a stand (R87). A timer is `none` when stopped, else the ms it has left; `some 0` is an expiry
that is due and not yet taken (log 2). -/
structure GapRecord where
  timer : Option Nat
  sRef : Int
  lastSent : Option Setpoint
  windowRef : Option Int
  hGm : Option Nat
  stale : Bool
  gmSat : Bool
  lockCount : Nat
  locked : Bool
  hLock : Nat
  sRefLock : Int
  trim : Int
  integ : Int
  limited : Bool
  slewing : Bool
  deriving DecidableEq, Repr

/-! ## Stand sequencer -/

/-- A pending handover (R114); the prior state is TO_LOCAL's only. -/
structure Handover where
  dir : Direction
  prior : Option StandState
  remaining : Nat
  deriving DecidableEq, Repr

/-- The sequencer record of a stand (R114). Timers as in `GapRecord`. -/
structure SeqRecord where
  state : StandState
  frozen : Bool
  handover : Option Handover
  nonOverlap : Option Nat
  equalize : Option Nat
  fastOpen : Bool
  localReq : Bool
  deriving DecidableEq, Repr

/-! ## Trip matrix -/

/-- The per-stand trip conditions, in the order c = 0 to 7 of R138. -/
inductive StandCond where
  | forceHigh | gapWindow | sampleStale | driveFault | headOverdue | loopGrow | loopPull | unready
  deriving DecidableEq, Repr

/-- A trip key (R138). -/
inductive Key where
  | resetStop
  | hostStop
  | stopInput (n : StopNo)
  | exitStale
  | stand (c : StandCond) (k : Stand)
  deriving DecidableEq, Repr

/-- A trip record (R153). -/
structure TripRecord where
  key : Key
  state : RecState
  action : Action
  stampMs : BitVec 32
  stampCoil : Nat
  stampSeg : Nat
  occ : Nat
  firstOut : Bool
  deriving DecidableEq, Repr

/-- The trip matrix (chapter 7). -/
structure TripMatrix where
  /-- the trip table, oldest record first (R153) -/
  table : List TripRecord
  /-- the persistence counters of FORCE_HIGH (R141) -/
  forceCnt : Vector Nat 8
  /-- the persistence counters of GAP_WINDOW (R141) -/
  gapCnt : Vector Nat 8
  /-- the mill stop line; true is asserted, the pin low (R161) -/
  stopLine : Bool
  deriving DecidableEq, Repr

/-! ## Host link -/

/-- A host link frame without its start byte, LEN and CRC (R168): a request, a reply or a notice. -/
structure HostFrame where
  kind : Byte
  tag : Byte
  body : List Byte
  deriving DecidableEq, Repr

/-- The receive assembler (R169); COLLECTING holds LEN and the bytes after it, first received first. -/
inductive RxAssembler where
  | hunting
  | length
  | collecting (len : Byte) (held : List Byte)
  deriving DecidableEq, Repr

/-- One channel's reading in a CHANNEL_PERIODIC notice (R180). -/
structure Reading where
  ch : Chan
  value : Int
  state : ChanState
  warn : Bool
  deriving DecidableEq, Repr

/-- The record state a TRIP notice reports: a state of the record, or REMOVED (`none`) (R160). -/
abbrev NoticeRecState := Option RecState

/-- The source of a notice: its kind and source together (R180). -/
inductive NoticeSource where
  | trip (key : Key)
  | standState (k : Stand)
  | millState
  | handoverDone (k : Stand)
  | segmentRetired
  | channelPeriodic (i : StreamId)
  deriving DecidableEq, Repr

/-- The content of a notice (R180). -/
inductive NoticeBody where
  | trip (r : TripRecord) (state : NoticeRecState)
  | standState (k : Stand) (state : StandState) (frozen strip : Bool)
  | millState (state : MillState) (coil serial : Nat)
  | handoverDone (k : Stand) (dir : Direction) (result : HandoverResult)
  | segmentRetired (seg gathered : Nat)
  | channelPeriodic (i : StreamId) (ms : BitVec 32) (readings : List Reading)
  deriving DecidableEq, Repr

/-- A notice of the report queue: its content and its occurrence, 1 to 255 (R179). -/
structure Notice where
  body : NoticeBody
  occ : Nat
  deriving DecidableEq, Repr

/-- A periodic stream (R182). -/
structure Stream where
  enabled : Bool
  chans : List Chan
  period : Nat
  timer : Option Nat
  deriving DecidableEq, Repr

/-- An AUX pin's mode and stored level (R184). -/
structure AuxPin where
  mode : AuxMode
  level : Bool
  deriving DecidableEq, Repr

/-- The host link (chapter 8). -/
structure HostLink where
  /-- the strap code in force (R166) -/
  straps : BitVec 2
  rx : RxAssembler
  /-- the reply slot (R171) -/
  slot : Option HostFrame
  /-- the hold place (R171) -/
  held : Option HostFrame
  /-- the frame in transmission; none is the idle line (R174) -/
  tx : Option HostFrame
  /-- the report queue, oldest notice first (R179) -/
  queue : List Notice
  /-- the kind mask (R181), a bit for each kind in the order of R188 -/
  mask : BitVec 6
  streams : Vector Stream 4
  aux : Vector AuxPin 2
  deriving DecidableEq, Repr

/-! ## Resets -/

/-- The two reset sources, each set while it holds the part in reset (R193). -/
structure ResetHold where
  /-- the power-on monitor: the supply is below its threshold, or not yet 10 ms above it -/
  supply : Bool
  /-- the RESET pin, low for at least 1 µs -/
  pin : Bool
  deriving DecidableEq, Repr

/-! ## The whole machine -/

/-- The state of the part, and the queue of the commands that are waiting. -/
structure State where
  hlk : HostLink
  flc : FieldLine
  mch : Vector Channel 32
  plu : PresenceUnit
  stk : Tracker
  gce : Vector GapRecord 8
  ssq : Vector SeqRecord 8
  tmx : TripMatrix
  sch : ScheduleStore
  /-- the ms count (R153) -/
  ms : BitVec 32
  /-- the reset sources that hold the part (R193) -/
  resets : ResetHold
  /-- the model's own: where the next free value is read (log 9) -/
  freeIx : Nat
  /-- the model's own: the commands waiting, first in first out -/
  pending : List Instr
  deriving DecidableEq, Repr

/-- The reasons the machine stops with a fault. The part has none: no meaning raises one. -/
inductive Fault where
  /-- Raised by nobody: the spec gives the part no condition that stops it. Safe. -/
  | none
  deriving DecidableEq, Repr

/-- The reasons a command has no meaning. -/
inductive Refusal where
  /-- Raised by an arm of `exec` whose command has no meaning yet; no arm does. Safe. -/
  | notModelled (mnemonic : String)
  deriving DecidableEq, Repr

/-! ## Reset values -/

/-- A bank without records (R1). -/
def Bank.none : Bank := { mill := Option.none, stands := Vector.replicate 8 Option.none }

/-- The pending bank while EMPTY (R1). -/
def PendingBank.none : PendingBank := { state := .empty, bank := Bank.none, serial := 0 }

/-- The default action table (R17). -/
def defaultActions : Vector Action 12 :=
  #v[.millStop, .millStop, .millStop, .open_, .open_, .freeze, .millStop, .millStop, .millStop, .freeze,
     .millStop, .note]

/-- The configuration record after power-on (R17, R19). -/
def ConfigRecord.default : ConfigRecord :=
  { shortCount := 3, longCount := 50, tags := Vector.replicate 8 0, freshness := Vector.replicate 32 20,
    actions := defaultActions }

/-- The schedule store after power-on (R19). -/
def ScheduleStore.cleared : ScheduleStore :=
  { active := { state := .invalid, bank := Bank.none, serial := 0 }, pendingBank := PendingBank.none,
    counter := 1, config := ConfigRecord.default }

/-- The field line controller after power-on (R27, R40). -/
def FieldLine.cleared : FieldLine :=
  { accept := Vector.replicate 24 { enabled := false, tag := 0, mask := 0, quantity := 0, channel := 0 },
    asm := .hunting, slots := Vector.replicate 8 Option.none, tx := Option.none, seqs := Vector.replicate 8 0 }

/-- A channel after power-on (R35). -/
def Channel.cleared : Channel :=
  { value := 0, prev := 0, state := .empty, warn := false, lastSeq := Option.none, hit := Option.none,
    remaining := 0 }

/-- A filter after power-on: inactive, count 0 (R54). -/
def Filter.cleared : Filter := { level := false, count := 0, due := false }

/-- The levels at which every input pin is inactive (R194). DESIGN CHOICE: what `pins` holds until the first tick
samples them (log 4). -/
def InputPins.inactive : InputPins := { hmd := 0, stop := 0xF, panel := 0xFF }

/-- The presence and length unit from the release to the first tick (R54, R55). -/
def PresenceUnit.cleared : PresenceUnit :=
  { settled := false, pins := InputPins.inactive, hmd := Vector.replicate 8 Filter.cleared,
    stop := Vector.replicate 4 Filter.cleared, panel := Vector.replicate 8 Filter.cleared,
    acc := Vector.replicate 8 0, pres := Vector.replicate 8 { state := .absent, measurer := 0 } }

/-- The strip tracker after power-on (R84). -/
def Tracker.cleared : Tracker :=
  { mill := .idle, coil := 0, allocated := 0, retired := 0, nextSeg := 1, lastAlloc := 0,
    bites := Vector.replicate 8 Option.none, spans := Vector.replicate 8 [], ring := [],
    tailMarks := Vector.replicate 8 false, hold := 0 }

/-- A gap record after power-on (R111). -/
def GapRecord.cleared : GapRecord :=
  { timer := Option.none, sRef := 0, lastSent := Option.none, windowRef := Option.none, hGm := Option.none,
    stale := false, gmSat := false, lockCount := 0, locked := false, hLock := 0, sRefLock := 0, trim := 0,
    integ := 0, limited := false, slewing := false }

/-- A sequencer record after power-on, before the RESET_STOP record (R136). -/
def SeqRecord.cleared : SeqRecord :=
  { state := .out, frozen := false, handover := Option.none, nonOverlap := Option.none, equalize := Option.none,
    fastOpen := false, localReq := false }

/-- The trip matrix while the reset is held: table empty, stop line asserted (R161, R163). -/
def TripMatrix.cleared : TripMatrix :=
  { table := [], forceCnt := Vector.replicate 8 0, gapCnt := Vector.replicate 8 0, stopLine := true }

/-- A stream after power-on (R182). -/
def Stream.cleared : Stream := { enabled := false, chans := [0], period := 1000, timer := Option.none }

/-- The host link after power-on, before the reset's notices (R171, R181, R182, R184, R185). -/
def HostLink.cleared (straps : BitVec 2) : HostLink :=
  { straps := straps, rx := .hunting, slot := Option.none, held := Option.none, tx := Option.none, queue := [],
    mask := 0x3F, streams := Vector.replicate 4 Stream.cleared,
    aux := Vector.replicate 2 { mode := .off, level := false } }

/-- Every block at its power-on value, before the release enters the RESET_STOP record and the reset's notices: the stop
line asserted, FAST_OPEN and LOCAL_REQ deasserted, the AUX pins OFF, both lines idle. A held reset holds the blocks so, with
its source in `resets` (R161, R193). -/
def State.cleared (straps : BitVec 2) : State :=
  { hlk := HostLink.cleared straps, flc := FieldLine.cleared, mch := Vector.replicate 32 Channel.cleared,
    plu := PresenceUnit.cleared, stk := Tracker.cleared, gce := Vector.replicate 8 GapRecord.cleared,
    ssq := Vector.replicate 8 SeqRecord.cleared, tmx := TripMatrix.cleared, sch := ScheduleStore.cleared,
    ms := 0, resets := { supply := false, pin := false }, freeIx := 0, pending := [] }

/-- The RESET_STOP record that the release of a reset leaves (R163). -/
def resetStopRecord : TripRecord :=
  { key := .resetStop, state := .held, action := .millStop, stampMs := 0, stampCoil := 0, stampSeg := 0, occ := 1,
    firstOut := true }

/-- The notices that stand in the report queue right after reset, the MILL_STATE notice before them having begun
its transmission (R174, R185). -/
def resetQueue : List Notice :=
  (allStands.map fun k => { body := .standState k .out false false, occ := 1 }) ++
    [{ body := .trip resetStopRecord (some .held), occ := 2 }]

/-- The machine right after reset (R19, R35, R40, R54, R55, R84, R111, R136, R163, R185): every block cleared, the
RESET_STOP record HELD with the first-out mark, the stop line and every FAST_OPEN line asserted, the reset's notices
entered and the first of them, MILL_STATE, in transmission. The strap code is 0 (DESIGN CHOICE, log 3). -/
def State.reset : State :=
  let s := State.cleared 0
  { s with
    hlk := { s.hlk with
      tx := some { kind := 0x42, tag := 0, body := [0, 0, 0, 0, 0, 1] }
      queue := resetQueue }
    ssq := Vector.replicate 8 { SeqRecord.cleared with fastOpen := true }
    tmx := { s.tmx with table := [resetStopRecord] } }

end Sys2Proof.Machine
end

