-- ==== Sys2Proof/Machine/Arith.lean ====
section
/-! DEFINITION. The arithmetic conventions of the manual (Conventions, Arithmetic) and its wrapping and saturating
counters. -/

namespace Sys2Proof.Machine

/-- The quotient of an integer by a positive number, rounded to the nearest integer, an exact half away from zero
(Conventions, Arithmetic). -/
def roundDiv (x : Int) (d : Nat) : Int :=
  if 0 ≤ x then (2 * x + d) / (2 * d) else -((2 * (-x) + d) / (2 * d))

/-- Saturation to [lo, hi] (Conventions, Arithmetic). -/
def saturate (lo hi x : Int) : Int := if x < lo then lo else if hi < x then hi else x

/-- A count that increases by 1 and stays at its bound (R60, R153, R179, R180). -/
def satSucc (bound n : Nat) : Nat := if n < bound then n + 1 else bound

/-- The successor in a numbering 1 to 65,535, from 65,535 to 1 (R2, R59, R60). -/
def succ65535 (n : Nat) : Nat := if n < 65535 then n + 1 else 1

/-- The steps of counting forward from `s` to `x` through the numbering 1 to 65,535 (R83). -/
def stepsForward (s x : Nat) : Nat := (x + 65535 - s) % 65535

/-- A value stepped from `base` toward `target` by at most `r` (R92, R103). -/
def slewTo (base target : Int) (r : Nat) : Int := base + saturate (-(r : Int)) r (target - base)

end Sys2Proof.Machine
end

