-- ==== Sys2Proof/Machine/Codec.lean ====
section
/-! DEFINITION. How a byte is laid out in bit times (R20, R167) and items in bytes (R178), the codes of the enumerated values
(R188), the CRC (R168), and the frames of both lines (R186, R187). -/

namespace Sys2Proof.Machine

/-! ## Bytes as bit times (R20, R167) -/

/-- The start bit of a byte on a line, low, and its data bits, least significant first. -/
def lineBits (b : Byte) : LineBits := b ++ 0#1

/-- What a receiver makes of a byte's bit times: the byte, and whether its stop bit was low, a framing error; none where no
start bit opens them. -/
def lineByte (line : LineBits) (stop : Bool) : Option (Byte × Bool) :=
  if line.getLsb 0 then none else some (line.extractLsb' 1 8, !stop)

/-- The levels that a transmitter gives a byte, bit time by bit time, its stop bit high. -/
def byteLevels (b : Byte) : List Bool := (List.finRange 9).map (lineBits b).getLsb ++ [true]

/-- The levels of a frame, its bytes sent back to back. -/
def frameLevels (bytes : List Byte) : List Bool := (bytes.map byteLevels).flatten

/-! ## Items as bytes, high byte first (R178) -/

/-- An unsigned 8-bit item. -/
def enc8 (n : Nat) : List Byte := [BitVec.ofNat 8 n]

/-- An unsigned 16-bit item. -/
def enc16 (n : Nat) : List Byte := [BitVec.ofNat 8 (n / 256), BitVec.ofNat 8 n]

/-- An unsigned 24-bit item. -/
def enc24 (n : Nat) : List Byte := [BitVec.ofNat 8 (n / 65536), BitVec.ofNat 8 (n / 256), BitVec.ofNat 8 n]

/-- An unsigned 32-bit item. -/
def enc32 (n : Nat) : List Byte :=
  [BitVec.ofNat 8 (n / 16777216), BitVec.ofNat 8 (n / 65536), BitVec.ofNat 8 (n / 256), BitVec.ofNat 8 n]

/-- A signed 16-bit item, two's complement. -/
def encS16 (x : Int) : List Byte := enc16 (x % 65536).toNat

/-- A signed 24-bit item, two's complement. -/
def encS24 (x : Int) : List Byte := enc24 (x % 16777216).toNat

/-- A flag: 0 clear, 1 set. -/
def encFlag (b : Bool) : List Byte := enc8 b.toNat

/-- The byte of a body at an index; 0 past its end (no reader goes past a length that R172 has checked). -/
def rd8 (body : List Byte) (i : Nat) : Nat := (body.getD i 0).toNat

/-- An unsigned 16-bit item read at an index. -/
def rd16 (body : List Byte) (i : Nat) : Nat := rd8 body i * 256 + rd8 body (i + 1)

/-- An unsigned 24-bit item read at an index. -/
def rd24 (body : List Byte) (i : Nat) : Nat := rd16 body i * 256 + rd8 body (i + 2)

/-- An unsigned 32-bit item read at an index. -/
def rd32 (body : List Byte) (i : Nat) : Nat := rd16 body i * 65536 + rd16 body (i + 2)

/-- The signed value of an `n`-bit two's complement number. -/
def signed (bits n : Nat) : Int := if n < 2 ^ (bits - 1) then (n : Int) else (n : Int) - 2 ^ bits

/-- A signed 16-bit item read at an index. -/
def rdS16 (body : List Byte) (i : Nat) : Int := signed 16 (rd16 body i)

/-- A signed 24-bit item read at an index. -/
def rdS24 (body : List Byte) (i : Nat) : Int := signed 24 (rd24 body i)

/-! ## Codes of the enumerated values (R188) -/

/-- The reply codes. -/
inductive ReplyCode where
  | ok | clamped | unknownKind | badLength | badParam | wrongState | standInLocal | busy
  deriving DecidableEq, Repr

def ReplyCode.num : ReplyCode → Nat
  | .ok => 0 | .clamped => 1 | .unknownKind => 2 | .badLength => 3 | .badParam => 4 | .wrongState => 5
  | .standInLocal => 6 | .busy => 7

def millCode : MillState → Nat
  | .idle => 0 | .armed => 1 | .rolling => 2 | .tailout => 3

def standCode : StandState → Nat
  | .out => 0 | .setup => 1 | .ready => 2 | .thread => 3 | .roll => 4 | .tail => 5 | .tripped => 6
  | .handover => 7 | .local_ => 8

def activeCode : ActiveState → Nat
  | .invalid => 0 | .valid => 1

def pendingCode : PendingState → Nat
  | .empty => 0 | .editing => 1 | .committed => 2

def chanCode : ChanState → Nat
  | .empty => 0 | .fresh => 1 | .stale => 2 | .invalid => 3

def modeCode : Mode → Nat
  | .preset => 0 | .track => 1 | .hold => 2 | .open_ => 3

def actionCode : Action → Nat
  | .note => 0 | .freeze => 1 | .open_ => 2 | .millStop => 3

def actionOfCode : Nat → Option Action
  | 0 => some .note
  | 1 => some .freeze
  | 2 => some .open_
  | 3 => some .millStop
  | _ => none

/-- The record state of a TRIP notice; 3 is REMOVED. -/
def recCode : NoticeRecState → Nat
  | some .raised => 0 | some .held => 1 | some .acked => 2 | none => 3

def outCode : OutCode → Nat
  | .park => 0 | .hold => 1 | .release => 2

/-- The out-of-pass code of a number; only 0 to 2 pass R8's check. -/
def outOfCode : Nat → OutCode
  | 0 => .park
  | 1 => .hold
  | _ => .release

def srcCode : EntrySrc → Nat
  | .schedule => 0 | .gauge => 1

/-- The entry source of a number; only 0 and 1 pass R9's check. -/
def srcOfCode : Nat → EntrySrc
  | 0 => .schedule
  | _ => .gauge

def dirCode : Direction → Nat
  | .toLocal => 1 | .toCoord => 2

def resultCode : HandoverResult → Nat
  | .granted => 0 | .deniedTimeout => 1 | .abortedTrip => 2 | .abortedReset => 3

def auxCode : AuxMode → Nat
  | .off => 0 | .attentionTrip => 1 | .attentionAll => 2 | .level => 3

def auxOfCode : Nat → Option AuxMode
  | 0 => some .off
  | 1 => some .attentionTrip
  | 2 => some .attentionAll
  | 3 => some .level
  | _ => none

def condNum : StandCond → Nat
  | .forceHigh => 0 | .gapWindow => 1 | .sampleStale => 2 | .driveFault => 3 | .headOverdue => 4
  | .loopGrow => 5 | .loopPull => 6 | .unready => 7

def condOfNum : Nat → StandCond
  | 0 => .forceHigh
  | 1 => .gapWindow
  | 2 => .sampleStale
  | 3 => .driveFault
  | 4 => .headOverdue
  | 5 => .loopGrow
  | 6 => .loopPull
  | _ => .unready

/-- The key number, 0 to 70 (R138). -/
def Key.num : Key → Nat
  | .resetStop => 0
  | .hostStop => 1
  | .stopInput n => 2 + n.val
  | .exitStale => 6
  | .stand c k => 7 + 8 * condNum c + k.val

/-- The key of a number (R138); none above 70. -/
def keyOfNum (n : Nat) : Option Key :=
  if n = 0 then some .resetStop
  else if n = 1 then some .hostStop
  else if n < 6 then some (.stopInput (Fin.ofNat 4 (n - 2)))
  else if n = 6 then some .exitStale
  else if n < 71 then some (.stand (condOfNum ((n - 7) / 8)) (Fin.ofNat 8 ((n - 7) % 8)))
  else none

/-- The row of the action table that applies to a key, in the order of R152. -/
def Key.row : Key → Fin 12
  | .resetStop => 0
  | .hostStop => 1
  | .stopInput _ => 2
  | .exitStale => 11
  | .stand .forceHigh _ => 3
  | .stand .gapWindow _ => 4
  | .stand .sampleStale _ => 5
  | .stand .driveFault _ => 6
  | .stand .headOverdue _ => 7
  | .stand .loopGrow _ => 8
  | .stand .loopPull _ => 9
  | .stand .unready _ => 10

/-- The stand of a position number 1 to 8. -/
def standOfPos (n : Nat) : Option Stand := if 1 ≤ n ∧ n ≤ 8 then some (Fin.ofNat 8 (n - 1)) else none

/-! ## The CRC (R168) -/

/-- One shift of the CRC register. -/
def crcShift (c : BitVec 16) : BitVec 16 := if c.msb then (c <<< 1) ^^^ 0x1021 else c <<< 1

/-- One byte shifted into the CRC register, most significant bit first. -/
def crcByte (c : BitVec 16) (b : Byte) : BitVec 16 :=
  crcShift (crcShift (crcShift (crcShift (crcShift (crcShift (crcShift (crcShift
    (c ^^^ (b.setWidth 16 <<< 8)))))))))

/-- The CRC-16 of a run of bytes: polynomial 0x1021, initial 0xFFFF, not inverted (R168). -/
def crc16 (bytes : List Byte) : BitVec 16 := bytes.foldl crcByte 0xFFFF

/-- The CRC field of a frame over its checked bytes, high byte first. -/
def crcBytes (bytes : List Byte) : List Byte := enc16 (crc16 bytes).toNat

/-! ## Host link frames (R168, R186) -/

/-- The bytes of a host link frame that its CRC covers: LEN, KIND, TAG and BODY. -/
def HostFrame.checked (f : HostFrame) : List Byte := enc8 (f.body.length + 2) ++ f.kind :: f.tag :: f.body

/-- The bytes of a host link frame on the line. -/
def HostFrame.bytes (f : HostFrame) : List Byte := 0xA5 :: f.checked ++ crcBytes f.checked

/-! ## Field line frames (R187) -/

/-- The value field of a setpoint frame: the mode in bits 21 and 20, the gap in bits 19 to 0. -/
def setpointValue (p : Setpoint) : Nat := modeCode p.mode * 1048576 + (p.gap % 1048576).toNat

/-- Bytes 2 to 7 of a field line frame: node tag, quantity, sequence, health, value. -/
def fieldBody (tag : BitVec 12) (quantity : Nat) (seq : BitVec 4) (health value : Nat) : List Byte :=
  enc8 (tag.toNat / 16) ++ enc8 (tag.toNat % 16 * 16 + quantity) ++ enc8 (seq.toNat * 16 + health * 4) ++ enc24 value

/-- A whole field line frame around its bytes 2 to 7. -/
def fieldFrameOf (body : List Byte) : List Byte := 0x5A :: body ++ crcBytes body

/-- The bytes of a setpoint frame on field-out (R39, R187): quantity 15, the mode in the health bits too. -/
def SetpointFrame.bytes (f : SetpointFrame) : List Byte :=
  fieldFrameOf (fieldBody f.tag 15 f.seq (modeCode f.setpoint.mode) (setpointValue f.setpoint))

/-- The fields of a received field frame (R187). -/
structure FieldFrame where
  tag : BitVec 12
  quantity : Nat
  seq : BitVec 4
  health : Nat
  value : Int
  deriving DecidableEq, Repr

/-- The fields read from the nine bytes of a field frame (R187); bits 1 and 0 of byte 4 are ignored. -/
def fieldFields (frame : List Byte) : FieldFrame :=
  { tag := BitVec.ofNat 12 (rd8 frame 1 * 16 + rd8 frame 2 / 16)
    quantity := rd8 frame 2 % 16
    seq := BitVec.ofNat 4 (rd8 frame 3 / 16)
    health := rd8 frame 3 / 4 % 4
    value := rdS24 frame 4 }

/-- The check of a field frame: the CRC of bytes 2 to 7 equals bytes 8 and 9 (R22, R187). -/
def fieldCheck (frame : List Byte) : Bool := (crc16 ((frame.drop 1).take 6)).toNat == rd16 frame 7

/-! ## Notices (R180, R191) -/

/-- The source of a notice's content. -/
def NoticeBody.source : NoticeBody → NoticeSource
  | .trip r _ => .trip r.key
  | .standState k _ _ _ => .standState k
  | .millState _ _ _ => .millState
  | .handoverDone k _ _ => .handoverDone k
  | .segmentRetired _ _ => .segmentRetired
  | .channelPeriodic i _ _ => .channelPeriodic i

/-- The kind of a source, 0 to 5: KIND minus 0x40, and its bit of the kind mask (R180, R188). -/
def NoticeSource.kindIx : NoticeSource → Fin 6
  | .trip _ => 0
  | .standState _ => 1
  | .millState => 2
  | .handoverDone _ => 3
  | .segmentRetired => 4
  | .channelPeriodic _ => 5

/-- One channel of a CHANNEL_PERIODIC notice. -/
def encReading (r : Reading) : List Byte :=
  enc8 r.ch.val ++ encS24 r.value ++ enc8 (chanCode r.state) ++ encFlag r.warn

/-- A trip record's stamp. -/
def encStamp (r : TripRecord) : List Byte := enc32 r.stampMs.toNat ++ enc16 r.stampCoil ++ enc16 r.stampSeg

/-- The content of a notice, without its occurrence (R191). -/
def NoticeBody.content : NoticeBody → List Byte
  | .trip r st =>
    enc8 r.key.num ++ enc8 (recCode st) ++ enc8 (actionCode r.action) ++ enc8 r.occ ++ encFlag r.firstOut ++ encStamp r
  | .standState k st frozen strip => enc8 (Stand.pos k) ++ enc8 (standCode st) ++ encFlag frozen ++ encFlag strip
  | .millState st coil serial => enc8 (millCode st) ++ enc16 coil ++ enc16 serial
  | .handoverDone k dir result => enc8 (Stand.pos k) ++ enc8 (dirCode dir) ++ enc8 (resultCode result)
  | .segmentRetired seg gathered => enc16 seg ++ enc16 gathered
  | .channelPeriodic i ms readings =>
    enc8 (i.val + 1) ++ enc32 ms.toNat ++ enc8 readings.length ++ (readings.map encReading).flatten

/-- The frame of a notice: TAG 0, the content and then the occurrence (R168, R191). -/
def Notice.frame (n : Notice) : HostFrame :=
  { kind := BitVec.ofNat 8 (0x40 + n.body.source.kindIx.val), tag := 0, body := n.body.content ++ enc8 n.occ }

end Sys2Proof.Machine
end

