-- ==== Sys2Proof/Machine/Flags.lean ====
section
/-! DEFINITION. Levels and flags computed from the state: the active levels of the pins (R194), the strip-present
flag (R47), the channel and bank tests, the trip matrix's coverage and presence (R138, R150, R151), the AUX pin levels
(R184) and the STATUS flag word (R189). -/

namespace Sys2Proof.Machine

/-! ## Per-stand and per-channel views -/

def State.seq (s : State) (k : Stand) : SeqRecord := vget s.ssq k
def State.gap (s : State) (k : Stand) : GapRecord := vget s.gce k
def State.chan (s : State) (c : Chan) : Channel := vget s.mch c

/-- The stand record of a position in the active bank (R3). -/
def State.record (s : State) (k : Stand) : Option StandRecord := vget s.sch.active.bank.stands k

/-- The mill record of the active bank. -/
def State.millRec (s : State) : Option MillRecord := s.sch.active.bank.mill

/-- The active set; empty while the active bank is INVALID (R3). -/
def State.activeSet (s : State) : List Stand := s.millRec.elim [] (·.activeSet)

/-- Whether a stand is in the active set. -/
def State.inSet (s : State) (k : Stand) : Bool := s.activeSet.contains k

def State.firstActive (s : State) : Option Stand := s.activeSet.head?
def State.lastActive (s : State) : Option Stand := s.activeSet.getLast?
def State.isFirst (s : State) (k : Stand) : Bool := s.firstActive == some k
def State.isLast (s : State) (k : Stand) : Bool := s.lastActive == some k

/-- The next active stand after `k` (R61). -/
def State.nextActive (s : State) (k : Stand) : Option Stand := s.activeSet.find? fun j => decide (k < j)

/-- The previous active stand before `k`. -/
def State.prevActive (s : State) (k : Stand) : Option Stand := (s.activeSet.filter fun j => decide (j < k)).getLast?

/-- The presence logic of a stand. -/
def State.presence (s : State) (k : Stand) : Presence := vget s.plu.pres k

/-- The strip-present flag, by R47's table. -/
def State.stripPresent (s : State) (k : Stand) : Bool := decide ((s.presence k).state ≠ .absent)

/-- The span table entry of the span into stand `k`; none for position 1 (R7). -/
def State.spanEntry (s : State) (k : Stand) : Option SpanEntry :=
  s.millRec.bind fun m => if h : 1 ≤ k.val then some (vget m.spanTable ⟨k.val - 1, by omega⟩) else none

/-- The force channel of a stand (R28). -/
def forceCh (k : Stand) : Chan := ⟨3 * k.val, by omega⟩

/-- The gap channel of a stand (R28). -/
def gapCh (k : Stand) : Chan := ⟨3 * k.val + 1, by omega⟩

/-- The drive status channel of a stand (R28). -/
def driveCh (k : Stand) : Chan := ⟨3 * k.val + 2, by omega⟩

/-- The stand whose channel this is, and which of its three it is (0 force, 1 gap, 2 drive status); none for channels
24 to 31 (R28). -/
def chanRole (c : Chan) : Option (Stand × Nat) :=
  if h : c.val < 24 then some (⟨c.val / 3, by omega⟩, c.val % 3) else none

/-- The span into stand `k`, numbered as R190 codes it. -/
def spanInto (k : Stand) : SpanId := k - 1

/-- The exit span (R190 codes it as 7). -/
def exitSpan : SpanId := 7

/-! ## Pins (R194) -/

/-- Whether the pin of a filtered input is at its active level: detectors high, stop loops and panel switches low. -/
def pinActive (p : InputPins) : FilterId → Bool
  | .hmd k => p.hmd.getLsb k
  | .stop n => !p.stop.getLsb n
  | .panel k => !p.panel.getLsb k

/-- A pulse edge less than 200 ns after the one before it is not resolved, and its pulse is lost (R194). -/
def pulseResolved (e : PulseEdge) : Bool := decide (200 ≤ e.sinceNs)

/-- An edge that counts as a forward pulse: resolved, with the direction pin read high (R44, R194). -/
def forwardPulse (e : PulseEdge) : Bool := e.dir && pulseResolved e

/-- What a discrete output is driven to. -/
inductive PinLevel where
  | highZ | low | high
  deriving DecidableEq, Repr

/-- The level that a Boolean drives on an output that is high when asserted. -/
def driven (b : Bool) : PinLevel := if b then .high else .low

/-- The FAST_OPEN pin of a stand: high when asserted. -/
def State.fastOpenPin (s : State) (k : Stand) : PinLevel := driven (s.seq k).fastOpen

/-- The LOCAL_REQ pin of a stand: high when asserted. -/
def State.localReqPin (s : State) (k : Stand) : PinLevel := driven (s.seq k).localReq

/-- The pin of the mill stop line: low when asserted (R161). -/
def State.stopLinePin (s : State) : PinLevel := driven !s.tmx.stopLine

/-- The level of a transmit pin in bit time `bit`, counted from the start of the transmission: that of the frame's bits, sent
back to back, and high on an idle line and behind the frame (R20, R167). -/
def transmitLevel (frame : Option (List Byte)) (bit : Nat) : PinLevel :=
  driven ((frameLevels (frame.getD [])).getD bit true)

/-- The host transmit pin in a bit time of the transmission (R167). -/
def State.hostTxPin (s : State) (bit : Nat) : PinLevel := transmitLevel (s.hlk.tx.map HostFrame.bytes) bit

/-- The field-out pin in a bit time of the transmission (R20). -/
def State.fieldOutPin (s : State) (bit : Nat) : PinLevel := transmitLevel (s.flc.tx.map SetpointFrame.bytes) bit

/-! ## Trip records (R138, R150, R151) -/

/-- Whether an action is OPEN or MILL_STOP (R115). -/
def Action.openClass : Action → Bool
  | .open_ => true
  | .millStop => true
  | .note => false
  | .freeze => false

/-- Whether a record covers a stand, by its action and its key (R150). -/
def TripRecord.covers (r : TripRecord) (k : Stand) : Bool :=
  match r.action with
  | .note => false
  | .millStop => true
  | .freeze => match r.key with
    | .stand _ j => j == k
    | _ => true
  | .open_ => match r.key with
    | .stand _ j => j == k
    | _ => true

/-- The record of a key (R153). -/
def State.recordOf (s : State) (key : Key) : Option TripRecord := s.tmx.table.find? fun r => r.key == key

/-- A key is present while its record is RAISED or ACKED (R153). -/
def State.present (s : State) (key : Key) : Bool := (s.recordOf key).elim false fun r => r.state != .held

/-- A stand is under open cover (R115). -/
def State.openCover (s : State) (k : Stand) : Bool := s.tmx.table.any fun r => r.action.openClass && r.covers k

/-- A stand is covered by a FREEZE record (R115). -/
def State.freezeCover (s : State) (k : Stand) : Bool := s.tmx.table.any fun r => r.action == .freeze && r.covers k

/-- A MILL_STOP record exists (R115). -/
def State.millStopExists (s : State) : Bool := s.tmx.table.any fun r => r.action == .millStop

/-- An OPEN-class record exists, for any key (R66). -/
def State.openClassExists (s : State) : Bool := s.tmx.table.any fun r => r.action.openClass

/-- The effective action of a stand: the highest among the records that cover it (R151). -/
def State.effectiveAction (s : State) (k : Stand) : Option Action :=
  let covering := s.tmx.table.filter fun r => r.covers k
  if covering.any fun r => r.action == .millStop then some .millStop
  else if covering.any fun r => r.action == .open_ then some .open_
  else if covering.any fun r => r.action == .freeze then some .freeze
  else none

/-- The key of the record with the first-out mark (R153). -/
def State.firstOutKey (s : State) : Option Key := (s.tmx.table.find? (·.firstOut)).map (·.key)

/-! ## States that rules name together -/

/-- SETUP, READY, THREAD, ROLL or TAIL (R122, R142). -/
def StandState.inPass : StandState → Bool
  | .setup => true
  | .ready => true
  | .thread => true
  | .roll => true
  | .tail => true
  | .out => false
  | .tripped => false
  | .handover => false
  | .local_ => false

/-- THREAD, ROLL or TAIL (R81, R144, R177). -/
def StandState.threaded : StandState → Bool
  | .thread => true
  | .roll => true
  | .tail => true
  | .out => false
  | .setup => false
  | .ready => false
  | .tripped => false
  | .handover => false
  | .local_ => false

/-- THREAD or ROLL (R79). -/
def StandState.rolling : StandState → Bool
  | .thread => true
  | .roll => true
  | .tail => false
  | .out => false
  | .setup => false
  | .ready => false
  | .tripped => false
  | .handover => false
  | .local_ => false

/-- LOCAL or HANDOVER (R134). -/
def StandState.away : StandState → Bool
  | .handover => true
  | .local_ => true
  | .out => false
  | .setup => false
  | .ready => false
  | .thread => false
  | .roll => false
  | .tail => false
  | .tripped => false

/-- ROLLING or TAILOUT. -/
def MillState.running : MillState → Bool
  | .rolling => true
  | .tailout => true
  | .idle => false
  | .armed => false

/-- Whether any stand is in THREAD, ROLL or TAIL (R81, R177). -/
def State.anyThreaded (s : State) : Bool := allStands.any fun k => (s.seq k).state.threaded

/-- Whether the force and gap channels of a stand are both FRESH (R95). -/
def State.inputsFresh (s : State) (k : Stand) : Bool :=
  (s.chan (forceCh k)).state == .fresh && (s.chan (gapCh k)).state == .fresh

/-! ## AUX pins (R184) -/

/-- Whether a queued notice is one that an ATTENTION-TRIP pin watches. -/
def Notice.watched (n : Notice) : Bool :=
  match n.body.source with
  | .trip _ => true
  | .millState => true
  | .standState _ => false
  | .handoverDone _ => false
  | .segmentRetired => false
  | .channelPeriodic _ => false

/-- The level of an AUX pin, following the report queue. -/
def State.auxPin (s : State) (i : Fin 2) : PinLevel :=
  match (vget s.hlk.aux i).mode with
  | .off => .highZ
  | .attentionTrip => driven (s.hlk.queue.any Notice.watched)
  | .attentionAll => driven (!s.hlk.queue.isEmpty)
  | .level => driven (vget s.hlk.aux i).level

/-! ## The STATUS flag word of a stand block (R189) -/

def State.statusFlags (s : State) (k : Stand) : Nat :=
  (s.seq k).frozen.toNat + 2 * (s.stripPresent k).toNat + 4 * (s.seq k).fastOpen.toNat +
    8 * (s.seq k).localReq.toNat + 16 * (s.gap k).locked.toNat + 32 * (s.gap k).stale.toNat +
    64 * (s.gap k).gmSat.toNat + 128 * (s.gap k).limited.toNat + 256 * (s.gap k).slewing.toNat +
    512 * (s.gap k).timer.isSome.toNat

end Sys2Proof.Machine
end

