-- ==== Sys2Proof/Machine/Operands.lean ====
section
/-! DEFINITION. The operand forms of the requests: the records they carry, read from their body bytes, checked
against their ranges, and written back in the same layout for the replies (R178, R4, R6, R23, R183). -/

namespace Sys2Proof.Machine

/-- The number of the first check that fails, in the order listed. -/
def firstFail (checks : List (Nat × Bool)) : Option Nat := (checks.find? fun c => !c.2).map Prod.fst

def inInt (lo hi x : Int) : Bool := decide (lo ≤ x ∧ x ≤ hi)

def inNat (lo hi x : Nat) : Bool := decide (lo ≤ x ∧ x ≤ hi)

/-! ## The stand record (R4) -/

/-- The range of a gap (Conventions, Units and Ranges). -/
def gapInRange (x : Int) : Bool := inInt (-10000) 80000 x

/-- The range checks of fields 2 to 27 of a stand record, by field number (R4). -/
def StandRecord.checks (r : StandRecord) : List (Nat × Bool) :=
  [(2, gapInRange r.sMin), (3, gapInRange r.sMax), (4, gapInRange r.sPreset), (5, gapInRange r.sOpen),
   (6, inInt (-5000) 5000 r.z), (7, inNat 1000 10000 r.m), (8, inNat 1024 4096 r.c), (9, inNat 0 256 r.kgm),
   (10, inNat 0 256 r.kff), (11, inNat 0 255 r.db), (12, inNat 1 2000 r.r), (13, inNat 0 2000 r.trimMax),
   (14, inNat 0 60000 r.fMax), (15, inNat 1 8 r.pF), (16, inNat 1 5000 r.w), (17, inNat 1 8 r.pW),
   (18, inNat 2 50 r.tCtl), (19, inNat 0 65000 r.hTgt), (20, inNat 100 10000 r.lSeg), (21, inNat 1000 1000000 r.e),
   (22, inNat 1 8 r.lockDelay), (23, inNat 100 20000 r.tConf), (24, inNat 0 256 r.ms), (25, inNat 0 5000 r.iLim),
   (26, inNat 0 50 r.tNo), (27, inNat 0 200 r.tEq)]

/-- Every field of a stand record is in its range (R4). -/
def StandRecord.inRange (r : StandRecord) : Bool := r.checks.all Prod.snd

/-- The 52 bytes of a stand record (R178). -/
def encStand (r : StandRecord) : List Byte :=
  enc8 (outCode r.outCode) ++ encS24 r.sMin ++ encS24 r.sMax ++ encS24 r.sPreset ++ encS24 r.sOpen ++ encS16 r.z ++
    enc16 r.m ++ enc16 r.c ++ enc16 r.kgm ++ enc16 r.kff ++ enc8 r.db ++ enc16 r.r ++ enc16 r.trimMax ++
    enc16 r.fMax ++ enc8 r.pF ++ enc16 r.w ++ enc8 r.pW ++ enc8 r.tCtl ++ enc16 r.hTgt ++ enc16 r.lSeg ++
    enc32 r.e ++ enc8 r.lockDelay ++ enc16 r.tConf ++ enc16 r.ms ++ enc16 r.iLim ++ enc8 r.tNo ++ enc8 r.tEq

/-- The stand record that the 52 bytes from index `o` of a body spell. -/
def rdStand (body : List Byte) (o : Nat) : StandRecord :=
  { outCode := outOfCode (rd8 body o), sMin := rdS24 body (o + 1), sMax := rdS24 body (o + 4),
    sPreset := rdS24 body (o + 7), sOpen := rdS24 body (o + 10), z := rdS16 body (o + 13), m := rd16 body (o + 15),
    c := rd16 body (o + 17), kgm := rd16 body (o + 19), kff := rd16 body (o + 21), db := rd8 body (o + 23),
    r := rd16 body (o + 24), trimMax := rd16 body (o + 26), fMax := rd16 body (o + 28), pF := rd8 body (o + 30),
    w := rd16 body (o + 31), pW := rd8 body (o + 33), tCtl := rd8 body (o + 34), hTgt := rd16 body (o + 35),
    lSeg := rd16 body (o + 37), e := rd32 body (o + 39), lockDelay := rd8 body (o + 43),
    tConf := rd16 body (o + 44), ms := rd16 body (o + 46), iLim := rd16 body (o + 48), tNo := rd8 body (o + 50),
    tEq := rd8 body (o + 51) }

/-- The lowest-numbered field out of range of the stand record at index `o` of a body (R8). -/
def standBadField (body : List Byte) (o : Nat) : Option Nat :=
  firstFail ((1, inNat 0 2 (rd8 body o)) :: (rdStand body o).checks)

/-- The gap ordering that COMMIT checks: the field it names when it fails (R12, steps 3 to 5). -/
def StandRecord.orderFault (r : StandRecord) : Option Nat :=
  if ¬ r.sMin ≤ r.sPreset then some 4
  else if ¬ r.sPreset ≤ r.sMax then some 3
  else if ¬ r.sMax ≤ r.sOpen then some 5
  else none

/-! ## The mill record (R6) -/

/-- Whether a list of position numbers is strictly ascending, each 1 to 8. -/
def ascending (l : List Nat) : Bool := l.all (inNat 1 8) && decide (l.Pairwise (· < ·))

/-- The position numbers of the active set in a LOAD_MILL body: as many as its count byte says. -/
def rdPositions (body : List Byte) : List Nat := ((body.drop 1).take (min (rd8 body 0) 8)).map (·.toNat)

/-- One span table entry of a LOAD_MILL body. -/
def rdSpan (body : List Byte) (i : Fin 7) : SpanEntry :=
  { n := rd8 body (9 + 3 * i.val), t := rd8 body (10 + 3 * i.val), h := rd8 body (11 + 3 * i.val) }

/-- A span table entry in its ranges (R6). -/
def SpanEntry.inRange (e : SpanEntry) : Bool := inNat 1 20 e.n && inNat 1 4 e.t && inNat 1 4 e.h

/-- The mill record that a LOAD_MILL body spells. -/
def rdMill (body : List Byte) : MillRecord :=
  { activeSet := (rdPositions body).filterMap standOfPos
    spanTable := vtab (rdSpan body)
    nX := rd8 body 30
    hEntry := rd16 body 31
    entrySource := srcOfCode (rd8 body 33)
    km := rd16 body 34
    mdb := rd8 body 36
    nHold := rd8 body 37 }

/-- The lowest-numbered failing field of a LOAD_MILL body (R9). -/
def millBadField (body : List Byte) : Option Nat :=
  firstFail
    [(1, inNat 1 8 (rd8 body 0) && ascending (rdPositions body)),
     (2, (List.finRange 7).all fun i => (rdSpan body i).inRange),
     (3, inNat 1 20 (rd8 body 30)), (4, inNat 0 65000 (rd16 body 31)), (5, inNat 0 1 (rd8 body 33)),
     (6, inNat 0 256 (rd16 body 34)), (7, inNat 0 255 (rd8 body 36)), (8, inNat 0 24 (rd8 body 37))]

/-- The position of the first span table entry out of range, or 0 (R9). Of several the lowest is named (DEDUCED, log 23). -/
def millBadSpan (body : List Byte) : Nat :=
  match (List.finRange 7).find? fun i => !(rdSpan body i).inRange with
  | some i => i.val + 2
  | none => 0

/-- Every field of a mill record is in its range (R6). -/
def MillRecord.inRange (m : MillRecord) : Bool :=
  !m.activeSet.isEmpty && decide (m.activeSet.Pairwise (· < ·)) &&
    (List.finRange 7).all (fun i => (vget m.spanTable i).inRange) && inNat 1 20 m.nX && inNat 0 65000 m.hEntry &&
    inNat 0 256 m.km && inNat 0 255 m.mdb && inNat 0 24 m.nHold

/-- A span table entry in bytes. -/
def encSpan (e : SpanEntry) : List Byte := enc8 e.n ++ enc8 e.t ++ enc8 e.h

/-- The 38 bytes of a mill record. The positions beyond the count are the bytes `unused` (their value is not stated
for a reply, log 9; a LOAD_MILL ignores them, R178). -/
def encMill (m : MillRecord) (unused : Nat → Byte) : List Byte :=
  enc8 m.activeSet.length ++
    (m.activeSet.map fun k => BitVec.ofNat 8 (Stand.pos k)) ++
    ((List.range (8 - m.activeSet.length)).map unused) ++
    ((List.finRange 7).map fun i => encSpan (vget m.spanTable i)).flatten ++
    enc8 m.nX ++ enc16 m.hEntry ++ enc8 (srcCode m.entrySource) ++ enc16 m.km ++ enc8 m.mdb ++ enc8 m.nHold

/-! ## The acceptance entry (R23) -/

/-- The 7 bytes of an acceptance entry. -/
def encEntry (e : AcceptEntry) : List Byte :=
  encFlag e.enabled ++ enc16 e.tag.toNat ++ enc16 e.mask.toNat ++ enc8 e.quantity ++ enc8 e.channel.val

/-- The acceptance entry that 7 bytes of a body spell. -/
def rdEntry (body : List Byte) (o : Nat) : AcceptEntry :=
  { enabled := rd8 body o == 1, tag := BitVec.ofNat 12 (rd16 body (o + 1)),
    mask := BitVec.ofNat 12 (rd16 body (o + 3)), quantity := rd8 body (o + 5),
    channel := Fin.ofNat 32 (rd8 body (o + 6)) }

/-- The lowest-numbered field out of range of the entry at index `o` (R25). -/
def entryBadField (body : List Byte) (o : Nat) : Option Nat :=
  firstFail
    [(1, inNat 0 1 (rd8 body o)), (2, inNat 0 4095 (rd16 body (o + 1))), (3, inNat 0 4095 (rd16 body (o + 3))),
     (4, inNat 0 14 (rd8 body (o + 5))), (5, inNat 0 31 (rd8 body (o + 6)))]

/-! ## The periodic stream (R182, R183) -/

/-- The counted channel numbers of the stream at index `o` of a SET_REPORTS body. -/
def rdStreamChans (body : List Byte) (o : Nat) : List Nat :=
  ((body.drop (o + 2)).take (min (rd8 body (o + 1)) 8)).map (·.toNat)

/-- The stream at index `o`, its period clamped to 10 to 10,000 ms and its timer started or stopped (R182, R183). -/
def rdStream (body : List Byte) (o : Nat) : Stream :=
  let enabled := rd8 body o == 1
  let period := min (max (rd16 body (o + 10)) 10) 10000
  { enabled := enabled, chans := (rdStreamChans body o).map (Fin.ofNat 32), period := period,
    timer := if enabled then some period else none }

/-- The first failing item of the stream at index `o`: 1 the enabled flag, 2 the count, 2 + n the channel at place
n (R183). -/
def streamBadField (body : List Byte) (o : Nat) : Option Nat :=
  firstFail
    ((1, inNat 0 1 (rd8 body o)) :: (2, inNat 1 8 (rd8 body (o + 1))) ::
      (rdStreamChans body o).mapIdx fun i c => (3 + i, inNat 0 31 c))

/-- Whether the stream at index `o` has a period that is clamped (R183). -/
def streamClamped (body : List Byte) (o : Nat) : Bool := !inNat 10 10000 (rd16 body (o + 10))

/-- The 12 bytes of a stream; the places beyond the count are the bytes `unused` (log 9). -/
def encStream (t : Stream) (unused : Nat → Byte) : List Byte :=
  encFlag t.enabled ++ enc8 t.chans.length ++ (t.chans.map fun c => BitVec.ofNat 8 c.val) ++
    ((List.range (8 - t.chans.length)).map unused) ++ enc16 t.period

/-! ## The records that replies carry (R178) -/

/-- An absent 16-bit thickness is 65,535. -/
def encThickness (h : Option Nat) : List Byte := enc16 (h.getD 65535)

/-- An absent dev is −8,388,608. -/
def encDev (d : Option Int) : List Byte := encS24 (d.getD (-8388608))

/-- A stand position, 0 where absent. -/
def encPosition (k : Option Stand) : List Byte := enc8 (k.elim 0 Stand.pos)

/-- The segment flags byte (R188). -/
def SegFlags.byte (f : SegFlags) : Nat :=
  f.thread.toNat + 2 * f.limited.toNat + 4 * f.trip.toNat + 8 * f.lost.toNat + 16 * f.discarded.toNat

/-- The 19 bytes of a segment record (R191). -/
def encSegment (g : Segment) : List Byte :=
  enc16 g.coil ++ enc16 g.seg ++ enc16 g.entryH ++ enc8 (srcCode g.entrySrc) ++ encPosition g.lastStand ++
    encThickness g.estH ++ encDev g.dev ++ encS24 g.gapRef ++ encThickness g.measH ++ enc8 g.flags.byte

/-- The 13 bytes of a trip record, in the field order of R153 (R191). -/
def encTrip (r : TripRecord) : List Byte :=
  enc8 r.key.num ++ enc8 (recCode (some r.state)) ++ enc8 (actionCode r.action) ++ encStamp r ++ enc8 r.occ ++
    encFlag r.firstOut

/-- The 12 bytes of a channel record (R34, R178). The remaining time is 0 for a channel that is not FRESH. -/
def encChannel (c : Channel) (timeout : Nat) : List Byte :=
  encS24 c.value ++ encS24 c.prev ++ enc8 (chanCode c.state) ++ encFlag c.warn ++
    enc8 (c.lastSeq.elim 255 (·.toNat)) ++ enc8 (c.hit.elim 255 (·.val)) ++ enc8 timeout ++
    enc8 (if c.state = .fresh then c.remaining else 0)

end Sys2Proof.Machine
end

