-- ==== Sys2Proof/Machine/Ops.lean ====
section
/-! DEFINITION. The named operations that every step is made of: updates of one record, the report queue (R179), the
setpoint slots and the field-out arbiter (R36 to R39). -/

namespace Sys2Proof.Machine

/-! ## Events and a held reset -/

/-- A reset is held (R193). -/
def State.inReset (s : State) : Bool := s.resets.supply || s.resets.pin

/-- An event of the part: what it makes of the state, and nothing while a reset is held, since a held reset holds every block
at its power-on value (R193, log 20). -/
def event (f : State → State) (s : State) : Host.Outcome State Fault Refusal := .next (if s.inReset then s else f s)

/-! ## Updates of one record -/

def State.modSeq (s : State) (k : Stand) (f : SeqRecord → SeqRecord) : State :=
  { s with ssq := vset s.ssq k (f (s.seq k)) }

def State.modGap (s : State) (k : Stand) (f : GapRecord → GapRecord) : State :=
  { s with gce := vset s.gce k (f (s.gap k)) }

/-- The same change made to the gap records of all eight stands. -/
def State.modGaps (s : State) (f : Stand → GapRecord → GapRecord) : State :=
  { s with gce := vtab fun k => f k (s.gap k) }

def State.modChan (s : State) (c : Chan) (f : Channel → Channel) : State :=
  { s with mch := vset s.mch c (f (s.chan c)) }

def State.modPresence (s : State) (k : Stand) (f : Presence → Presence) : State :=
  { s with plu := { s.plu with pres := vset s.plu.pres k (f (s.presence k)) } }

def State.withStk (s : State) (t : Tracker) : State := { s with stk := t }
def State.withHlk (s : State) (h : HostLink) : State := { s with hlk := h }
def State.withFlc (s : State) (f : FieldLine) : State := { s with flc := f }
def State.withTmx (s : State) (t : TripMatrix) : State := { s with tmx := t }
def State.withSch (s : State) (c : ScheduleStore) : State := { s with sch := c }
def State.withPlu (s : State) (p : PresenceUnit) : State := { s with plu := p }

/-- A change made for each of the eight stands in ascending position. -/
def eachStand (f : Stand → State → State) (s : State) : State := allStands.foldl (fun s k => f k s) s

/-! ## The report queue (R179, R181) -/

/-- The content a queued notice takes at an update: the event's content, SEGMENT_RETIRED counting the retirements it
gathers (R179, R180). -/
def coalesce (old new : NoticeBody) : NoticeBody :=
  match old, new with
  | .segmentRetired _ gathered, .segmentRetired seg _ => .segmentRetired seg (satSucc 65535 gathered)
  | _, b => b

/-- An update taken by the queue, its kind being enabled (R179). -/
def enterNotice (q : List Notice) (b : NoticeBody) : List Notice :=
  if q.any fun n => n.body.source == b.source then
    q.map fun n =>
      if n.body.source == b.source then { body := coalesce n.body b, occ := satSucc 255 n.occ } else n
  else q ++ [{ body := b, occ := 1 }]

/-- The kind of a source is enabled in the kind mask (R181). -/
def kindEnabled (mask : BitVec 6) (src : NoticeSource) : Bool := mask.getLsb src.kindIx

/-- An update of a notice (R179). -/
def updateNotice (b : NoticeBody) (s : State) : State :=
  if kindEnabled s.hlk.mask b.source then s.withHlk { s.hlk with queue := enterNotice s.hlk.queue b } else s

/-- The update of a stand's STAND_STATE notice (R114, R180). -/
def standNotice (k : Stand) (s : State) : State :=
  updateNotice (.standState k (s.seq k).state (s.seq k).frozen (s.stripPresent k)) s

/-- The update of the MILL_STATE notice (R65, R180). -/
def millNotice (s : State) : State :=
  updateNotice (.millState s.stk.mill s.stk.coil s.sch.active.serial) s

/-! ## Setpoints and field-out (R36 to R39, R89) -/

/-- The setpoint of a stand begins transmission: its frame is built with the tag and the transmit sequence, which then
advances, its slot is left empty, and its mode and gap become the stand's last sent and, but for OPEN, the gap its
window reference (R38, R39, R89). -/
def startSetpoint (k : Stand) (p : Setpoint) (s : State) : State :=
  let frame : SetpointFrame :=
    { stand := k, tag := vget s.sch.config.tags k, seq := vget s.flc.seqs k, setpoint := p }
  let s := s.withFlc { s.flc with
    slots := vset s.flc.slots k none
    tx := some frame
    seqs := vset s.flc.seqs k (vget s.flc.seqs k + 1) }
  s.modGap k fun g =>
    { g with lastSent := some p, windowRef := if p.mode = .open_ then g.windowRef else some p.gap }

/-- The transmit slot of a stand is emptied (R37). -/
def emptySlot (k : Stand) (s : State) : State := s.withFlc { s.flc with slots := vset s.flc.slots k none }

/-- A setpoint produced for a stand: its gap becomes S_ref (R90), and it is discarded with the slot emptied while the
tag is 0, and else placed in the slot, where it begins transmission at once if the line is idle (R36, R38). -/
def produce (k : Stand) (mode : Mode) (ref : Int) (s : State) : State :=
  let s := s.modGap k fun g => { g with sRef := ref }
  if vget s.sch.config.tags k = 0 then emptySlot k s
  else
    let p : Setpoint := { mode := mode, gap := ref }
    match s.flc.tx with
    | none => startSetpoint k p s
    | some _ => s.withFlc { s.flc with slots := vset s.flc.slots k (some p) }

/-- The lowest-numbered stand whose slot holds a setpoint, with that setpoint (R38). -/
def pendingSlot (f : FieldLine) : Option (Stand × Setpoint) :=
  allStands.findSome? fun k => (vget f.slots k).map fun p => (k, p)

/-- The line takes the next setpoint at the end of a transmission, or goes idle (R38). -/
def nextSetpoint (s : State) : State :=
  match pendingSlot s.flc with
  | some (k, p) => startSetpoint k p s
  | none => s.withFlc { s.flc with tx := none }

/-- The slew base of a stand: the gap of its last sent, or S_ref while that is none (R89). -/
def GapRecord.slewBase (g : GapRecord) : Int := g.lastSent.elim g.sRef (·.gap)

end Sys2Proof.Machine
end

