-- ==== Sys2Proof/Machine/Stands.lean ====
section
/-! DEFINITION. The shared operations of the stand sequencer: the FAST_OPEN demand (R125), entering a state (R122,
R126), the frozen attribute (R115), the ending of a handover (R131, R132), the window test (R120). -/

namespace Sys2Proof.Machine

/-- The FAST_OPEN demand of a stand, by its state (R125). -/
def fastOpenDemand (st : StandState) (millStop : Bool) : Bool :=
  match st with
  | .tripped => true
  | .out => millStop
  | .local_ => millStop
  | .handover => millStop
  | .setup => false
  | .ready => false
  | .thread => false
  | .roll => false
  | .tail => false

/-- What an evaluation of the FAST_OPEN demand makes of a sequencer record. The demand was true before exactly when
the output is asserted or the non-overlap interval runs (R125). -/
def SeqRecord.evalDemand (q : SeqRecord) (millStop : Bool) (tNo : Nat) : SeqRecord :=
  let was := q.fastOpen || q.nonOverlap.isSome
  if fastOpenDemand q.state millStop then
    if was then q
    else if tNo = 0 then { q with fastOpen := true }
    else { q with nonOverlap := some tNo }
  else { q with fastOpen := false, nonOverlap := none }

/-- The FAST_OPEN demand of a stand is evaluated; t_no is 0 for a stand without a record (R3, R125). -/
def evalDemand (k : Stand) (s : State) : State :=
  s.modSeq k fun q => q.evalDemand s.millStopExists ((s.record k).elim 0 (·.tNo))

/-- Whether the equalize timer may run in a state (R126). -/
def equalizeRuns : StandState → Bool
  | .setup => true
  | .ready => true
  | .out => false
  | .thread => false
  | .roll => false
  | .tail => false
  | .tripped => false
  | .handover => false
  | .local_ => false

/-- A stand takes a state other than TRIPPED: the equalize timer stops unless the state lets it run (R126), and the
FAST_OPEN demand is evaluated (R125). -/
def setStandState (k : Stand) (st : StandState) (s : State) : State :=
  evalDemand k (s.modSeq k fun q => { q with state := st, equalize := if equalizeRuns st then q.equalize else none })

/-- `setStandState` with the update of the STAND_STATE notice (R114). -/
def placeStand (k : Stand) (st : StandState) (s : State) : State := standNotice k (setStandState k st s)

/-- The entry effects of TRIPPED, steps 1 to 5 of R122. -/
def tripStand (k : Stand) (s : State) : State :=
  let wasThread := (s.seq k).state = .thread
  let s := s.modSeq k fun q => { q with state := .tripped, equalize := none }
  let s := match s.record k with
    | some r => produce k .open_ r.sOpen s
    | none => s
  let s := if wasThread then s.modGap k fun g => { g with lockCount := 0 } else s
  evalDemand k s

/-- The entry into TRIPPED with its notice (R122). -/
def enterTripped (k : Stand) (s : State) : State := standNotice k (tripStand k s)

/-- A stand takes a state, TRIPPED with its entry effects; no notice. -/
def enterState (k : Stand) (st : StandState) (s : State) : State :=
  if st = .tripped then tripStand k s else setStandState k st s

/-- The frozen attribute of a stand follows the FREEZE records that cover it; a change updates the STAND_STATE notice
(R114, R115). -/
def evalFrozen (k : Stand) (s : State) : State :=
  if (s.seq k).frozen = s.freezeCover k then s
  else standNotice k (s.modSeq k fun q => { q with frozen := s.freezeCover k })

/-! ## Handover -/

/-- Where a TO_LOCAL handover that ends without confirmation returns its stand (R132). -/
def returnState (prior : StandState) (inSet cover : Bool) : StandState :=
  if prior = .tripped then .tripped
  else if !inSet then .out
  else if cover then .tripped
  else if prior = .out then .setup
  else prior

/-- Where a completed TO_COORD handover places its stand (R131). -/
def coordState (inSet cover : Bool) : StandState :=
  if !inSet then .out else if cover then .tripped else .setup

/-- Where a pending handover leaves its stand when it ends without confirmation or completion (R131, R132). -/
def unconfirmedState (h : Handover) (inSet cover : Bool) : StandState :=
  match h.dir with
  | .toLocal => returnState (h.prior.getD .out) inSet cover
  | .toCoord => .local_

/-- The end of a handover up to its notices: LOCAL_REQ deasserted, the handover record removed, the new state entered
(R131). -/
def leaveHandover (k : Stand) (st : StandState) (s : State) : State :=
  enterState k st (s.modSeq k fun q => { q with handover := none, localReq := false })

/-- The end of a handover with both its notices (R131). -/
def endHandover (k : Stand) (dir : Direction) (st : StandState) (result : HandoverResult) (s : State) : State :=
  updateNotice (.handoverDone k dir result) (standNotice k (leaveHandover k st s))

/-- The creation of an OPEN-class record taken for a stand in HANDOVER (R133). -/
def abortHandover (k : Stand) (s : State) : State :=
  match (s.seq k).handover with
  | some h => endHandover k h.dir (unconfirmedState h (s.inSet k) true) .abortedTrip s
  | none => s

/-- The creation of an OPEN-class record taken for one stand it covers (R122). -/
def openCreationAt (k : Stand) (s : State) : State :=
  match (s.seq k).state with
  | .setup => enterTripped k s
  | .ready => enterTripped k s
  | .thread => enterTripped k s
  | .roll => enterTripped k s
  | .tail => enterTripped k s
  | .handover => abortHandover k s
  | .tripped => s
  | .out => s
  | .local_ => s

/-! ## The window test (R120) -/

/-- The three conditions of the window test. -/
def windowTestPasses (k : Stand) (s : State) : Bool :=
  match s.record k with
  | some r =>
    (s.gap k).sRef == r.sPreset && (s.chan (gapCh k)).state == .fresh &&
      inInt (r.sPreset - r.w) (r.sPreset + r.w) (s.chan (gapCh k)).value
  | none => false

/-- The window test of a stand in SETUP, which moves it to READY when it passes. -/
def windowTest (k : Stand) (s : State) : State :=
  if (s.seq k).state = .setup ∧ windowTestPasses k s then placeStand k .ready s else s

end Sys2Proof.Machine
end

