-- ==== Sys2Proof/Machine/Trips.lean ====
section
/-! DEFINITION. The trip table: changes of a record, the gone of a key and the removal of a record (R155 to R157), the
scopes of the conditions (R139 to R149), and the hand-over of a creation to the sequencer (R115, R157). Raising a key
stands in Machine/Raise.lean, behind the mill-empty event that a creation can bring about. -/

namespace Sys2Proof.Machine

/-- The records of one key replaced by what `f` makes of them (the table holds at most one). -/
def State.modRecord (s : State) (key : Key) (f : TripRecord → TripRecord) : State :=
  s.withTmx { s.tmx with table := s.tmx.table.map fun r => if r.key == key then f r else r }

/-- The update of a key's TRIP notice with its record as it stands (R160). -/
def tripNotice (key : Key) (s : State) : State :=
  match s.recordOf key with
  | some r => updateNotice (.trip r (some r.state)) s
  | none => s

/-- The mill stop line is evaluated (R162). -/
def evalStopLine (s : State) : State := s.withTmx { s.tmx with stopLine := s.millStopExists }

/-- The removal of a record, handed on in R157's order: the stop line, the frozen attributes and FAST_OPEN demands, the
TRIP notice with REMOVED. -/
def removeRecord (r : TripRecord) (s : State) : State :=
  let s := s.withTmx { s.tmx with table := s.tmx.table.filter fun q => !(q.key == r.key) }
  let s := evalStopLine s
  let s := eachStand evalFrozen s
  let s := eachStand evalDemand s
  updateNotice (.trip r none) s

/-- The gone of a key (R155). -/
def goneKey (key : Key) (s : State) : State :=
  match s.recordOf key with
  | some r =>
    match r.state with
    | .raised => tripNotice key (s.modRecord key fun r => { r with state := .held })
    | .acked => removeRecord r s
    | .held => s
  | none => s

/-! ## Scopes (R139) -/

/-- The stands of a span both roll: the scope of LOOP_GROW and LOOP_PULL (R147). -/
def loopScope (k : Stand) (s : State) : Bool :=
  s.inSet k && !s.isFirst k && (s.seq k).state == .roll &&
    (s.prevActive k).elim false fun j => (s.seq j).state == .roll

/-- Whether the scope of a key's condition holds; a condition without a scope always does (R140, R142 to R149). -/
def scopeHolds (s : State) : Key → Bool
  | .resetStop => true
  | .hostStop => true
  | .stopInput _ => true
  | .exitStale => s.stk.mill.running
  | .stand .forceHigh k => (s.seq k).state.inPass
  | .stand .gapWindow k =>
    (s.seq k).state.inPass && (s.gap k).windowRef.isSome && (s.gap k).lastSent.elim true fun p => p.mode != .open_
  | .stand .sampleStale k => (s.seq k).state.threaded
  | .stand .driveFault _ => true
  | .stand .headOverdue k =>
    s.inSet k && !s.isFirst k && (s.seq k).state == .ready && !s.stripPresent k
  | .stand .loopGrow k => loopScope k s
  | .stand .loopPull k => loopScope k s
  | .stand .unready _ => true

/-- The persistence counters whose scope does not hold are 0 (R141). -/
def clearCounters (s : State) : State :=
  s.withTmx { s.tmx with
    forceCnt := vtab fun k => if scopeHolds s (.stand .forceHigh k) then vget s.tmx.forceCnt k else 0
    gapCnt := vtab fun k => if scopeHolds s (.stand .gapWindow k) then vget s.tmx.gapCnt k else 0 }

/-- A present key whose scope has ceased to hold is gone (R139). -/
def goneOutOfScope (key : Key) (s : State) : State :=
  if s.present key && !scopeHolds s key then goneKey key s else s

/-- The trip matrix takes the changes that the sequencer, the tracker or field-out has made: every present key out of
scope is gone, in table order (log 11), and its counter is 0 (R139). -/
def evalScopes (s : State) : State :=
  let s := clearCounters s
  (s.tmx.table.map (·.key)).foldl (fun s key => goneOutOfScope key s) s

/-! ## The hand-over of a creation (R115, R157) -/

/-- Steps 1 and 2 of R157 for a creation: the stop line is evaluated, the covered stands take an OPEN-class record in
ascending position (log 18), the frozen attributes are set and every FAST_OPEN demand is evaluated. -/
def handCreation (r : TripRecord) (s : State) : State :=
  let s := evalStopLine s
  let s := if r.action.openClass then eachStand (fun k s => if r.covers k then openCreationAt k s else s) s else s
  let s := eachStand evalFrozen s
  eachStand evalDemand s

end Sys2Proof.Machine
end

