-- ==== Sys2Proof/Machine/Swap.lean ====
section
/-! DEFINITION. The bank swap (R15, R16, R86, R113, R165), changes of the mill state (R65, R149) and the mill-empty
event (R79, R80). -/

namespace Sys2Proof.Machine

/-- Where the swap and the soft reset place a stand that is not LOCAL, HANDOVER or TRIPPED (R16, R137). -/
def placement (inSet cover : Bool) : StandState := if !inSet then .out else if cover then .tripped else .setup

/-- A stand takes its place if that is a change of state; the notice is the caller's (R16). -/
def placeIfChanged (k : Stand) (st : StandState) (s : State) : State :=
  if (s.seq k).state = st then s else enterState k st s

/-- A pending TO_LOCAL handover of prior state READY takes SETUP as its prior state at a swap (R16, R132). -/
def swapHandover (h : Handover) : Handover :=
  if h.dir = .toLocal ∧ h.prior = some .ready then { h with prior := some .setup } else h

/-- The placement of one stand at a swap, with its notice where its state changes (R16). -/
def placeAtSwap (k : Stand) (s : State) : State :=
  match (s.seq k).state with
  | .handover => s.modSeq k fun q => { q with handover := q.handover.map swapHandover }
  | .local_ => s
  | .tripped => s
  | _ =>
    let st := placement (s.inSet k) (s.openCover k)
    if (s.seq k).state = st then s else standNotice k (enterState k st s)

/-- The transmit slots after a swap: emptied for a position without a record (R3), and rid of a waiting PRESET or
TRACK (R113). -/
def swapSlot (record : Option StandRecord) (slot : Option Setpoint) : Option Setpoint :=
  match record, slot with
  | some _, some p => if p.mode = .preset ∨ p.mode = .track then none else some p
  | _, _ => none

/-- The bank swap (R15). The scopes are evaluated when the stands have been placed (R165). -/
def swapBank (s : State) : State :=
  let p := s.sch.pendingBank
  let s := s.withSch { s.sch with
    active := { state := .valid, bank := p.bank, serial := p.serial }
    pendingBank := PendingBank.none }
  let s := s.modGaps fun k g =>
    { g with trim := 0, integ := 0, timer := (s.record k).map (·.tCtl) }
  let s := s.withPlu { s.plu with acc := Vector.replicate 8 0 }
  let s := s.withFlc { s.flc with slots := vtab fun k => swapSlot (s.record k) (vget s.flc.slots k) }
  let s := s.withTmx { s.tmx with forceCnt := Vector.replicate 8 0, gapCnt := Vector.replicate 8 0 }
  let s := s.withStk { s.stk with hold := 0 }
  let s := eachStand placeAtSwap s
  let s := evalScopes s
  millNotice s

/-- A change of the mill state with its MILL_STATE notice (R65); EXIT_STALE goes with the entry into ARMED or IDLE
(R149). -/
def setMill (m : MillState) (s : State) : State := evalScopes (millNotice (s.withStk { s.stk with mill := m }))

/-- No segment is held in a bite slot or span queue. -/
def Tracker.noSegments (t : Tracker) : Bool :=
  (allStands.all fun k => (vget t.bites k).isNone) && allStands.all fun j => (vget t.spans j).isEmpty

/-- The conditions of R79. -/
def State.millIsEmpty (s : State) : Bool :=
  s.stk.mill == .tailout && s.stk.noSegments && s.activeSet.all fun k => !(s.seq k).state.rolling

/-- A stand still in TAIL at mill empty goes to SETUP (R80, R119). -/
def tailToSetup (k : Stand) (s : State) : State :=
  if (s.seq k).state = .tail then placeStand k .setup s else s

/-- The mill state that a mill-empty event leaves (R80, step 4). -/
def stateAfterEmpty (s : State) : MillState :=
  if s.activeSet.any fun k => (s.seq k).state.away then .idle else .armed

/-- The mill-empty event (R80). Several stands in TAIL go to SETUP in ascending position, which no rule makes their order
(DESIGN CHOICE, log 18). -/
def millEmpty (s : State) : State :=
  let s := if s.sch.pendingBank.state = .committed then swapBank s else s
  let s := evalScopes (eachStand tailToSetup s)
  let s := s.withStk { s.stk with tailMarks := Vector.replicate 8 false }
  setMill (stateAfterEmpty s) s

/-- The mill-empty test (R79). -/
def millEmptyTest (s : State) : State := if s.millIsEmpty then millEmpty s else s

end Sys2Proof.Machine
end

