-- ==== Sys2Proof/Machine/Raise.lean ====
section
/-! DEFINITION. Raising a key (R154, R157). -/

namespace Sys2Proof.Machine

/-- The record that a creation puts into the table (R153, R154). -/
def newRecord (key : Key) (s : State) : TripRecord :=
  { key := key, state := .raised, action := vget s.sch.config.actions key.row, stampMs := s.ms,
    stampCoil := s.stk.coil, stampSeg := s.stk.lastAlloc, occ := 1, firstOut := s.tmx.table.isEmpty }

/-- Whether a stand of the active set has left THREAD or ROLL between two states. -/
def leftRolling (before after : State) : Bool :=
  after.activeSet.any fun k => (before.seq k).state.rolling && !(after.seq k).state.rolling

/-- The creation of a record, handed on in R157's order. When stands of the active set have left THREAD or ROLL the
tracker tests for mill empty (R79, R115); inside a tracker event that test is the one at the event's end (log 12). -/
def createRecord (inTracker : Bool) (key : Key) (s : State) : State :=
  let r := newRecord key s
  let s0 := s.withTmx { s.tmx with table := s.tmx.table ++ [r] }
  let s1 := handCreation r s0
  let s2 := if !inTracker && leftRolling s0 s1 then millEmptyTest s1 else s1
  evalScopes (tripNotice key s2)

/-- The raise of a key (R154). A key already present is not raised. -/
def raiseKey (inTracker : Bool) (key : Key) (s : State) : State :=
  match s.recordOf key with
  | none => createRecord inTracker key s
  | some r =>
    match r.state with
    | .held => tripNotice key (s.modRecord key fun r => { r with state := .raised, occ := satSucc 255 r.occ })
    | .raised => s
    | .acked => s

/-- A momentary condition: raised and gone within one event (R138). -/
def pulseKey (key : Key) (s : State) : State := goneKey key (raiseKey false key s)

/-- A level condition taken outside the tracker: the key is raised when it holds and gone when it does not. -/
def levelKey (key : Key) (holds : Bool) (s : State) : State :=
  if holds then raiseKey false key s else goneKey key s

end Sys2Proof.Machine
end

