-- ==== Sys2Proof/Machine/HostLine.lean ====
section
/-! DEFINITION. The end of an event at the transmit line (R174): when the line is idle, a reply in the slot begins
transmission, or else the oldest notice does. Taking a held request (R171) needs the requests themselves, and so the
taking is an argument here. -/

namespace Sys2Proof.Machine

/-- A reply leaves the slot at the start of its transmission; a held request is then taken by `take` (R171, R174). -/
def startReply (take : HostFrame → State → State) (reply : HostFrame) (s : State) : State :=
  let s := s.withHlk { s.hlk with slot := none, tx := some reply }
  match s.hlk.held with
  | some q => take q (s.withHlk { s.hlk with held := none })
  | none => s

/-- The transmit line, where it is idle, takes the reply in the slot or else the oldest notice (R174). -/
def pumpWith (take : HostFrame → State → State) (s : State) : State :=
  match s.hlk.tx, s.hlk.slot, s.hlk.queue with
  | some _, _, _ => s
  | none, some reply, _ => startReply take reply s
  | none, none, n :: rest => s.withHlk { s.hlk with queue := rest, tx := some n.frame }
  | none, none, [] => s

end Sys2Proof.Machine
end

