-- ==== Sys2Proof/Machine/ReqConfig.lean ====
section
/-! DEFINITION. The replies (R173), and the requests to the configuration, the acceptance table, the action table, the
report queue and the AUX pins: IDENTIFY, CONFIGURE, SET_ACCEPT, READ_ACCEPT, SET_ACTIONS, SET_REPORTS, SET_AUX. A handler
takes a body and the state, and answers the state and the body of the reply. -/

namespace Sys2Proof.Machine

/-- What the taking of a request answers: the state its effects leave, and the reply's body. -/
abbrev Taken := State × List Byte

/-! ## Replies (R173) -/

/-- An OK reply with its content. -/
def okReply (content : List Byte) : List Byte := enc8 ReplyCode.ok.num ++ content

/-- A reply with OK or CLAMPED. -/
def takenReply (clamped : Bool) (content : List Byte) : List Byte :=
  enc8 (if clamped then ReplyCode.clamped.num else ReplyCode.ok.num) ++ content

/-- A refusal that carries its code alone. -/
def codeReply (c : ReplyCode) : List Byte := enc8 c.num

/-- A BAD_PARAM refusal with item, field and sub. -/
def badParam (item field sub : Nat) : List Byte := enc8 ReplyCode.badParam.num ++ enc8 item ++ enc8 field ++ enc8 sub

/-- A refused request changes nothing (R172). -/
def refuse (s : State) (reply : List Byte) : Taken := (s, reply)

/-- A request of a fixed body length (R172, step 2). -/
def withLength (n : Nat) (body : List Byte) (s : State) (taken : Taken) : Taken :=
  if body.length = n then taken else refuse s (codeReply .badLength)

/-- The unused bytes of a reply are free values (log 9); the counter moves past the 64 that a reply may use. -/
def State.freeAt (s : State) (i : Nat) : Byte := Config.freeByte (s.freeIx + i)

def State.spendFree (s : State) : State := { s with freeIx := s.freeIx + 64 }

/-- The counter moves only when a free value was used. -/
def State.spendIf (used : Bool) (s : State) : State := if used then s.spendFree else s

/-! ## IDENTIFY (R175) -/

def identifyContent (straps : BitVec 2) : List Byte :=
  enc16 0x0E08 ++ enc8 1 ++ enc8 8 ++ enc8 32 ++ enc8 24 ++ enc8 Config.spanPlaces ++ enc8 Config.ringPlaces ++
    enc8 Config.tripKeys ++ enc8 Config.queuePlaces ++ enc8 4 ++ enc8 26 ++ enc8 straps.toNat

def reqIdentify (body : List Byte) (s : State) : Taken :=
  withLength 0 body s (s, okReply (identifyContent s.hlk.straps))

/-! ## CONFIGURE (R18) -/

/-- The first item of a CONFIGURE body out of range, as item and field (R18). -/
def configureFault (body : List Byte) : Option (Nat × Nat) :=
  if !inNat 2 15 (rd8 body 0) then some (0, 1)
  else if !inNat 20 250 (rd8 body 1) then some (0, 2)
  else
    match allStands.find? fun k => !inNat 0 4095 (rd16 body (2 + 2 * k.val)) with
    | some k => some (Stand.pos k, 3)
    | none => (allChans.find? fun c => !inNat 1 255 (rd8 body (18 + c.val))).map fun c => (c.val, 4)

/-- The configuration record with every carried item replaced. -/
def configured (body : List Byte) (c : ConfigRecord) : ConfigRecord :=
  { c with
    shortCount := rd8 body 0
    longCount := rd8 body 1
    tags := vtab fun k => BitVec.ofNat 12 (rd16 body (2 + 2 * k.val))
    freshness := vtab fun c => rd8 body (18 + c.val) }

def reqConfigure (body : List Byte) (s : State) : Taken :=
  withLength 50 body s <|
    if s.stk.mill ≠ .idle then refuse s (codeReply .wrongState)
    else
      match configureFault body with
      | some (item, field) => refuse s (badParam item field 0)
      | none =>
        let config := configured body s.sch.config
        let s := s.withSch { s.sch with config := config }
        let s := s.withFlc { s.flc with
          slots := vtab fun k => if vget config.tags k = 0 then none else vget s.flc.slots k }
        (s, okReply [])

/-! ## SET_ACCEPT and READ_ACCEPT (R25, R26) -/

/-- A run of entries lies within the table. -/
def acceptRun (first count : Nat) : Bool := decide (first ≤ 23 ∧ 1 ≤ count ∧ first + count ≤ 24)

/-- The first entry of a SET_ACCEPT body with a field out of range, as entry and field (R25). -/
def acceptFault (body : List Byte) : Option (Nat × Nat) :=
  (List.range (rd8 body 1)).findSome? fun i =>
    (entryBadField body (2 + 7 * i)).map fun field => (rd8 body 0 + i, field)

/-- The acceptance table with the run of a SET_ACCEPT body replaced. -/
def acceptWritten (body : List Byte) (t : Vector AcceptEntry 24) : Vector AcceptEntry 24 :=
  vtab fun n =>
    if rd8 body 0 ≤ n.val ∧ n.val < rd8 body 0 + rd8 body 1 then rdEntry body (2 + 7 * (n.val - rd8 body 0))
    else vget t n

def reqSetAccept (body : List Byte) (s : State) : Taken :=
  if body.length < 2 ∨ body.length ≠ 2 + 7 * rd8 body 1 then refuse s (codeReply .badLength)
  else if s.stk.mill ≠ .idle then refuse s (codeReply .wrongState)
  else if !acceptRun (rd8 body 0) (rd8 body 1) then refuse s (badParam 0 0 0)
  else
    match acceptFault body with
    | some (entry, field) => refuse s (badParam entry field 0)
    | none =>
      (s.withFlc { s.flc with accept := acceptWritten body s.flc.accept },
        okReply (enc8 (rd8 body 0) ++ enc8 (rd8 body 1)))

def reqReadAccept (body : List Byte) (s : State) : Taken :=
  withLength 2 body s <|
    if !acceptRun (rd8 body 0) (rd8 body 1) then refuse s (badParam 0 0 0)
    else
      (s, okReply (enc8 (rd8 body 0) ++ enc8 (rd8 body 1) ++
        ((List.range (rd8 body 1)).map fun i =>
          encEntry (vget s.flc.accept (Fin.ofNat 24 (rd8 body 0 + i)))).flatten))

/-! ## SET_ACTIONS (R152) -/

/-- The 12 rows of the action table, in row order. -/
def actionRows (t : Vector Action 12) : List Byte := ((List.finRange 12).map fun r => enc8 (actionCode (vget t r))).flatten

/-- The row and action bytes of the items of a SET_ACTIONS body, in list order. -/
def actionItems (body : List Byte) : List (Nat × Nat) :=
  (List.range (body.length / 2)).map fun i => (rd8 body (2 * i), rd8 body (2 * i + 1))

/-- Whether the item at index `i` fails one of R152's item checks. -/
def actionItemBad (items : List (Nat × Nat)) (i : Nat) : Bool :=
  match items[i]? with
  | some (row, action) =>
    decide (11 < row) || (actionOfCode action).isNone || decide (row ≤ 2) || (items.take i).any fun p => p.1 == row
  | none => false

/-- The position, counted from 1, of the first item that fails (R152, log 15). -/
def actionsFault (items : List (Nat × Nat)) : Option Nat :=
  ((List.range items.length).find? fun i => actionItemBad items i).map (· + 1)

/-- The action table with the named rows replaced. -/
def actionsWritten (items : List (Nat × Nat)) (t : Vector Action 12) : Vector Action 12 :=
  vtab fun r =>
    match (items.find? fun p => p.1 == r.val).bind fun p => actionOfCode p.2 with
    | some a => a
    | none => vget t r

def reqSetActions (body : List Byte) (s : State) : Taken :=
  let rows := actionRows s.sch.config.actions
  if s.stk.mill ≠ .idle then refuse s (codeReply .wrongState ++ rows)
  else if body.length % 2 ≠ 0 ∨ body.length = 0 ∨ 24 < body.length then refuse s (codeReply .badLength ++ rows)
  else
    match actionsFault (actionItems body) with
    | some i => refuse s (badParam i 0 0 ++ rows)
    | none =>
      let actions := actionsWritten (actionItems body) s.sch.config.actions
      (s.withSch { s.sch with config := { s.sch.config with actions := actions } }, okReply (actionRows actions))

/-! ## SET_REPORTS (R183) -/

/-- The index in the body of a stream's 12 bytes. -/
def streamAt (i : StreamId) : Nat := 1 + 12 * i.val

/-- The first failing item of a SET_REPORTS body, as item and field (R183). -/
def reportsFault (body : List Byte) : Option (Nat × Nat) :=
  if 63 < rd8 body 0 then some (0, 1)
  else allStreams.findSome? fun i => (streamBadField body (streamAt i)).map fun field => (i.val + 1, field)

/-- The queue after a change of the kind mask and the removal of the CHANNEL_PERIODIC notices (R181, R183). -/
def maskedQueue (mask : BitVec 6) (q : List Notice) : List Notice :=
  q.filter fun n => kindEnabled mask n.body.source && decide (n.body.source.kindIx ≠ 5)

/-- The content of a SET_REPORTS reply: the mask and the streams as stored. -/
def reportsContent (s : State) : List Byte :=
  enc8 s.hlk.mask.toNat ++
    (allStreams.map fun i => encStream (vget s.hlk.streams i) fun j => s.freeAt (8 * i.val + j)).flatten

def reqSetReports (body : List Byte) (s : State) : Taken :=
  withLength 49 body s <|
    match reportsFault body with
    | some (item, field) => refuse s (badParam item field 0)
    | none =>
      let mask := BitVec.ofNat 6 (rd8 body 0)
      let clamped := allStreams.any fun i => streamClamped body (streamAt i)
      let s := s.withHlk { s.hlk with
        mask := mask
        queue := maskedQueue mask s.hlk.queue
        streams := vtab fun i => rdStream body (streamAt i) }
      (s.spendFree, takenReply clamped (reportsContent s))

/-! ## SET_AUX (R184) -/

/-- The first failing item of a SET_AUX body, as pin and field. R184 gives its checks no order; they are made in body order
(DEDUCED, log 23). -/
def auxFault (body : List Byte) : Option (Nat × Nat) :=
  if !inNat 0 3 (rd8 body 0) then some (1, 1)
  else if !inNat 0 1 (rd8 body 1) then some (1, 2)
  else if !inNat 0 3 (rd8 body 2) then some (2, 1)
  else if !inNat 0 1 (rd8 body 3) then some (2, 2)
  else none

/-- The mode and level of an AUX pin in a SET_AUX body. -/
def rdAux (body : List Byte) (i : Fin 2) : AuxPin :=
  { mode := (auxOfCode (rd8 body (2 * i.val))).getD .off, level := rd8 body (2 * i.val + 1) == 1 }

/-- A pin's mode and level as a reply repeats them. -/
def encAux (p : AuxPin) : List Byte := enc8 (auxCode p.mode) ++ encFlag p.level

def reqSetAux (body : List Byte) (s : State) : Taken :=
  withLength 4 body s <|
    match auxFault body with
    | some (pin, field) => refuse s (badParam pin field 0)
    | none =>
      let s := s.withHlk { s.hlk with aux := vtab (rdAux body) }
      (s, okReply (encAux (vget s.hlk.aux 0) ++ encAux (vget s.hlk.aux 1)))

end Sys2Proof.Machine
end

