-- ==== Sys2Proof/Machine/Tracking.lean ====
section
/-! DEFINITION. The strip tracker's events: allocation (R59, R70), the stamp (R74), pushes (R62, R76), the exit gauge and
the monitor (R77, R78, R107, R108), thread entries (R69, R71), bite advances (R72, R73), tails (R75), the end of a tracker
event (R63, R79), CLEAR_MILL (R81); and the lock-on count (R98). -/

namespace Sys2Proof.Machine

/-! ## Retirement (R64) -/

/-- The retired ring with one more record. -/
def enterRing (ring : List Segment) (g : Segment) : List Segment :=
  (if ring.length < Config.ringPlaces then ring else ring.drop 1) ++ [g]

/-- The retirement of a record, its retirement flag already set (R64). -/
def retire (g : Segment) (s : State) : State :=
  let s := s.withStk { s.stk with ring := enterRing s.stk.ring g, retired := satSucc 65535 s.stk.retired }
  updateNotice (.segmentRetired g.seg 1) s

def Segment.asLost (g : Segment) : Segment := { g with flags := { g.flags with lost := true } }
def Segment.asDiscarded (g : Segment) : Segment := { g with flags := { g.flags with discarded := true } }

/-! ## Allocation (R59, R70) -/

/-- Every segment number held in a bite slot, a span queue or the retired ring. -/
def Tracker.heldNumbers (t : Tracker) : List Nat :=
  (allStands.filterMap fun k => (vget t.bites k).map (·.seg)) ++
    (allStands.map fun j => (vget t.spans j).map (·.seg)).flatten ++ t.ring.map (·.seg)

/-- The first free number from `n` on, passing over the held ones; 233 comparisons suffice (R59). -/
def freeNumber (held : List Nat) : Nat → Nat → Nat
  | 0, n => n
  | fuel + 1, n => if held.contains n then freeNumber held fuel (succ65535 n) else n

/-- The entry thickness of a new record and its source (R70). -/
def entryThickness (s : State) : Nat × EntrySrc :=
  match s.millRec with
  | some m =>
    if m.entrySource = .gauge ∧ (s.chan 24).state = .fresh then
      ((saturate 0 65000 (s.chan 24).value).toNat, .gauge)
    else (m.hEntry, .schedule)
  | none => (0, .schedule)

/-- An allocation: a new record in the bite slot of stand `k`, the first active stand (R70). -/
def allocate (k : Stand) (s : State) : State :=
  let n := freeNumber s.stk.heldNumbers 233 s.stk.nextSeg
  let entry := entryThickness s
  let g : Segment :=
    { coil := s.stk.coil, seg := n, entryH := entry.1, entrySrc := entry.2, lastStand := none, estH := none,
      dev := none, gapRef := (s.gap k).sRef, measH := none,
      flags := { thread := false, limited := false, trip := false, lost := false, discarded := false } }
  s.withStk { s.stk with
    bites := vset s.stk.bites k (some g)
    nextSeg := succ65535 n
    lastAlloc := n
    allocated := satSucc 65535 s.stk.allocated }

/-! ## The stamp (R74) -/

/-- The record as the gap computation engine of stand `k` stamps it. -/
def stamp (k : Stand) (s : State) (g : Segment) : Segment :=
  let gap := s.gap k
  let tripped := (s.seq k).state == .tripped
  let est := if tripped || gap.stale then none else gap.hGm
  { g with
    lastStand := some k
    estH := est
    dev := if gap.locked then est.map fun h => (h : Int) - gap.hLock else none
    gapRef := gap.sRef
    flags := { g.flags with thread := !gap.locked, limited := gap.limited, trip := tripped } }

/-! ## The monitor (R78, R107, R108) -/

/-- The step of one stand's integrator (R108). -/
def monitorStep (eX : Int) (km : Nat) (r : StandRecord) (integ : Int) : Int :=
  saturate (-(r.iLim : Int)) r.iLim (integ + roundDiv (eX * km * r.ms) 65536)

/-- The stands that a monitor step reaches (R108). -/
def monitorReaches (s : State) (k : Stand) : Bool :=
  s.inSet k && (s.seq k).state == .roll && !(s.seq k).frozen && (s.record k).elim false fun r => decide (0 < r.ms)

/-- The integrators stepped on an exit error beyond the deadband (R108). -/
def stepIntegrators (eX : Int) (km : Nat) (s : State) : State :=
  s.modGaps fun k g =>
    match s.record k with
    | some r => if monitorReaches s k then { g with integ := monitorStep eX km r g.integ } else g
    | none => g

/-- The target exit thickness: that of the last active stand (R107). -/
def exitTarget (s : State) : Int := (s.lastActive.bind s.record).elim 0 fun r => (r.hTgt : Int)

/-- A record offered to the monitor, or passed over under the hold count (R78, R107). -/
def offerMonitor (meas : Option Nat) (s : State) : State :=
  match meas, s.millRec with
  | some h, some m =>
    if s.stk.hold = 0 then
      let eX := (h : Int) - exitTarget s
      if eX.natAbs ≤ m.mdb then s
      else
        let s := stepIntegrators eX m.km s
        s.withStk { s.stk with hold := m.nHold }
    else s.withStk { s.stk with hold := s.stk.hold - 1 }
  | _, _ => s

/-! ## The exit gauge (R77) -/

/-- The exit gauge measurement as channel 25 gives it. -/
def exitMeasurement (s : State) : Option Nat :=
  if (s.chan 25).state = .fresh then some (saturate 0 65000 (s.chan 25).value).toNat else none

/-- EXIT_STALE taken on an arrival (R149). -/
def takeExitStale (fresh : Bool) (s : State) : State :=
  if fresh then goneKey .exitStale s
  else if scopeHolds s .exitStale then raiseKey true .exitStale s
  else s

/-- A record, already taken out of the exit span, arrives at the exit gauge (R77). -/
def arrive (g : Segment) (s : State) : State :=
  let g := { g with measH := exitMeasurement s }
  let s := takeExitStale g.measH.isSome s
  let s := offerMonitor g.measH s
  retire g s

/-- The span queue of a number. -/
def State.span (s : State) (j : SpanId) : List Segment := vget s.stk.spans j

def State.setSpan (s : State) (j : SpanId) (q : List Segment) : State :=
  s.withStk { s.stk with spans := vset s.stk.spans j q }

def State.setBite (s : State) (k : Stand) (b : Option Segment) : State :=
  s.withStk { s.stk with bites := vset s.stk.bites k b }

/-- The oldest record of the exit span is popped and brought to the exit gauge (R76, R77). -/
def popExit (s : State) : State :=
  match s.span exitSpan with
  | g :: rest => arrive g (s.setSpan exitSpan rest)
  | [] => s

/-! ## Pushes (R62, R73, R76) -/

/-- A push onto a span queue: a full queue first gives up its oldest record, retired LOST (R62). -/
def pushSpan (j : SpanId) (g : Segment) (s : State) : State :=
  let s := if Config.spanPlaces ≤ (s.span j).length then
      match s.span j with
      | old :: rest => retire old.asLost (s.setSpan j rest)
      | [] => s
    else s
  s.setSpan j (s.span j ++ [g])

/-- A stamped record pushed onto the span out of stand `k`: the span into the next active stand, unless that carries a
tail mark (R76), or the exit span followed by the exit-gauge test (R73, R77). -/
def pushOut (k : Stand) (g : Segment) (s : State) : State :=
  match s.nextActive k with
  | some d => if vget s.stk.tailMarks d then retire g.asDiscarded s else pushSpan (spanInto d) g s
  | none =>
    let s := pushSpan exitSpan g s
    if s.millRec.elim 0 (·.nX) < (s.span exitSpan).length then popExit s else s

/-- The push step: the bite's record is stamped and leaves the bite (R73, R75). -/
def pushBite (k : Stand) (s : State) : State :=
  match vget s.stk.bites k with
  | some g => pushOut k (stamp k s g) (s.setBite k none)
  | none => s

/-- The oldest record of the span into `k` is taken into its bite; a starved bite stays empty (R71, R73). -/
def takeIntoBite (k : Stand) (s : State) : State :=
  match s.span (spanInto k) with
  | g :: rest => (s.setSpan (spanInto k) rest).setBite k (some g)
  | [] => s

/-- The refill step (R73). -/
def refill (k : Stand) (s : State) : State :=
  if s.isFirst k then (if vget s.stk.tailMarks k then s else allocate k s) else takeIntoBite k s

/-! ## The end of a tracker event (R63, R79) -/

/-- Whether an event pushed onto, popped or retired from the span into `k`: its records are no longer those it held
before. A queue that came back to its count is still one of these, since the numbers it holds have changed (R59, R63). -/
def spanTouched (before after : State) (k : Stand) : Bool := before.span (spanInto k) != after.span (spanInto k)

/-- The active stands that have a span into them. -/
def State.downstream (s : State) : List Stand := s.activeSet.drop 1

/-- A condition taken on a span count (R146, R147). -/
def takeCount (key : Key) (beyond : Bool) (s : State) : State :=
  if beyond then (if scopeHolds s key then raiseKey true key s else s) else goneKey key s

/-- A span count handed to the trip matrix (R63, R146, R147). The thresholds are those of the active bank (R7). The three
conditions are taken in the order in which R63 names them, which no rule makes their order (DESIGN CHOICE, log 17). -/
def handCount (k : Stand) (count : Nat) (s : State) : State :=
  match s.spanEntry k with
  | some e =>
    let s := takeCount (.stand .headOverdue k) (decide (e.n + e.h ≤ count)) s
    let s := takeCount (.stand .loopGrow k) (decide (e.n + e.t < count)) s
    takeCount (.stand .loopPull k) (decide ((count : Int) < (e.n : Int) - e.t)) s
  | none => s

/-- The counts of the spans that an event touched, handed in ascending position (log 17). -/
def handCounts (before s : State) : State :=
  (s.downstream.filter fun k => spanTouched before s k).foldl (fun t k => handCount k (s.span (spanInto k)).length t) s

/-- The end of a tracker event: the counts are handed, and in TAILOUT the tracker tests for mill empty (R63, R79). -/
def endTracker (before s : State) : State := millEmptyTest (handCounts before s)

/-! ## Tracker events -/

/-- A thread entry at stand `k` (R69 to R71). -/
def threadEntry (k : Stand) (s : State) : State :=
  let t := s.withStk { s.stk with tailMarks := vset s.stk.tailMarks k false }
  let t := if t.isFirst k then allocate k t else takeIntoBite k t
  endTracker s t

/-- The tracker takes a head event, after the sequencer (R69). -/
def trackHead (k : Stand) (s : State) : State :=
  if s.inSet k && (s.seq k).state == .thread then threadEntry k s else s

/-- The stand states in which a bite advance pushes and refills (R72). -/
def StandState.movesStrip : StandState → Bool
  | .thread => true
  | .roll => true
  | .tripped => true
  | .out => false
  | .setup => false
  | .ready => false
  | .tail => false
  | .handover => false
  | .local_ => false

/-- The tracker takes a bite advance (R72, R73, R76). -/
def trackAdvance (k : Stand) (s : State) : State :=
  if !(s.inSet k && s.stk.mill.running) then s
  else if s.isLast k && vget s.stk.tailMarks k then endTracker s (popExit s)
  else if s.stripPresent k && (s.seq k).state.movesStrip then endTracker s (refill k (pushBite k s))
  else s

/-- Every record still in the span into `k` is retired with DISCARDED, oldest first (R75). -/
def discardSpan (j : SpanId) (s : State) : State :=
  (s.span j).foldl (fun t g => retire g.asDiscarded t) (s.setSpan j [])

/-- The tracker takes a tail confirmed, after the sequencer (R75). -/
def trackTail (k : Stand) (s : State) : State :=
  if s.inSet k && s.stk.mill.running then
    let t := pushBite k s
    let t := if t.isFirst k then t else discardSpan (spanInto k) t
    let t := t.withStk { t.stk with tailMarks := vset t.stk.tailMarks k true }
    let t := if t.isFirst k && t.stk.mill == .rolling then setMill .tailout t else t
    endTracker s t
  else s

/-! ## Lock-on (R98) -/

/-- The stand's h_gm is present and not stale-marked. -/
def GapRecord.usableEstimate (g : GapRecord) : Option Nat := if g.stale then none else g.hGm

/-- Lock-on: h_lock and S_ref_lock are captured and the stand goes from THREAD to ROLL (R98, R118). -/
def lockOn (k : Stand) (s : State) : State :=
  match (s.gap k).usableEstimate with
  | some h =>
    let s := s.modGap k fun g => { g with hLock := h, sRefLock := g.sRef, locked := true }
    evalScopes (placeStand k .roll s)
  | none => s

/-- The gap computation engine counts a bite advance, after the tracker (R45, R98). -/
def countAdvance (k : Stand) (s : State) : State :=
  match s.record k with
  | some r =>
    if (s.seq k).state = .thread ∧ (s.gap k).lockCount < r.lockDelay then
      let s := s.modGap k fun g => { g with lockCount := g.lockCount + 1 }
      if (s.gap k).lockCount = r.lockDelay then lockOn k s else s
    else s
  | none => s

/-- A bite advance at stand `k`, handed to the tracker and then to the gap computation engine (R45). -/
def biteAdvance (k : Stand) (s : State) : State := countAdvance k (trackAdvance k s)

/-! ## CLEAR_MILL (R81) -/

/-- Every record in a bite slot is retired with DISCARDED, in ascending position. -/
def discardBite (k : Stand) (s : State) : State :=
  match vget s.stk.bites k with
  | some g => retire g.asDiscarded (s.setBite k none)
  | none => s

/-- The number of records held in bite slots and span queues. -/
def Tracker.heldCount (t : Tracker) : Nat :=
  (allStands.filter fun k => (vget t.bites k).isSome).length +
    (allStands.map fun j => (vget t.spans j).length).sum

/-- The dropout measurers of all stands set to 0, the presence states kept (R53). -/
def clearMeasurers (p : PresenceUnit) : PresenceUnit :=
  { p with
    acc := Vector.replicate 8 0
    pres := vtab fun k => { vget p.pres k with measurer := 0 } }

/-- The effects of CLEAR_MILL (R81). -/
def clearMill (s : State) : State :=
  let t := eachStand discardBite s
  let t := allStands.foldl (fun t j => discardSpan j t) t
  let t := t.withPlu (clearMeasurers t.plu)
  let t := t.withStk { t.stk with tailMarks := Vector.replicate 8 false }
  endTracker s (setMill .idle t)

end Sys2Proof.Machine
end

