-- ==== Sys2Proof/Machine/Strip.lean ====
section
/-! DEFINITION. What the filtered inputs and the encoders bring about: heads (R48, R116, R117), dropouts (R49, R50),
tails (R51, R118), stop inputs (R140), panel changes (R135), forward pulses (R44, R52). -/

namespace Sys2Proof.Machine

/-! ## Heads -/

/-- The start of a coil (R68); the locked flag of every stand is cleared (R99). -/
def startCoil (s : State) : State :=
  let s := s.withStk { s.stk with
    coil := succ65535 s.stk.coil
    allocated := 0
    retired := 0
    tailMarks := Vector.replicate 8 false }
  let s := s.modGaps fun _ g => { g with locked := false }
  setMill .rolling s

/-- What the gap computation engine clears at an entry into THREAD (R98). -/
def GapRecord.enterThread (g : GapRecord) : GapRecord :=
  { g with lockCount := 0, hGm := none, locked := false, stale := false, gmSat := false, limited := false,
           slewing := false }

/-- SAMPLE_STALE taken on an entry into THREAD (R144). -/
def staleAtThread (k : Stand) (s : State) : State :=
  if (s.seq k).state = .thread ∧ !s.inputsFresh k then raiseKey false (.stand .sampleStale k) s else s

/-- A stand enters THREAD on a head event (R117); the trip matrix then takes the change, the keys whose scope has ended gone
(R139) before SAMPLE_STALE is raised (R144). No rule orders the two (DESIGN CHOICE, log 29). -/
def threadStand (k : Stand) (s : State) : State :=
  let s := setStandState k .thread s
  let s := s.modGap k GapRecord.enterThread
  let s := if s.isFirst k && s.stk.mill == .armed then startCoil s else s
  let s := standNotice k s
  staleAtThread k (evalScopes s)

/-- Whether a head at a READY stand threads it: the first active stand while ARMED, another while ROLLING (R116). -/
def headThreads (k : Stand) (s : State) : Bool :=
  if s.isFirst k then s.stk.mill == .armed else s.stk.mill == .rolling

/-- The sequencer's part of a head event (R116). -/
def sequenceHead (k : Stand) (s : State) : State :=
  match (s.seq k).state with
  | .ready => if headThreads k s then threadStand k s else pulseKey (.stand .unready k) s
  | .setup => pulseKey (.stand .unready k) s
  | .tail => pulseKey (.stand .unready k) s
  | .out => s
  | .thread => s
  | .roll => s
  | .tripped => s
  | .handover => s
  | .local_ => s

/-- The sequencer takes a head event; none outside the active set (R116). The trip matrix takes it too (R139), after an
UNREADY that the head has raised; no rule orders these two (DESIGN CHOICE, log 29). -/
def seqHead (k : Stand) (s : State) : State := if s.inSet k then evalScopes (sequenceHead k s) else s

/-- HMD on at a stand (R48, R50). -/
def hmdOn (k : Stand) (s : State) : State :=
  match (s.presence k).state with
  | .absent =>
    let s := s.modPresence k fun _ => { state := .present, measurer := 0 }
    standNotice k (trackHead k (seqHead k s))
  | .dropout => s.modPresence k fun _ => { state := .present, measurer := 0 }
  | .present => s

/-- HMD off at a stand (R49). -/
def hmdOff (k : Stand) (s : State) : State :=
  match (s.presence k).state with
  | .present => s.modPresence k fun _ => { state := .dropout, measurer := 0 }
  | .absent => s
  | .dropout => s

/-! ## Tails -/

/-- The sequencer's part of a tail confirmed (R118). A stand of the active set that leaves THREAD or ROLL in TAILOUT is
reported to the tracker, which tests for mill empty (R79). -/
def seqTail (k : Stand) (s : State) : State :=
  if (s.seq k).state.rolling then
    let s := setStandState k .tail s
    let s := s.modGap k fun g => { g with lockCount := 0 }
    let s := evalScopes (standNotice k s)
    if s.inSet k then millEmptyTest s else s
  else s

/-- A tail confirmed at a stand (R51). -/
def tailConfirmed (k : Stand) (s : State) : State :=
  let s := s.modPresence k fun _ => { state := .absent, measurer := 0 }
  standNotice k (trackTail k (seqTail k s))

/-! ## Panel changes (R131, R135) -/

/-- The completion of a TO_COORD handover, and of a TO_COORD taken with the panel inactive (R131). -/
def completeToCoord (k : Stand) (s : State) : State :=
  evalScopes (endHandover k .toCoord (coordState (s.inSet k) (s.openCover k)) .granted s)

/-- A filtered panel-confirm change, taken by the stand's pending handover (R135). -/
def panelChange (k : Stand) (active : Bool) (s : State) : State :=
  match (s.seq k).handover with
  | some h =>
    match h.dir with
    | .toLocal => if active then evalScopes (endHandover k .toLocal .local_ .granted s) else s
    | .toCoord => if active then s else completeToCoord k s
  | none => s

/-! ## Filters (R42, R43) -/

/-- The filter of an input. -/
def State.filter (s : State) : FilterId → Filter
  | .hmd k => vget s.plu.hmd k
  | .stop n => vget s.plu.stop n
  | .panel k => vget s.plu.panel k

/-- The filter of an input replaced. -/
def State.setFilter (s : State) (i : FilterId) (f : Filter) : State :=
  match i with
  | .hmd k => s.withPlu { s.plu with hmd := vset s.plu.hmd k f }
  | .stop n => s.withPlu { s.plu with stop := vset s.plu.stop n f }
  | .panel k => s.withPlu { s.plu with panel := vset s.plu.panel k f }

/-- A change of a filtered level, handed to its taker (R43). -/
def filteredChange (i : FilterId) (active : Bool) (s : State) : State :=
  match i with
  | .hmd k => if active then hmdOn k s else hmdOff k s
  | .stop n => levelKey (.stopInput n) active s
  | .panel k => panelChange k active s

/-- A filter accepts the level that the last tick sampled (R42). -/
def acceptFilter (i : FilterId) (s : State) : State :=
  let level := pinActive s.plu.pins i
  filteredChange i level (s.setFilter i { level := level, count := 0, due := false })

/-! ## Forward pulses (R44, R51, R52) -/

/-- The accumulator takes a forward pulse, and a bite advance is raised where it reaches a segment length (R44). -/
def accumulate (k : Stand) (s : State) : State :=
  match s.record k with
  | some r =>
    let sum := vget s.plu.acc k + r.e
    let length := r.lSeg * 1000000
    if length ≤ sum then biteAdvance k (s.withPlu { s.plu with acc := vset s.plu.acc k (sum - length) })
    else s.withPlu { s.plu with acc := vset s.plu.acc k sum }
  | none => s

/-- The measuring step and the confirmation length in nm, for a stand with or without a record (R51). -/
def measuring (record : Option StandRecord) : Nat × Nat :=
  match record with
  | some r => (r.e, r.tConf * 1000000)
  | none => (1000000, 1000 * 1000000)

/-- The dropout measurer takes a forward pulse (R51). -/
def measure (k : Stand) (record : Option StandRecord) (s : State) : State :=
  if (s.presence k).state = .dropout then
    let m := (s.presence k).measurer + (measuring record).1
    if (measuring record).2 ≤ m then tailConfirmed k s
    else s.modPresence k fun p => { p with measurer := m }
  else s

/-- A forward pulse at a stand, the accumulator before the measurer (R52). The measurer reads the record that the bank
held as the pulse came (log 16). -/
def forwardAt (k : Stand) (s : State) : State := measure k (s.record k) (accumulate k s)

end Sys2Proof.Machine
end

