-- ==== Sys2Proof/Machine/ReqMill.lean ====
section
/-! DEFINITION. The requests to the strip tracker, the gap computation engine, the trip matrix and the stand sequencer:
ARM, DISARM, CLEAR_MILL, SET_TRIM, STOP, ACK_TRIP, RESTORE, HANDOVER. -/

namespace Sys2Proof.Machine

/-! ## ARM, DISARM, CLEAR_MILL (R66, R67, R81) -/

/-- The four conditions of ARM (R66). -/
def canArm (s : State) : Bool :=
  s.stk.mill == .idle && s.sch.active.state == .valid && (s.activeSet.all fun k => (s.seq k).state == .ready) &&
    !s.openClassExists

def reqArm (body : List Byte) (s : State) : Taken :=
  withLength 0 body s <|
    if canArm s then (setMill .armed s, okReply []) else refuse s (codeReply .wrongState)

def reqDisarm (body : List Byte) (s : State) : Taken :=
  withLength 0 body s <|
    if s.stk.mill = .armed then (setMill .idle s, okReply []) else refuse s (codeReply .wrongState)

/-- CLEAR_MILL is taken while strip may be held and no stand is in THREAD, ROLL or TAIL (R81). -/
def canClearMill (s : State) : Bool := s.stk.mill.running && !s.anyThreaded

/-- CLEAR_MILL replies with the number of records retired, at most 8 + 8 × 24 = 200, so 8 bits (R81, R178). -/
def reqClearMill (body : List Byte) (s : State) : Taken :=
  withLength 0 body s <|
    if canClearMill s then (clearMill s, okReply (enc8 s.stk.heldCount)) else refuse s (codeReply .wrongState)

/-! ## SET_TRIM (R105) -/

def reqSetTrim (body : List Byte) (s : State) : Taken :=
  withLength 3 body s <|
    match standOfPos (rd8 body 0) with
    | none => refuse s (badParam 0 1 0)
    | some k =>
      if (s.seq k).state.away then refuse s (codeReply .standInLocal)
      else
        match s.record k with
        | none => refuse s (codeReply .wrongState)
        | some r =>
          let asked := rdS16 body 1
          let trim := saturate (-(r.trimMax : Int)) r.trimMax asked
          (s.modGap k fun g => { g with trim := trim },
            takenReply (decide (trim ≠ asked)) (enc8 (Stand.pos k) ++ encS16 trim))

/-! ## STOP (R158) -/

def reqStop (body : List Byte) (s : State) : Taken :=
  withLength 0 body s <|
    let s := pulseKey .hostStop s
    (s, okReply (enc8 ((s.recordOf .hostStop).elim 0 (·.occ))))

/-! ## ACK_TRIP (R156) -/

/-- The acknowledgment of one key's record, and how many it counts. -/
def ackKey (key : Key) (s : State) : State × Nat :=
  match s.recordOf key with
  | none => (s, 0)
  | some r =>
    match r.state with
    | .raised => (tripNotice key (s.modRecord key fun r => { r with state := .acked }), 1)
    | .held => (removeRecord r s, 1)
    | .acked => (s, 0)

/-- The acknowledgment of several keys in order. -/
def ackKeys (keys : List Key) (s : State) : State × Nat :=
  keys.foldl (fun t key => let u := ackKey key t.1; (u.1, t.2 + u.2)) (s, 0)

/-- The keys that the key byte of an ACK_TRIP addresses: one, or all of the table's in its order; none for any other
value. -/
def ackTargets (n : Nat) (s : State) : Option (List Key) :=
  if n = 255 then some (s.tmx.table.map (·.key)) else (keyOfNum n).map fun key => [key]

def reqAckTrip (body : List Byte) (s : State) : Taken :=
  withLength 1 body s <|
    match ackTargets (rd8 body 0) s with
    | none => refuse s (badParam 0 1 0)
    | some keys =>
      let t := ackKeys keys s
      (t.1, okReply (enc8 t.2))

/-! ## RESTORE (R127, R128) -/

/-- The outcome of RESTORE for one stand, by the table of R127. -/
def restoreOutcome (k : Stand) (s : State) : ReplyCode :=
  if (s.seq k).state.away then .standInLocal
  else if (s.seq k).state ≠ .tripped then .wrongState
  else if s.stripPresent k then .wrongState
  else if s.openCover k then .wrongState
  else .ok

/-- A stand is restored (R128): FAST_OPEN is released, it enters SETUP with its equalize interval or OUT, and its notice
is updated. -/
def restoreStand (k : Stand) (s : State) : State :=
  let s := s.modSeq k fun q => { q with fastOpen := false, nonOverlap := none }
  let s := if s.inSet k then
      let tEq := (s.record k).elim 0 (·.tEq)
      (setStandState k .setup s).modSeq k fun q => { q with equalize := if 0 < tEq then some tEq else none }
    else setStandState k .out s
  evalScopes (standNotice k s)

/-- One stand addressed by RESTORE. -/
def restoreOne (k : Stand) (s : State) : State := if restoreOutcome k s = .ok then restoreStand k s else s

/-- RESTORE of all stands, in ascending position, with the outcome of each (R127). -/
def restoreAll (s : State) : State × List (Stand × ReplyCode) :=
  allStands.foldl (fun t k => (restoreOne k t.1, t.2 ++ [(k, restoreOutcome k t.1)])) (s, [])

/-- The reply to a RESTORE of all stands: each stand's outcome and its state after the request. -/
def restoreAllContent (s : State) (outcomes : List (Stand × ReplyCode)) : List Byte :=
  (outcomes.map fun o => enc8 o.2.num ++ enc8 (standCode (s.seq o.1).state)).flatten

def reqRestore (body : List Byte) (s : State) : Taken :=
  withLength 1 body s <|
    if 8 < rd8 body 0 then refuse s (badParam 0 1 0)
    else
      match standOfPos (rd8 body 0) with
      | none =>
        let t := restoreAll s
        (t.1, okReply (restoreAllContent t.1 t.2))
      | some k =>
        if restoreOutcome k s = .ok then
          let s := restoreStand k s
          (s, okReply (enc8 (Stand.pos k) ++ enc8 (standCode (s.seq k).state)))
        else refuse s (codeReply (restoreOutcome k s))

/-! ## HANDOVER (R129 to R131) -/

/-- The direction of a HANDOVER body's code (R188). -/
def dirOfCode : Nat → Option Direction
  | 1 => some .toLocal
  | 2 => some .toCoord
  | _ => none

/-- The conditions of TO_LOCAL (R130). -/
def canGoLocal (k : Stand) (s : State) : Bool :=
  (match (s.seq k).state with
    | .out => true
    | .setup => true
    | .ready => true
    | .tripped => true
    | .thread => false
    | .roll => false
    | .tail => false
    | .handover => false
    | .local_ => false) &&
    !s.stripPresent k && (s.stk.mill == .idle || !s.inSet k)

/-- The condition of a direction. -/
def canHandover (k : Stand) (dir : Direction) (s : State) : Bool :=
  match dir with
  | .toLocal => canGoLocal k s
  | .toCoord => (s.seq k).state == .local_

/-- A stand enters HANDOVER with its record made (R130, R131): the slot emptied, the equalize timer stopped, the
FAST_OPEN demand evaluated, LOCAL_REQ asserted, the notice updated. -/
def enterHandover (k : Stand) (h : Handover) (s : State) : State :=
  let s := s.modSeq k fun q => { q with handover := some h }
  let s := setStandState k .handover (emptySlot k s)
  let s := s.modSeq k fun q => { q with localReq := true }
  evalScopes (standNotice k s)

/-- The timeout in force, in whole seconds (R129). -/
def timeoutInForce (asked : Nat) : Nat := min (max asked 1) 60

/-- Whether a taken handover completes at once: TO_COORD with the stand's panel inactive (R131). -/
def completesAtOnce (k : Stand) (dir : Direction) (s : State) : Bool :=
  dir == .toCoord && !(s.filter (.panel k)).level

/-- A HANDOVER that is taken (R130, R131). -/
def takeHandover (k : Stand) (dir : Direction) (seconds : Nat) (s : State) : State :=
  match dir with
  | .toLocal =>
    enterHandover k { dir := .toLocal, prior := some (s.seq k).state, remaining := seconds * 1000 } s
  | .toCoord =>
    if completesAtOnce k .toCoord s then completeToCoord k s
    else enterHandover k { dir := .toCoord, prior := none, remaining := seconds * 1000 } s

/-- HANDOVER (R129). A body with both parameters out of range is refused with the position's number, 1 (DEDUCED, log 23). -/
def reqHandover (body : List Byte) (s : State) : Taken :=
  withLength 3 body s <|
    match standOfPos (rd8 body 0), dirOfCode (rd8 body 1) with
    | none, _ => refuse s (badParam 0 1 0)
    | some _, none => refuse s (badParam 0 2 0)
    | some k, some dir =>
      if (s.seq k).state = .handover then refuse s (codeReply .busy)
      else if !canHandover k dir s then refuse s (codeReply .wrongState)
      else
        let asked := rd8 body 2
        let seconds := timeoutInForce asked
        let t := takeHandover k dir seconds s
        (t, takenReply (decide (seconds ≠ asked))
          (enc8 (Stand.pos k) ++ enc8 (dirCode dir) ++ enc8 seconds ++
            enc8 (if completesAtOnce k dir s then 1 else 0) ++ enc8 (standCode (t.seq k).state)))

end Sys2Proof.Machine
end

