-- ==== Sys2Proof/Machine/ReqRead.lean ====
section
/-! DEFINITION. The requests that read: STATUS, READ_CHANNELS, READ_TRACK, READ_SEGMENTS, READ_TRIPS. -/

namespace Sys2Proof.Machine

/-! ## STATUS (R176, R189) -/

/-- Whether a stand's prior-state bits of STATUS are a free value: R114 gives a TO_COORD handover no prior state
(log 10). -/
def priorIsFree (q : SeqRecord) : Bool := q.handover.elim false fun h => h.dir == .toCoord

/-- Byte 5 of a stand block: direction × 16 + prior state (R189); the prior state of a TO_COORD handover is the free
value `free`. -/
def handoverByte (h : Option Handover) (free : Byte) : Nat :=
  match h with
  | none => 0
  | some h =>
    match h.dir with
    | .toLocal => 16 * dirCode .toLocal + h.prior.elim 0 standCode
    | .toCoord => 16 * dirCode .toCoord + free.toNat % 16

/-- The 21-byte header of STATUS, the code among them (R189). -/
def statusHeader (s : State) : List Byte :=
  enc8 ReplyCode.ok.num ++ enc32 s.ms.toNat ++ enc8 (millCode s.stk.mill) ++ enc16 s.stk.coil ++
    enc16 s.stk.allocated ++ enc16 s.stk.retired ++ enc8 (activeCode s.sch.active.state) ++
    enc16 s.sch.active.serial ++ enc8 (pendingCode s.sch.pendingBank.state) ++ enc16 s.sch.pendingBank.serial ++
    enc8 s.tmx.table.length ++ enc8 (s.firstOutKey.elim 255 Key.num) ++ encFlag s.tmx.stopLine

/-- The 28-byte stand block of STATUS (R189). -/
def statusBlock (s : State) (k : Stand) (free : Byte) : List Byte :=
  let q := s.seq k
  let g := s.gap k
  enc8 (standCode q.state) ++ enc16 (s.statusFlags k) ++ enc8 ((s.effectiveAction k).elim 255 actionCode) ++
    enc8 (handoverByte q.handover free) ++ enc16 (q.handover.elim 0 (·.remaining)) ++ enc8 (q.nonOverlap.getD 0) ++
    enc8 (q.equalize.getD 0) ++ encS24 g.sRef ++ enc8 (g.lastSent.elim 255 fun p => modeCode p.mode) ++
    encS24 (g.lastSent.elim 0 (·.gap)) ++ encThickness g.hGm ++ enc16 g.hLock ++ encS24 g.sRefLock ++
    enc8 g.lockCount ++ encS16 g.trim ++ encS16 g.integ

/-- The whole STATUS reply. -/
def statusReply (s : State) : List Byte :=
  statusHeader s ++ (allStands.map fun k => statusBlock s k (s.freeAt k.val)).flatten

def reqStatus (body : List Byte) (s : State) : Taken :=
  withLength 0 body s (s.spendIf (allStands.any fun k => priorIsFree (s.seq k)), statusReply s)

/-! ## READ_CHANNELS (R34) -/

def channelRun (first count : Nat) : Bool := decide (first ≤ 31 ∧ 1 ≤ count ∧ first + count ≤ 32)

/-- The channel records of a reply, in ascending order. -/
def channelRecords (s : State) (first count : Nat) : List Byte :=
  ((List.range count).map fun i =>
    let c : Chan := Fin.ofNat 32 (first + i)
    encChannel (s.chan c) (vget s.sch.config.freshness c)).flatten

def reqReadChannels (body : List Byte) (s : State) : Taken :=
  withLength 2 body s <|
    if !channelRun (rd8 body 0) (rd8 body 1) then refuse s (badParam 0 0 0)
    else
      let count := min (rd8 body 1) Config.channelsPerReply
      (s, okReply (enc32 s.ms.toNat ++ enc8 (rd8 body 0) ++ enc8 count ++ channelRecords s (rd8 body 0) count))

/-! ## READ_TRACK (R82, R190) -/

/-- The span queues in use, in ascending downstream position with the exit span last (R62). -/
def spansInUse (s : State) : List SpanId :=
  s.downstream.map spanInto ++ if s.sch.active.state = .valid then [exitSpan] else []

/-- The downstream position of a span queue, 9 for the exit span (R82, R190). -/
def spanPosition (j : SpanId) : Nat := j.val + 2

/-- The lists added in order while their numbers come to no more than 96 in all. -/
def includeLists (s : State) : Nat → List SpanId → List SpanId
  | _, [] => []
  | total, j :: rest =>
    if total + (s.span j).length ≤ Config.listedNumbers then j :: includeLists s (total + (s.span j).length) rest
    else []

/-- The span lists of a reply (R82); the first list considered is always included. -/
def listedSpans (s : State) (first : Nat) : List SpanId :=
  match (spansInUse s).filter fun j => decide (first ≤ spanPosition j) with
  | [] => []
  | j :: rest => j :: includeLists s (s.span j).length rest

/-- One active stand of a READ_TRACK reply. -/
def trackStand (s : State) (k : Stand) : List Byte :=
  enc8 (Stand.pos k + 128 * (vget s.stk.tailMarks k).toNat) ++ enc16 ((vget s.stk.bites k).elim 0 (·.seg))

/-- One span in use of a READ_TRACK reply. -/
def trackSpan (s : State) (j : SpanId) : List Byte := enc8 (32 * j.val + (s.span j).length)

def trackContent (first : Nat) (s : State) : List Byte :=
  let lists := listedSpans s first
  enc32 s.ms.toNat ++ enc8 (millCode s.stk.mill) ++ enc16 s.stk.coil ++ enc16 s.stk.allocated ++
    enc16 s.stk.retired ++ enc16 s.stk.nextSeg ++ enc8 s.stk.hold ++ enc8 s.stk.ring.length ++
    enc8 s.activeSet.length ++ (s.activeSet.map (trackStand s)).flatten ++
    enc8 (spansInUse s).length ++ ((spansInUse s).map (trackSpan s)).flatten ++
    enc8 (lists.head?.elim 0 spanPosition) ++ enc8 (lists.getLast?.elim 0 spanPosition) ++
    (lists.map fun j => ((s.span j).map fun g => enc16 g.seg).flatten).flatten

def reqReadTrack (body : List Byte) (s : State) : Taken :=
  withLength 1 body s <|
    if !inNat 1 9 (rd8 body 0) then refuse s (badParam 0 1 0) else (s, okReply (trackContent (rd8 body 0) s))

/-! ## READ_SEGMENTS (R83) -/

/-- A record qualifies as the starting record for `n`: any for 0, else one whose number is `n` or later than it (R83). -/
def qualifies (n : Nat) (g : Segment) : Bool := n == 0 || decide (stepsForward n g.seg < 32768)

/-- The records of the ring from the starting record on, up to `count`. -/
def segmentsFrom (n count : Nat) (ring : List Segment) : List Segment :=
  (ring.dropWhile fun g => !qualifies n g).take count

def reqReadSegments (body : List Byte) (s : State) : Taken :=
  withLength 3 body s <|
    if !inNat 1 8 (rd8 body 2) then refuse s (badParam 0 2 0)
    else
      let found := segmentsFrom (rd16 body 0) (rd8 body 2) s.stk.ring
      (s, okReply (enc8 s.stk.ring.length ++ enc16 (found.head?.elim 0 (·.seg)) ++ enc8 found.length ++
        (found.map encSegment).flatten))

/-! ## READ_TRIPS (R159) -/

def tripsContent (first : Nat) (s : State) : List Byte :=
  enc32 s.ms.toNat ++ enc8 s.tmx.table.length ++ enc8 (s.firstOutKey.elim 255 Key.num) ++ encFlag s.tmx.stopLine ++
    actionRows s.sch.config.actions ++
    (((s.tmx.table.drop (first - 1)).take Config.tripsPerReply).map encTrip).flatten

def reqReadTrips (body : List Byte) (s : State) : Taken :=
  withLength 1 body s <|
    if !inNat 1 71 (rd8 body 0) then refuse s (badParam 0 1 0) else (s, okReply (tripsContent (rd8 body 0) s))

end Sys2Proof.Machine
end

