-- ==== Sys2Proof/Machine/ReqReset.lean ====
section
/-! DEFINITION. The soft reset, block by block, and the request RESET (R177, R137, R85, R112, R164, R185). -/

namespace Sys2Proof.Machine

/-- The report queue is emptied before any block enters a notice for the reset (R185). -/
def resetReports (s : State) : State := s.withHlk { s.hlk with queue := [] }

/-- Every transmit slot is emptied (R37, R40). -/
def resetSlots (s : State) : State := s.withFlc { s.flc with slots := Vector.replicate 8 none }

/-- The accumulators and the measurers are cleared, filters and presence kept (R46, R53, R56). -/
def resetLengths (s : State) : State := s.withPlu (clearMeasurers s.plu)

/-- Trims and integrators to 0, and the update timer of every position with a record restarted (R112). -/
def resetGaps (s : State) : State :=
  s.modGaps fun k g => { g with trim := 0, integ := 0, timer := (s.record k).map (·.tCtl) }

/-- Every persistence counter to 0 (R164). -/
def resetCounters (s : State) : State :=
  s.withTmx { s.tmx with forceCnt := Vector.replicate 8 0, gapCnt := Vector.replicate 8 0 }

/-- A pending handover ends with ABORTED_RESET; the STAND_STATE notice comes with the placement (R137, step 1). -/
def resetHandover (k : Stand) (s : State) : State :=
  match (s.seq k).handover with
  | some h =>
    updateNotice (.handoverDone k h.dir .abortedReset)
      (leaveHandover k (unconfirmedState h (s.inSet k) (s.openCover k)) s)
  | none => s

/-- The placement of one stand, LOCAL and TRIPPED kept (R137, steps 2 and 3). -/
def placeAtReset (k : Stand) (s : State) : State :=
  match (s.seq k).state with
  | .local_ => s
  | .tripped => s
  | .handover => s
  | _ => placeIfChanged k (placement (s.inSet k) (s.openCover k)) s

/-- The soft reset of the stand sequencer (R137). -/
def resetStands (s : State) : State :=
  let s := eachStand resetHandover s
  let s := eachStand placeAtReset s
  let s := eachStand evalDemand s
  evalScopes (eachStand standNotice s)

/-- What the soft reset leaves in the tracker: the collections emptied without retirement, and the coil number and the
numbering kept (R85). -/
def Tracker.softReset (t : Tracker) : Tracker :=
  { Tracker.cleared with coil := t.coil, nextSeg := t.nextSeg, lastAlloc := t.lastAlloc, mill := t.mill }

/-- The soft reset of the strip tracker, with its MILL_STATE notice (R85). -/
def resetTracker (s : State) : State := setMill .idle (s.withStk s.stk.softReset)

/-- The soft reset of the whole part, in the order R137, R85 and R164 give (R177). -/
def softReset (s : State) : State :=
  pulseKey .resetStop
    (resetTracker (resetStands (resetCounters (resetGaps (resetLengths (resetSlots (resetReports s)))))))

def reqReset (body : List Byte) (s : State) : Taken :=
  withLength 0 body s <|
    if s.anyThreaded then refuse s (codeReply .wrongState) else (softReset s, okReply [])

end Sys2Proof.Machine
end

