-- ==== Sys2Proof/Machine/ReqSchedule.lean ====
section
/-! DEFINITION. The requests to the schedule store: LOAD_STAND, LOAD_MILL, COMMIT, CLEAR_PENDING, READ_BANK. -/

namespace Sys2Proof.Machine

/-! ## Loads (R8, R9) -/

/-- The pending bank after a load that was taken: EDITING, with serial 0 (R8). -/
def loaded (b : Bank) : PendingBank := { state := .editing, bank := b, serial := 0 }

def reqLoadStand (body : List Byte) (s : State) : Taken :=
  withLength 53 body s <|
    match standOfPos (rd8 body 0) with
    | none => refuse s (badParam 0 0 0)
    | some k =>
      match standBadField body 1 with
      | some field => refuse s (badParam (Stand.pos k) field 0)
      | none =>
        let b := s.sch.pendingBank.bank
        let b := { b with stands := vset b.stands k (some (rdStand body 1)) }
        (s.withSch { s.sch with pendingBank := loaded b },
          okReply (enc8 (Stand.pos k) ++ enc8 (pendingCode .editing)))

def reqLoadMill (body : List Byte) (s : State) : Taken :=
  withLength 38 body s <|
    match millBadField body with
    | some field => refuse s (badParam 0 field (if field = 2 then millBadSpan body else 0))
    | none =>
      let b := { s.sch.pendingBank.bank with mill := some (rdMill body) }
      (s.withSch { s.sch with pendingBank := loaded b }, okReply (enc8 (pendingCode .editing)))

/-! ## COMMIT (R2, R12, R13) -/

/-- The stand and field that fail the gap ordering, in ascending position (R12, steps 3 to 5). -/
def orderFaultOf (b : Bank) : Option (Nat × Nat) :=
  allStands.findSome? fun k =>
    ((vget b.stands k).bind StandRecord.orderFault).map fun field => (Stand.pos k, field)

/-- The validation of a bank: the item and field of the first check that fails (R12). -/
def validationFault (b : Bank) : Option (Nat × Nat) :=
  match b.mill with
  | none => some (0, 0)
  | some m =>
    match m.activeSet.find? fun k => (vget b.stands k).isNone with
    | some k => some (Stand.pos k, 0)
    | none => orderFaultOf b

/-- The counter after it has given a serial: advanced by 1, and once more past the active bank's serial (R2). -/
def advanceCounter (counter activeSerial : Nat) : Nat :=
  if succ65535 counter = activeSerial then succ65535 (succ65535 counter) else succ65535 counter

/-- An EDITING bank becomes COMMITTED and takes a serial (R2, R13). -/
def commitPending (s : State) : State :=
  s.withSch { s.sch with
    pendingBank := { s.sch.pendingBank with state := .committed, serial := s.sch.counter }
    counter := advanceCounter s.sch.counter s.sch.active.serial }

/-- A COMMITTED bank is swapped at once while the mill is IDLE, and else waits for mill empty (R13). -/
def swapOrDefer (s : State) : Taken :=
  if s.stk.mill = .idle then
    let s := swapBank s
    (s, okReply (enc8 0 ++ enc16 s.sch.active.serial))
  else (s, okReply (enc8 1 ++ enc16 s.sch.pendingBank.serial))

def reqCommit (body : List Byte) (s : State) : Taken :=
  withLength 0 body s <|
    match s.sch.pendingBank.state with
    | .empty => refuse s (codeReply .wrongState)
    | .committed => swapOrDefer s
    | .editing =>
      match validationFault s.sch.pendingBank.bank with
      | some (item, field) => refuse s (badParam item field 0)
      | none => swapOrDefer (commitPending s)

/-! ## CLEAR_PENDING (R10) -/

def reqClearPending (body : List Byte) (s : State) : Taken :=
  withLength 0 body s
    (s.withSch { s.sch with pendingBank := PendingBank.none }, okReply (enc8 (pendingCode s.sch.pendingBank.state)))

/-! ## READ_BANK (R11) -/

/-- The presence indication and the record of item `n` of a bank: 0 the mill record, 1 to 8 a stand's. -/
def bankItem (b : Bank) (n : Nat) (unused : Nat → Byte) : List Byte :=
  match standOfPos n with
  | none =>
    match b.mill with
    | some m => encFlag true ++ encMill m unused
    | none => encFlag false
  | some k =>
    match vget b.stands k with
    | some r => encFlag true ++ encStand r
    | none => encFlag false

/-- READ_BANK (R11). A body with both parameters out of range is refused with the selector's number, 1 (DEDUCED, log 23). -/
def reqReadBank (body : List Byte) (s : State) : Taken :=
  withLength 2 body s <|
    if 1 < rd8 body 0 then refuse s (badParam 0 1 0)
    else if 8 < rd8 body 1 then refuse s (badParam 0 2 0)
    else
      let bankHead := if rd8 body 0 = 0 then enc8 (activeCode s.sch.active.state) ++ enc16 s.sch.active.serial
        else enc8 (pendingCode s.sch.pendingBank.state) ++ enc16 s.sch.pendingBank.serial
      let b := if rd8 body 0 = 0 then s.sch.active.bank else s.sch.pendingBank.bank
      (s.spendIf (decide (rd8 body 1 = 0) && b.mill.isSome),
        okReply (bankHead ++ enc8 (rd8 body 1) ++ bankItem b (rd8 body 1) s.freeAt))

end Sys2Proof.Machine
end

