-- ==== Sys2Proof/Machine/HostLink.lean ====
section
/-! DEFINITION. The host link: the taking of a request (R171 to R173), the arrival of a request (R170, R171), the receive
assembler (R169), and the end of an event (R174). -/

namespace Sys2Proof.Machine

/-- What a request is answered, by its KIND: the 26 requests of section 8.5, and UNKNOWN_KIND for any other (R172). -/
def answer (kind : Nat) (body : List Byte) (s : State) : Taken :=
  match kind with
  | 0x01 => reqIdentify body s
  | 0x02 => reqStatus body s
  | 0x03 => reqConfigure body s
  | 0x04 => reqSetAccept body s
  | 0x05 => reqReadAccept body s
  | 0x06 => reqSetActions body s
  | 0x07 => reqLoadStand body s
  | 0x08 => reqLoadMill body s
  | 0x09 => reqCommit body s
  | 0x0A => reqClearPending body s
  | 0x0B => reqReadBank body s
  | 0x0C => reqArm body s
  | 0x0D => reqDisarm body s
  | 0x0E => reqClearMill body s
  | 0x0F => reqSetTrim body s
  | 0x10 => reqStop body s
  | 0x11 => reqAckTrip body s
  | 0x12 => reqRestore body s
  | 0x13 => reqHandover body s
  | 0x14 => reqReadChannels body s
  | 0x15 => reqReadTrack body s
  | 0x16 => reqReadSegments body s
  | 0x17 => reqReadTrips body s
  | 0x18 => reqSetReports body s
  | 0x19 => reqSetAux body s
  | 0x1A => reqReset body s
  | _ => refuse s (codeReply .unknownKind)

/-- The reply frame of a request (R173). -/
def replyTo (q : HostFrame) (body : List Byte) : HostFrame := { kind := q.kind + 0x80, tag := q.tag, body := body }

/-- The taking of a request: its checks and effects, and its reply composed into the reply slot (R171). -/
def takeRequest (q : HostFrame) (s : State) : State :=
  let t := answer q.kind.toNat q.body s
  t.1.withHlk { t.1.hlk with slot := some (replyTo q t.2) }

/-- The end of an event at the transmit line (R174). -/
def endEvent (s : State) : State := pumpWith takeRequest s

/-- A frame whose CRC is right: one of a reply's kind is discarded (R170), and a request is taken, held or discarded
(R171). -/
def arriveRequest (q : HostFrame) (s : State) : State :=
  if 0x80 ≤ q.kind.toNat then s
  else
    match s.hlk.held, s.hlk.slot with
    | some _, _ => s
    | none, some _ => s.withHlk { s.hlk with held := some q }
    | none, none => takeRequest q s

/-- A request command: its arrival, and the end of the event. -/
def request (kind tag : Byte) (body : List Byte) (s : State) : State :=
  endEvent (arriveRequest { kind := kind, tag := tag, body := body } s)

/-! ## The receive assembler (R169) -/

/-- The frame that LEN and the bytes after it hold, its CRC checked (R170). -/
def frameOf (len : Byte) (held : List Byte) : Option HostFrame :=
  match held with
  | kind :: tag :: rest =>
    if held.drop len.toNat = crcBytes (len :: held.take len.toNat) then
      some { kind := kind, tag := tag, body := rest.take (len.toNat - 2) }
    else none
  | _ => none

/-- What a byte makes of the receive assembler, and the frame it completes (R169). -/
def RxAssembler.take (a : RxAssembler) (b : Byte) (framingError : Bool) : RxAssembler × Option HostFrame :=
  match a with
  | .hunting => if !framingError && b == 0xA5 then (.length, none) else (.hunting, none)
  | .length =>
    if !framingError && inNat 2 250 b.toNat then (.collecting b [], none) else (.hunting, none)
  | .collecting len held =>
    if framingError then (.hunting, none)
    else if held.length + 1 < len.toNat + 2 then (.collecting len (held ++ [b]), none)
    else (.hunting, frameOf len (held ++ [b]))

end Sys2Proof.Machine
end

