-- ==== Sys2Proof/Machine/Release.lean ====
section
/-! DEFINITION. A held reset (R161, R193), its release (R19, R136, R163, R185, R193), and the commands POWER_ON and
RESET_PIN. -/

namespace Sys2Proof.Machine

/-- The release of a reset: every block at its power-on value, the straps sampled, the reset's notices entered, and
RESET_STOP raised and gone (R163, R185). The eight STAND_STATE notices are entered in ascending position (DESIGN CHOICE,
log 18). The waiting commands and the free-value counter are the model's own and stay. -/
def release (straps : BitVec 2) (s : State) : State :=
  let c := { State.cleared straps with freeIx := s.freeIx, pending := s.pending }
  endEvent (pulseKey .resetStop (eachStand standNotice (millNotice c)))

/-- A reset held by the sources `r`: every block at its power-on value, and no record and no notice yet (R161, R193). The
strap code in force stays until the release samples the straps. -/
def holdReset (r : ResetHold) (s : State) : State :=
  { State.cleared s.hlk.straps with resets := r, freeIx := s.freeIx, pending := s.pending }

/-- A reset source lets go, `r` being the sources that hold the part still: the reset is released when none does (R193). -/
def endReset (r : ResetHold) (straps : BitVec 2) (s : State) : State :=
  if r.supply || r.pin then holdReset r s else release straps s

/-- POWER_ON (R193). -/
def execPowerOn (edge : ResetEdge) (s : State) : Host.Outcome State Fault Refusal :=
  .next (match edge with
    | .hold => holdReset { s.resets with supply := true } s
    | .release straps => endReset { s.resets with supply := false } straps s)

/-- RESET_PIN (R193): a low level of at least 1 µs is a reset, a shorter one is ignored. -/
def execResetPin (lowNs : Nat) (edge : ResetEdge) (s : State) : Host.Outcome State Fault Refusal :=
  .next (if lowNs < 1000 then s else
    match edge with
    | .hold => holdReset { s.resets with pin := true } s
    | .release straps => endReset { s.resets with pin := false } straps s)

end Sys2Proof.Machine
end

