-- ==== Sys2Proof/Machine/Requests.lean ====
section
/-! DEFINITION. The commands of the host line: HOST_BYTE_RECEIVED, HOST_INTER_BYTE_TIMEOUT, HOST_TX_END, and the 26 requests
with UNKNOWN_KIND_REQUEST. A request command is a request that has passed R170 and comes to R171: it is taken, held or
discarded there (log 6). -/

namespace Sys2Proof.Machine

/-- A byte taken by the receive assembler (R169, R170). One that completes a request brings it to R171 in the same step
(log 7). -/
def takeHostByte (b : Byte) (framingError : Bool) (s : State) : State :=
  let t := s.hlk.rx.take b framingError
  let s := s.withHlk { s.hlk with rx := t.1 }
  match t.2 with
  | some q => endEvent (arriveRequest q s)
  | none => s

/-- HOST_BYTE_RECEIVED (R167, R169, R170). Bit times without a start bit are no byte, and change nothing. -/
def execHostByteReceived (line : LineBits) (stop : Bool) (s : State) : Host.Outcome State Fault Refusal :=
  event (fun s => (lineByte line stop).elim s fun r => takeHostByte r.1 r.2 s) s

/-- HOST_INTER_BYTE_TIMEOUT (R169): the bytes held are discarded. -/
def execHostInterByteTimeout (s : State) : Host.Outcome State Fault Refusal :=
  event (fun s => s.withHlk { s.hlk with rx := .hunting }) s

/-- HOST_TX_END (R174): the frame in transmission ends, and the reply in the slot or else the oldest notice begins. An idle
line has no transmission to end. -/
def execHostTxEnd (s : State) : Host.Outcome State Fault Refusal :=
  event (fun s => match s.hlk.tx with
    | some _ => endEvent (s.withHlk { s.hlk with tx := none })
    | none => s) s

/-- UNKNOWN_KIND_REQUEST (R172): a request whose KIND names none of the 26. -/
def execUnknownKindRequest (kind tag : Byte) (body : List Byte) (s : State) : Host.Outcome State Fault Refusal :=
  event (request kind tag body) s

/-- IDENTIFY (R175). -/
def execIdentify (tag : Byte) (body : List Byte) (s : State) : Host.Outcome State Fault Refusal :=
  event (request 0x01 tag body) s

/-- STATUS (R176). -/
def execStatus (tag : Byte) (body : List Byte) (s : State) : Host.Outcome State Fault Refusal :=
  event (request 0x02 tag body) s

/-- CONFIGURE (R18). -/
def execConfigure (tag : Byte) (body : List Byte) (s : State) : Host.Outcome State Fault Refusal :=
  event (request 0x03 tag body) s

/-- SET_ACCEPT (R25). -/
def execSetAccept (tag : Byte) (body : List Byte) (s : State) : Host.Outcome State Fault Refusal :=
  event (request 0x04 tag body) s

/-- READ_ACCEPT (R26). -/
def execReadAccept (tag : Byte) (body : List Byte) (s : State) : Host.Outcome State Fault Refusal :=
  event (request 0x05 tag body) s

/-- SET_ACTIONS (R152). -/
def execSetActions (tag : Byte) (body : List Byte) (s : State) : Host.Outcome State Fault Refusal :=
  event (request 0x06 tag body) s

/-- LOAD_STAND (R8). -/
def execLoadStand (tag : Byte) (body : List Byte) (s : State) : Host.Outcome State Fault Refusal :=
  event (request 0x07 tag body) s

/-- LOAD_MILL (R9). -/
def execLoadMill (tag : Byte) (body : List Byte) (s : State) : Host.Outcome State Fault Refusal :=
  event (request 0x08 tag body) s

/-- COMMIT (R13). -/
def execCommit (tag : Byte) (body : List Byte) (s : State) : Host.Outcome State Fault Refusal :=
  event (request 0x09 tag body) s

/-- CLEAR_PENDING (R10). -/
def execClearPending (tag : Byte) (body : List Byte) (s : State) : Host.Outcome State Fault Refusal :=
  event (request 0x0A tag body) s

/-- READ_BANK (R11). -/
def execReadBank (tag : Byte) (body : List Byte) (s : State) : Host.Outcome State Fault Refusal :=
  event (request 0x0B tag body) s

/-- ARM (R66). -/
def execArm (tag : Byte) (body : List Byte) (s : State) : Host.Outcome State Fault Refusal :=
  event (request 0x0C tag body) s

/-- DISARM (R67). -/
def execDisarm (tag : Byte) (body : List Byte) (s : State) : Host.Outcome State Fault Refusal :=
  event (request 0x0D tag body) s

/-- CLEAR_MILL (R81). -/
def execClearMill (tag : Byte) (body : List Byte) (s : State) : Host.Outcome State Fault Refusal :=
  event (request 0x0E tag body) s

/-- SET_TRIM (R105). -/
def execSetTrim (tag : Byte) (body : List Byte) (s : State) : Host.Outcome State Fault Refusal :=
  event (request 0x0F tag body) s

/-- STOP (R158). -/
def execStop (tag : Byte) (body : List Byte) (s : State) : Host.Outcome State Fault Refusal :=
  event (request 0x10 tag body) s

/-- ACK_TRIP (R156). -/
def execAckTrip (tag : Byte) (body : List Byte) (s : State) : Host.Outcome State Fault Refusal :=
  event (request 0x11 tag body) s

/-- RESTORE (R127). -/
def execRestore (tag : Byte) (body : List Byte) (s : State) : Host.Outcome State Fault Refusal :=
  event (request 0x12 tag body) s

/-- HANDOVER (R129). -/
def execHandover (tag : Byte) (body : List Byte) (s : State) : Host.Outcome State Fault Refusal :=
  event (request 0x13 tag body) s

/-- READ_CHANNELS (R34). -/
def execReadChannels (tag : Byte) (body : List Byte) (s : State) : Host.Outcome State Fault Refusal :=
  event (request 0x14 tag body) s

/-- READ_TRACK (R82). -/
def execReadTrack (tag : Byte) (body : List Byte) (s : State) : Host.Outcome State Fault Refusal :=
  event (request 0x15 tag body) s

/-- READ_SEGMENTS (R83). -/
def execReadSegments (tag : Byte) (body : List Byte) (s : State) : Host.Outcome State Fault Refusal :=
  event (request 0x16 tag body) s

/-- READ_TRIPS (R159). -/
def execReadTrips (tag : Byte) (body : List Byte) (s : State) : Host.Outcome State Fault Refusal :=
  event (request 0x17 tag body) s

/-- SET_REPORTS (R183). -/
def execSetReports (tag : Byte) (body : List Byte) (s : State) : Host.Outcome State Fault Refusal :=
  event (request 0x18 tag body) s

/-- SET_AUX (R184). -/
def execSetAux (tag : Byte) (body : List Byte) (s : State) : Host.Outcome State Fault Refusal :=
  event (request 0x19 tag body) s

/-- RESET (R177). -/
def execSoftReset (tag : Byte) (body : List Byte) (s : State) : Host.Outcome State Fault Refusal :=
  event (request 0x1A tag body) s

end Sys2Proof.Machine
end

