-- ==== Sys2Proof/Machine/GapUpdate.lean ====
section
/-! DEFINITION. The update of a stand (R90 to R104): the gauge-meter estimate, the ROLL update's error, target, clamp and
slew, and what each stand state sends. -/

namespace Sys2Proof.Machine

/-! ## The gauge-meter estimate (R95 to R97) -/

/-- The stretch of a stand in µm under a force in kN (R96). -/
def stretch (force m : Nat) : Nat := (force * 1000 + m / 2) / m

/-- The estimate before its saturation (R95, R96). -/
def rawEstimate (r : StandRecord) (forceValue gapValue : Int) : Int :=
  saturate (-10000) 80000 gapValue + stretch (saturate 0 60000 forceValue).toNat r.m + r.z

/-- The estimate computed into a gap record (R96). -/
def GapRecord.compute (g : GapRecord) (raw : Int) : GapRecord :=
  { g with hGm := some (saturate 0 65000 raw).toNat, gmSat := decide (saturate 0 65000 raw ≠ raw), stale := false }

/-- The estimate computed with FRESH inputs (R96), or held with the stale mark set (R97). -/
def estimate (k : Stand) (r : StandRecord) (s : State) : State :=
  if s.inputsFresh k then
    s.modGap k fun g => g.compute (rawEstimate r (s.chan (forceCh k)).value (s.chan (gapCh k)).value)
  else s.modGap k fun g => { g with stale := true }

/-! ## The ROLL update (R100 to R103) -/

/-- The feed-forward input (R100). -/
def feedForward (k : Stand) (s : State) : Int :=
  match vget s.stk.bites k with
  | some g =>
    if s.isFirst k then
      match g.entrySrc with
      | .gauge => (g.entryH : Int) - s.millRec.elim 0 (·.hEntry)
      | .schedule => 0
    else g.dev.getD 0
  | none => 0

/-- The combined error before the deadband (R101, step 3). -/
def combinedError (r : StandRecord) (eGm dIn integ : Int) : Int :=
  saturate (-20000) 20000 (roundDiv (r.kgm * eGm + r.kff * dIn) 256 + integ)

/-- The deadband (R101, step 4). -/
def deadband (db : Nat) (e : Int) : Int := if e.natAbs ≤ db then 0 else e

/-- The gap correction (R102, step 5). -/
def gapCorrection (c : Nat) (e : Int) : Int := -roundDiv (e * c) 1024

/-- The target before the clamp (R102, step 6). -/
def gapTarget (r : StandRecord) (g : GapRecord) (hGm : Nat) (dIn : Int) : Int :=
  g.sRefLock +
    gapCorrection r.c (deadband r.db (combinedError r ((hGm : Int) - g.hLock) dIn g.integ)) + g.trim

/-- The clamp of a target to [S_min, S_max] (R102, step 7). -/
def clampGap (r : StandRecord) (target : Int) : Int :=
  if target < r.sMin then r.sMin else if r.sMax < target then r.sMax else target

/-- The ROLL update's target, clamped, and its flags and reference (R100 to R103, steps 1 to 8). -/
def rollReference (r : StandRecord) (g : GapRecord) (hGm : Nat) (dIn : Int) : Int × Bool × Bool :=
  let target := gapTarget r g hGm dIn
  let clamped := clampGap r target
  let ref := slewTo g.slewBase clamped r.r
  (ref, decide (clamped ≠ target), decide (ref ≠ clamped))

/-- The full ROLL update of a stand not frozen, its estimate made (R100 to R103). -/
def rollUpdate (k : Stand) (r : StandRecord) (hGm : Nat) (s : State) : State :=
  let out := rollReference r (s.gap k) hGm (feedForward k s)
  let s := s.modGap k fun g => { g with limited := out.2.1, slewing := out.2.2 }
  produce k .track out.1 s

/-! ## What each state sends (R90 to R94, R104) -/

/-- The update of a stand in OUT (R91). -/
def updateOut (k : Stand) (r : StandRecord) (s : State) : State :=
  match r.outCode, (s.gap k).lastSent with
  | .park, _ => produce k .hold r.sOpen s
  | .hold, some p => produce k .hold p.gap s
  | .hold, none => s
  | .release, _ => s

/-- The update of a stand in SETUP (R92), followed by the window test (R120). -/
def updateSetup (k : Stand) (r : StandRecord) (s : State) : State :=
  let s := if (s.seq k).equalize.isSome then s
    else produce k .preset (slewTo (s.gap k).slewBase r.sPreset r.r) s
  windowTest k s

/-- The update of a stand in READY (R93). -/
def updateReady (k : Stand) (r : StandRecord) (s : State) : State :=
  if (s.seq k).equalize.isSome then s else produce k .preset r.sPreset s

/-- The update of a stand in THREAD (R93), which completes a deferred lock-on (R98). -/
def updateThread (k : Stand) (r : StandRecord) (s : State) : State :=
  let s := produce k .hold r.sPreset (estimate k r s)
  if (s.gap k).lockCount = r.lockDelay then lockOn k s else s

/-- The update of a stand in ROLL (R95 to R104). -/
def updateRoll (k : Stand) (r : StandRecord) (s : State) : State :=
  let fresh := s.inputsFresh k
  let s := estimate k r s
  match (s.gap k).hGm, fresh && !(s.seq k).frozen with
  | some h, true => rollUpdate k r h s
  | _, _ => produce k .hold (s.gap k).sRef s

/-- The update of a stand, by its state (R90). -/
def update (k : Stand) (r : StandRecord) (s : State) : State :=
  match (s.seq k).state with
  | .out => updateOut k r s
  | .setup => updateSetup k r s
  | .ready => updateReady k r s
  | .thread => updateThread k r s
  | .roll => updateRoll k r s
  | .tail => produce k .hold (s.gap k).sRef s
  | .tripped => produce k .open_ r.sOpen s
  | .handover => emptySlot k s
  | .local_ => emptySlot k s

/-- The expiry of an update timer: the timer is reloaded with T_ctl and the update runs (R88, R90). The trip matrix takes
what a frame beginning transmission or a state change does to its scopes (R139, R143). -/
def expireUpdate (k : Stand) (s : State) : State :=
  match s.record k with
  | some r => evalScopes (update k r (s.modGap k fun g => { g with timer := some r.tCtl }))
  | none => s

end Sys2Proof.Machine
end

