-- ==== Sys2Proof/Machine/Channels.lean ====
section
/-! DEFINITION. The field-in side: the acceptance table (R23, R24), the channel records (R29 to R32), and what the takers do
with samples and lapses (R33, R141 to R145). -/

namespace Sys2Proof.Machine

/-! ## The acceptance table -/

/-- A frame matches an entry (R23). -/
def AcceptEntry.accepts (e : AcceptEntry) (tag : BitVec 12) (quantity : Nat) : Bool :=
  e.enabled && (tag &&& e.mask) == (e.tag &&& e.mask) && (e.quantity == 0 || e.quantity == quantity)

/-- The lowest-numbered matching entry (R24). -/
def winningEntry (t : Vector AcceptEntry 24) (tag : BitVec 12) (quantity : Nat) : Option EntryNo :=
  (List.finRange 24).find? fun n => (vget t n).accepts tag quantity

/-! ## Persistence conditions (R141) -/

/-- A sample taken by a condition with a persistence counter: the count after it, and whether the key is raised. -/
def persist (beyond scope present : Bool) (needed count : Nat) : Nat × Bool :=
  if !beyond then (0, false)
  else if !scope || present then (count, false)
  else (satSucc 8 count, decide (needed ≤ satSucc 8 count))

/-- FORCE_HIGH takes a force sample (R141, R142). -/
def takeForce (k : Stand) (value : Int) (s : State) : State :=
  match s.record k with
  | some r =>
    let key := Key.stand .forceHigh k
    let beyond := decide ((r.fMax : Int) < value)
    let out := persist beyond (scopeHolds s key) (s.present key) r.pF (vget s.tmx.forceCnt k)
    let s := s.withTmx { s.tmx with forceCnt := vset s.tmx.forceCnt k out.1 }
    if out.2 then raiseKey false key s else if beyond then s else goneKey key s
  | none => s

/-- GAP_WINDOW takes a gap sample; it is not evaluated without a window reference (R141, R143). -/
def takeWindow (k : Stand) (value : Int) (s : State) : State :=
  match s.record k, (s.gap k).windowRef with
  | some r, some ref =>
    let key := Key.stand .gapWindow k
    let beyond := decide ((r.w : Int) < (value - ref).natAbs)
    let out := persist beyond (scopeHolds s key) (s.present key) r.pW (vget s.tmx.gapCnt k)
    let s := s.withTmx { s.tmx with gapCnt := vset s.tmx.gapCnt k out.1 }
    if out.2 then raiseKey false key s else if beyond then s else goneKey key s
  | _, _ => s

/-- SAMPLE_STALE is gone at the sample after which both channels are FRESH (R144). -/
def clearStale (k : Stand) (s : State) : State :=
  if s.inputsFresh k then goneKey (.stand .sampleStale k) s else s

/-- SAMPLE_STALE takes a lapse of the force or gap channel (R144). -/
def takeLapse (c : Chan) (s : State) : State :=
  match chanRole c with
  | some (k, 0) => lapseAt k s
  | some (k, 1) => lapseAt k s
  | _ => s
where
  lapseAt (k : Stand) (s : State) : State :=
    if scopeHolds s (.stand .sampleStale k) then raiseKey false (.stand .sampleStale k) s else s

/-- A sample handed to its takers, the trip matrix before the sequencer (R33, log 13). -/
def takeSample (c : Chan) (value : Int) (s : State) : State :=
  match chanRole c with
  | some (k, 0) => clearStale k (takeForce k value s)
  | some (k, 1) => windowTest k (clearStale k (takeWindow k value s))
  | some (k, _) => levelKey (.stand .driveFault k) (decide (value ≠ 0)) s
  | none => s

/-! ## Frames into channels -/

/-- What a FAULT frame makes of a channel (R30). -/
def Channel.fault (c : Channel) (seq : BitVec 4) (hit : EntryNo) : Channel :=
  { c with state := .invalid, warn := false, lastSeq := some seq, hit := some hit, remaining := 0 }

/-- What a GOOD or WARN frame makes of a channel (R31). -/
def Channel.sample (c : Channel) (seq : BitVec 4) (hit : EntryNo) (warn : Bool) (value : Int) (timeout : Nat) :
    Channel :=
  { value := value, prev := c.value, state := .fresh, warn := warn, lastSeq := some seq, hit := some hit,
    remaining := timeout }

/-- A frame delivered to a channel (R29 to R31). Health 0 is GOOD, 1 WARN, 2 and 3 FAULT (R22, R188). -/
def deliver (c : Chan) (hit : EntryNo) (f : FieldFrame) (s : State) : State :=
  if (s.chan c).lastSeq = some f.seq then s
  else if 2 ≤ f.health then
    let was := (s.chan c).state
    let s := s.modChan c fun ch => ch.fault f.seq hit
    if was = .invalid then s else takeLapse c s
  else
    let timeout := vget s.sch.config.freshness c
    evalScopes (takeSample c f.value (s.modChan c fun ch => ch.sample f.seq hit (f.health == 1) f.value timeout))

/-- A complete field-in frame: its checks (R22) and the acceptance table (R24). A run of bytes that is not nine bytes
opening with the start value is no frame of the line (R21, R187) and is discarded. -/
def takeFrame (frame : List Byte) (s : State) : State :=
  let f := fieldFields frame
  if !(decide (frame.length = 9) && frame.head? == some 0x5A && fieldCheck frame) then s
  else if f.quantity = 0 ∨ f.quantity = 15 then s
  else
    match winningEntry s.flc.accept f.tag f.quantity with
    | some n => deliver (vget s.flc.accept n).channel n f s
    | none => s

/-- A channel is FRESH and its remaining time has run out (R32). -/
def Channel.expired (c : Channel) : Bool := c.state == .fresh && c.remaining == 0

/-- The expiry of a freshness timer (R32). -/
def expireChannel (c : Chan) (s : State) : State :=
  takeLapse c (s.modChan c fun ch => { ch with state := .stale })

/-- What a byte makes of the field-in assembler, and the frame it completes (R21). -/
def FieldAssembler.take (a : FieldAssembler) (b : Byte) (framingError : Bool) : FieldAssembler × Option (List Byte) :=
  match a with
  | .hunting => if !framingError && b == 0x5A then (.collecting [b], none) else (.hunting, none)
  | .collecting held =>
    if framingError then (.hunting, none)
    else if held.length < 8 then (.collecting (held ++ [b]), none)
    else (.hunting, some (held ++ [b]))

end Sys2Proof.Machine
end

