-- ==== Sys2Proof/Machine/FieldLine.lean ====
section
/-! DEFINITION. The commands of the field line: FIELD_BYTE_RECEIVED, FIELD_INTER_BYTE_TIMEOUT, FIELD_FRAME,
FRESHNESS_EXPIRY, FIELD_OUT_TX_END. -/

namespace Sys2Proof.Machine

/-- A frame on field-in, as one event of the part (R22, R24, R29 to R33). -/
def fieldFrameEvent (frame : List Byte) (s : State) : State := endEvent (takeFrame frame s)

/-- A byte taken by the field-in assembler (R21). One that completes a frame passes it to R22 in the same step (log 7). -/
def takeFieldByte (b : Byte) (framingError : Bool) (s : State) : State :=
  let t := s.flc.asm.take b framingError
  let s := s.withFlc { s.flc with asm := t.1 }
  match t.2 with
  | some frame => fieldFrameEvent frame s
  | none => s

/-- FIELD_BYTE_RECEIVED (R20, R21). Bit times without a start bit are no byte, and change nothing. -/
def execFieldByteReceived (line : LineBits) (stop : Bool) (s : State) : Host.Outcome State Fault Refusal :=
  event (fun s => (lineByte line stop).elim s fun r => takeFieldByte r.1 r.2 s) s

/-- FIELD_INTER_BYTE_TIMEOUT (R21): the bytes held are discarded. -/
def execFieldInterByteTimeout (s : State) : Host.Outcome State Fault Refusal :=
  event (fun s => s.withFlc { s.flc with asm := .hunting }) s

/-- FIELD_FRAME (R22): a whole frame as the assembler would pass it on (log 7). -/
def execFieldFrame (frame : List Byte) (s : State) : Host.Outcome State Fault Refusal :=
  event (fieldFrameEvent frame) s

/-- A freshness timer's expiry, when it is due (R32, log 2). -/
def channelExpiry (c : Chan) (s : State) : State :=
  if (s.chan c).expired then endEvent (expireChannel c s) else s

/-- FRESHNESS_EXPIRY (R32). -/
def execFreshnessExpiry (c : Chan) (s : State) : Host.Outcome State Fault Refusal :=
  event (channelExpiry c) s

/-- FIELD_OUT_TX_END (R38): the frame in transmission ends. The trip matrix takes what the next frame's start does to
GAP_WINDOW's scope (R139, R143). An idle line has no transmission to end. -/
def execFieldOutTxEnd (s : State) : Host.Outcome State Fault Refusal :=
  event (fun s => match s.flc.tx with
    | some _ => endEvent (evalScopes (nextSetpoint s))
    | none => s) s

end Sys2Proof.Machine
end

