-- ==== Sys2Proof/Machine/Inputs.lean ====
section
/-! DEFINITION. The commands of the discrete lines: FILTER_ACCEPT and ENCODER_PULSE. -/

namespace Sys2Proof.Machine

/-- A filter's accept, when the last tick has made it due (R42, log 2). -/
def filterAccept (i : FilterId) (s : State) : State :=
  if (s.filter i).due then endEvent (acceptFilter i s) else s

/-- FILTER_ACCEPT (R42). -/
def execFilterAccept (i : FilterId) (s : State) : Host.Outcome State Fault Refusal :=
  event (filterAccept i) s

/-- ENCODER_PULSE (R44, R194): a forward pulse is taken, any other is ignored. -/
def execEncoderPulse (k : Stand) (edge : PulseEdge) (s : State) : Host.Outcome State Fault Refusal :=
  event (fun s => if forwardPulse edge then endEvent (forwardAt k s) else s) s

end Sys2Proof.Machine
end

