-- ==== Sys2Proof/Machine/Timers.lean ====
section
/-! DEFINITION. The expiries of the stand and stream timers, the tick, and their commands: UPDATE_TIMER_EXPIRY,
NON_OVERLAP_EXPIRY, EQUALIZE_EXPIRY, HANDOVER_TIMER_EXPIRY, STREAM_TIMER_EXPIRY, FIRST_TICK, TICK. An expiry whose timer
has not run out does not happen: its command has no effect (log 2). -/

namespace Sys2Proof.Machine

/-! ## Expiries -/

/-- An update timer's expiry, when it is due (R88, R90). -/
def updateExpiry (k : Stand) (s : State) : State :=
  if (s.gap k).timer = some 0 then endEvent (expireUpdate k s) else s

/-- UPDATE_TIMER_EXPIRY (R90). -/
def execUpdateTimerExpiry (k : Stand) (s : State) : Host.Outcome State Fault Refusal :=
  event (updateExpiry k) s

/-- A non-overlap timer's expiry, when it is due: FAST_OPEN is asserted (R125). -/
def nonOverlapExpiry (k : Stand) (s : State) : State :=
  if (s.seq k).nonOverlap = some 0 then s.modSeq k fun q => { q with nonOverlap := none, fastOpen := true } else s

/-- NON_OVERLAP_EXPIRY (R125). -/
def execNonOverlapExpiry (k : Stand) (s : State) : Host.Outcome State Fault Refusal :=
  event (nonOverlapExpiry k) s

/-- An equalize timer's expiry, when it is due: the timer stops, and no notice is updated (R126). -/
def equalizeExpiry (k : Stand) (s : State) : State :=
  if (s.seq k).equalize = some 0 then s.modSeq k fun q => { q with equalize := none } else s

/-- EQUALIZE_EXPIRY (R126). -/
def execEqualizeExpiry (k : Stand) (s : State) : Host.Outcome State Fault Refusal :=
  event (equalizeExpiry k) s

/-- The end of a pending handover at its timer's expiry (R131, R132). -/
def expireHandover (k : Stand) (h : Handover) (s : State) : State :=
  evalScopes (endHandover k h.dir (unconfirmedState h (s.inSet k) (s.openCover k)) .deniedTimeout s)

/-- A handover timer's expiry, when it is due (R131). -/
def handoverExpiry (k : Stand) (s : State) : State :=
  match (s.seq k).handover with
  | some h => if h.remaining = 0 then endEvent (expireHandover k h s) else s
  | none => s

/-- HANDOVER_TIMER_EXPIRY (R131). -/
def execHandoverTimerExpiry (k : Stand) (s : State) : Host.Outcome State Fault Refusal :=
  event (handoverExpiry k) s

/-- The readings of a stream's channels at one moment, in the list's order (R182). -/
def readings (s : State) (chans : List Chan) : List Reading :=
  chans.map fun c => { ch := c, value := (s.chan c).value, state := (s.chan c).state, warn := (s.chan c).warn }

/-- The expiry of a stream's timer: it is reloaded, and the CHANNEL_PERIODIC notice is updated (R182). -/
def expireStream (i : StreamId) (s : State) : State :=
  let t := vget s.hlk.streams i
  let s := s.withHlk { s.hlk with streams := vset s.hlk.streams i { t with timer := some t.period } }
  updateNotice (.channelPeriodic i s.ms (readings s t.chans)) s

/-- A stream timer's expiry, when it is due (R182). -/
def streamExpiry (i : StreamId) (s : State) : State :=
  if (vget s.hlk.streams i).timer = some 0 then endEvent (expireStream i s) else s

/-- STREAM_TIMER_EXPIRY (R182). -/
def execStreamTimerExpiry (i : StreamId) (s : State) : Host.Outcome State Fault Refusal :=
  event (streamExpiry i) s

/-! ## The tick -/

/-- A timer counted down by 1: a stopped one stays stopped, and one that has run out waits at 0 for its expiry to be
taken. -/
def countTimer (t : Option Nat) : Option Nat := t.map (· - 1)

/-- A handover's remaining time counted down by 1 (R114). -/
def Handover.countDown (h : Handover) : Handover := { h with remaining := h.remaining - 1 }

/-- The timers of a stand counted down by 1 (R114). -/
def SeqRecord.countDown (q : SeqRecord) : SeqRecord :=
  { q with
    handover := q.handover.map Handover.countDown
    nonOverlap := countTimer q.nonOverlap
    equalize := countTimer q.equalize }

/-- The remaining time of a FRESH channel counted down by 1 (R32). -/
def Channel.countDown (c : Channel) : Channel :=
  if c.state = .fresh then { c with remaining := c.remaining - 1 } else c

/-- The ms count advanced and every running timer counted down by 1 (R32, R88, R114, R153, R182). -/
def countDown (s : State) : State :=
  { s with
    ms := s.ms + 1
    mch := vtab fun c => (s.chan c).countDown
    gce := vtab fun k => { s.gap k with timer := countTimer (s.gap k).timer }
    ssq := vtab fun k => (s.seq k).countDown
    hlk := { s.hlk with
      streams := vtab fun i =>
        { vget s.hlk.streams i with timer := countTimer (vget s.hlk.streams i).timer } } }

/-- A filter takes a sample (R42). Reaching the class count makes its accept due; a sample at the filtered level sets the
count back to 0. -/
def Filter.sample (f : Filter) (level : Bool) (classCount : Nat) : Filter :=
  if level = f.level then { f with count := 0, due := false }
  else { f with count := f.count + 1, due := decide (classCount ≤ f.count + 1) }

/-- Every filter samples its pin (R41, R42). -/
def sampleFilters (pins : InputPins) (s : State) : State :=
  let short := s.sch.config.shortCount
  s.withPlu { s.plu with
    pins := pins
    hmd := vtab fun k => (vget s.plu.hmd k).sample (pinActive pins (.hmd k)) short
    stop := vtab fun n => (vget s.plu.stop n).sample (pinActive pins (.stop n)) short
    panel := vtab fun k => (vget s.plu.panel k).sample (pinActive pins (.panel k)) s.sch.config.longCount }

/-- The filters of all inputs, in the order an overdue accept is taken (log 2). -/
def allFilters : List FilterId := allStands.map .hmd ++ allStops.map .stop ++ allStands.map .panel

/-- The expiries and accepts that the last tick made due and that no command has taken, taken in a fixed order before the
next tick (log 2). -/
def takeDue (s : State) : State :=
  let s := allFilters.foldl (fun s i => filterAccept i s) s
  let s := allChans.foldl (fun s c => channelExpiry c s) s
  let s := eachStand updateExpiry s
  let s := eachStand nonOverlapExpiry s
  let s := eachStand equalizeExpiry s
  let s := eachStand handoverExpiry s
  allStreams.foldl (fun s i => streamExpiry i s) s

/-! ## The first tick (R54, R55) -/

/-- A filter settled at a level. -/
def Filter.settled (level : Bool) : Filter := { level := level, count := 0, due := false }

/-- Every filter settles at its pin's level, and each stand's presence logic is set from its detector (R54, R55). -/
def settleInputs (pins : InputPins) (s : State) : State :=
  s.withPlu { s.plu with
    settled := true
    pins := pins
    hmd := vtab fun k => Filter.settled (pinActive pins (.hmd k))
    stop := vtab fun n => Filter.settled (pinActive pins (.stop n))
    panel := vtab fun k => Filter.settled (pinActive pins (.panel k))
    pres := vtab fun k =>
      { state := if pinActive pins (.hmd k) then .present else .absent, measurer := 0 } }

/-- A stop input settled active raises its key (R54). -/
def settleStop (pins : InputPins) (s : State) (n : StopNo) : State :=
  if pinActive pins (.stop n) then raiseKey false (.stopInput n) s else s

/-- The first tick after a reset: the filters settle, the trip matrix takes the settled strip-present flags (R139), the
STAND_STATE notices are updated, and then the stop inputs settled active are raised (R54, R55), both in ascending number
(DESIGN CHOICE, log 18). -/
def settle (pins : InputPins) (s : State) : State :=
  endEvent (allStops.foldl (settleStop pins) (eachStand standNotice (evalScopes (settleInputs pins (countDown s)))))

/-- FIRST_TICK (R54). A part that has settled has no first tick before it (log 8). -/
def execFirstTick (pins : InputPins) (s : State) : Host.Outcome State Fault Refusal :=
  event (fun s => if s.plu.settled then s else settle pins s) s

/-- A tick after the first (R42, R114). -/
def runTick (pins : InputPins) (s : State) : State := sampleFilters pins (countDown (takeDue s))

/-- TICK (R42). The tick that finds the part unsettled is its first (R54, log 8). -/
def execTick (pins : InputPins) (s : State) : Host.Outcome State Fault Refusal :=
  event (fun s => if s.plu.settled then runTick pins s else settle pins s) s

end Sys2Proof.Machine
end

