-- ==== Sys2Proof/Machine/Dispatch.lean ====
section
/-! DEFINITION. The meaning of every command: one arm for each row of the opcode table. -/

namespace Sys2Proof.Machine

def exec (i : Instr) (s : State) : Host.Outcome State Fault Refusal :=
  match i with
  | .powerOn edge => Sys2Proof.Machine.execPowerOn edge s
  | .resetPin lowNs edge => Sys2Proof.Machine.execResetPin lowNs edge s
  | .firstTick pins => Sys2Proof.Machine.execFirstTick pins s
  | .filterAccept input => Sys2Proof.Machine.execFilterAccept input s
  | .encoderPulse k edge => Sys2Proof.Machine.execEncoderPulse k edge s
  | .fieldByteReceived line stop => Sys2Proof.Machine.execFieldByteReceived line stop s
  | .fieldInterByteTimeout => Sys2Proof.Machine.execFieldInterByteTimeout s
  | .fieldFrame frame => Sys2Proof.Machine.execFieldFrame frame s
  | .freshnessExpiry ch => Sys2Proof.Machine.execFreshnessExpiry ch s
  | .updateTimerExpiry k => Sys2Proof.Machine.execUpdateTimerExpiry k s
  | .fieldOutTxEnd => Sys2Proof.Machine.execFieldOutTxEnd s
  | .nonOverlapExpiry k => Sys2Proof.Machine.execNonOverlapExpiry k s
  | .equalizeExpiry k => Sys2Proof.Machine.execEqualizeExpiry k s
  | .handoverTimerExpiry k => Sys2Proof.Machine.execHandoverTimerExpiry k s
  | .streamTimerExpiry n => Sys2Proof.Machine.execStreamTimerExpiry n s
  | .hostByteReceived line stop => Sys2Proof.Machine.execHostByteReceived line stop s
  | .hostInterByteTimeout => Sys2Proof.Machine.execHostInterByteTimeout s
  | .hostTxEnd => Sys2Proof.Machine.execHostTxEnd s
  | .unknownKindRequest kind tag body => Sys2Proof.Machine.execUnknownKindRequest kind tag body s
  | .identify tag body => Sys2Proof.Machine.execIdentify tag body s
  | .status tag body => Sys2Proof.Machine.execStatus tag body s
  | .configure tag body => Sys2Proof.Machine.execConfigure tag body s
  | .setAccept tag body => Sys2Proof.Machine.execSetAccept tag body s
  | .readAccept tag body => Sys2Proof.Machine.execReadAccept tag body s
  | .setActions tag body => Sys2Proof.Machine.execSetActions tag body s
  | .loadStand tag body => Sys2Proof.Machine.execLoadStand tag body s
  | .loadMill tag body => Sys2Proof.Machine.execLoadMill tag body s
  | .commit tag body => Sys2Proof.Machine.execCommit tag body s
  | .clearPending tag body => Sys2Proof.Machine.execClearPending tag body s
  | .readBank tag body => Sys2Proof.Machine.execReadBank tag body s
  | .arm tag body => Sys2Proof.Machine.execArm tag body s
  | .disarm tag body => Sys2Proof.Machine.execDisarm tag body s
  | .clearMill tag body => Sys2Proof.Machine.execClearMill tag body s
  | .setTrim tag body => Sys2Proof.Machine.execSetTrim tag body s
  | .stop tag body => Sys2Proof.Machine.execStop tag body s
  | .ackTrip tag body => Sys2Proof.Machine.execAckTrip tag body s
  | .restore tag body => Sys2Proof.Machine.execRestore tag body s
  | .handover tag body => Sys2Proof.Machine.execHandover tag body s
  | .readChannels tag body => Sys2Proof.Machine.execReadChannels tag body s
  | .readTrack tag body => Sys2Proof.Machine.execReadTrack tag body s
  | .readSegments tag body => Sys2Proof.Machine.execReadSegments tag body s
  | .readTrips tag body => Sys2Proof.Machine.execReadTrips tag body s
  | .setReports tag body => Sys2Proof.Machine.execSetReports tag body s
  | .setAux tag body => Sys2Proof.Machine.execSetAux tag body s
  | .softReset tag body => Sys2Proof.Machine.execSoftReset tag body s
  | .tick pins => Sys2Proof.Machine.execTick pins s

end Sys2Proof.Machine
end

