-- ==== Sys2Proof/Safety.lean ====
section
/-! DEFINITION. The terms that statements about the part use: how a reply leaves, which request a command carries, which
timers are due, and what holds of every state the part can be in. Nothing here is part of the machine. -/

namespace Sys2Proof.Machine

/-! ## The host line -/

/-- The next request is taken at once: no reset is held, and reply slot and hold place are empty (R171, R193). -/
def HostFree (s : State) : Prop := s.inReset = false ∧ s.hlk.slot = none ∧ s.hlk.held = none

/-- A reply composed with the slot empty: it begins transmission on an idle line, and else waits in the slot (R174). -/
def sendReply (f : HostFrame) (s : State) : State :=
  match s.hlk.tx with
  | none => s.withHlk { s.hlk with tx := some f }
  | some _ => s.withHlk { s.hlk with slot := some f }

/-- The reply of a request: its kind plus 0x80 and its tag (R173). -/
def reply (kind tag : Byte) (body : List Byte) (s : State) : State :=
  sendReply { kind := kind + 0x80, tag := tag, body := body } s

/-- What a taken request's reply did to the line between two states: begun on an idle line, and else composed into the
slot behind the frame in transmission (R171, R174). -/
def Replied (s t : State) (kind tag : Byte) (body : List Byte) : Prop :=
  match s.hlk.tx with
  | none => t.hlk.tx = some { kind := kind + 0x80, tag := tag, body := body } ∧ t.hlk.slot = none
  | some f => t.hlk.tx = some f ∧ t.hlk.slot = some { kind := kind + 0x80, tag := tag, body := body }

/-- The request that a command brings to R171, if it brings one. -/
def requestOf : Instr → Option HostFrame
  | .unknownKindRequest kind tag body => some { kind := kind, tag := tag, body := body }
  | .identify tag body => some { kind := 0x01, tag := tag, body := body }
  | .status tag body => some { kind := 0x02, tag := tag, body := body }
  | .configure tag body => some { kind := 0x03, tag := tag, body := body }
  | .setAccept tag body => some { kind := 0x04, tag := tag, body := body }
  | .readAccept tag body => some { kind := 0x05, tag := tag, body := body }
  | .setActions tag body => some { kind := 0x06, tag := tag, body := body }
  | .loadStand tag body => some { kind := 0x07, tag := tag, body := body }
  | .loadMill tag body => some { kind := 0x08, tag := tag, body := body }
  | .commit tag body => some { kind := 0x09, tag := tag, body := body }
  | .clearPending tag body => some { kind := 0x0A, tag := tag, body := body }
  | .readBank tag body => some { kind := 0x0B, tag := tag, body := body }
  | .arm tag body => some { kind := 0x0C, tag := tag, body := body }
  | .disarm tag body => some { kind := 0x0D, tag := tag, body := body }
  | .clearMill tag body => some { kind := 0x0E, tag := tag, body := body }
  | .setTrim tag body => some { kind := 0x0F, tag := tag, body := body }
  | .stop tag body => some { kind := 0x10, tag := tag, body := body }
  | .ackTrip tag body => some { kind := 0x11, tag := tag, body := body }
  | .restore tag body => some { kind := 0x12, tag := tag, body := body }
  | .handover tag body => some { kind := 0x13, tag := tag, body := body }
  | .readChannels tag body => some { kind := 0x14, tag := tag, body := body }
  | .readTrack tag body => some { kind := 0x15, tag := tag, body := body }
  | .readSegments tag body => some { kind := 0x16, tag := tag, body := body }
  | .readTrips tag body => some { kind := 0x17, tag := tag, body := body }
  | .setReports tag body => some { kind := 0x18, tag := tag, body := body }
  | .setAux tag body => some { kind := 0x19, tag := tag, body := body }
  | .softReset tag body => some { kind := 0x1A, tag := tag, body := body }
  | .powerOn _ => none
  | .resetPin _ _ => none
  | .firstTick _ => none
  | .filterAccept _ => none
  | .encoderPulse _ _ => none
  | .fieldByteReceived _ _ => none
  | .fieldInterByteTimeout => none
  | .fieldFrame _ => none
  | .freshnessExpiry _ => none
  | .updateTimerExpiry _ => none
  | .fieldOutTxEnd => none
  | .nonOverlapExpiry _ => none
  | .equalizeExpiry _ => none
  | .handoverTimerExpiry _ => none
  | .streamTimerExpiry _ => none
  | .hostByteReceived _ _ => none
  | .hostInterByteTimeout => none
  | .hostTxEnd => none
  | .tick _ => none

/-- The body length that a request requires (R172, and the catalogue of section 8.5); none for SET_ACCEPT and SET_ACTIONS,
whose lengths depend on the body, and for a KIND that names no request. -/
def requiredLength (kind : Byte) : Option Nat :=
  ([(0x01, 0), (0x02, 0), (0x03, 50), (0x05, 2), (0x07, 53), (0x08, 38), (0x09, 0), (0x0A, 0), (0x0B, 2), (0x0C, 0),
    (0x0D, 0), (0x0E, 0), (0x0F, 3), (0x10, 0), (0x11, 1), (0x12, 1), (0x13, 3), (0x14, 2), (0x15, 1), (0x16, 3),
    (0x17, 1), (0x18, 49), (0x19, 4), (0x1A, 0)] : List (Byte × Nat)).lookup kind

/-- The bytes of a host frame received one after another, each with its start bit and a high stop bit. -/
def receiveHost : List Byte → State → Host.Outcome State Fault Refusal
  | [], s => .next s
  | b :: rest, s =>
    match exec (.hostByteReceived (lineBits b) true) s with
    | .next t => receiveHost rest t
    | .fault f => .fault f
    | .refused r => .refused r

/-- The bytes of a field frame received one after another, each with its start bit and a high stop bit. -/
def receiveField : List Byte → State → Host.Outcome State Fault Refusal
  | [], s => .next s
  | b :: rest, s =>
    match exec (.fieldByteReceived (lineBits b) true) s with
    | .next t => receiveField rest t
    | .fault f => .fault f
    | .refused r => .refused r

/-- A frame that passes the checks of R22 and whose winning entry is `n` (R24, R187). -/
def FrameFor (s : State) (frame : List Byte) (n : EntryNo) : Prop :=
  frame.length = 9 ∧ frame.head? = some 0x5A ∧ fieldCheck frame = true ∧ (fieldFields frame).quantity ≠ 0 ∧
    (fieldFields frame).quantity ≠ 15 ∧
    winningEntry s.flc.accept (fieldFields frame).tag (fieldFields frame).quantity = some n

/-- The channel that an acceptance entry names. -/
def entryChannel (s : State) (n : EntryNo) : Chan := (vget s.flc.accept n).channel

/-- A bank that passes R12: a mill record, a record for every stand of its active set, and the four gaps of every record in
order. -/
def Validated (b : Bank) : Prop :=
  (∃ m, b.mill = some m ∧ ∀ k ∈ m.activeSet, vget b.stands k ≠ none) ∧
    ∀ k r, vget b.stands k = some r → r.sMin ≤ r.sPreset ∧ r.sPreset ≤ r.sMax ∧ r.sMax ≤ r.sOpen

/-! ## Parameters out of range -/

/-- The parameter that a request of KIND 0x0B, 0x0F or 0x11 to 0x17 fails on, by its number in the request's parameter list;
0 for a run of channels (R11, R34, R82, R83, R105, R127, R129, R156, R159, R173). Of two that fail it is the first
(log 23). -/
def BadParameter (q : HostFrame) (field : Nat) : Prop :=
  q.kind = 0x0B ∧ q.body.length = 2 ∧
      (1 < rd8 q.body 0 ∧ field = 1 ∨ rd8 q.body 0 ≤ 1 ∧ 8 < rd8 q.body 1 ∧ field = 2) ∨
    q.kind = 0x0F ∧ q.body.length = 3 ∧ (rd8 q.body 0 = 0 ∨ 8 < rd8 q.body 0) ∧ field = 1 ∨
    q.kind = 0x11 ∧ q.body.length = 1 ∧ 70 < rd8 q.body 0 ∧ rd8 q.body 0 ≠ 255 ∧ field = 1 ∨
    q.kind = 0x12 ∧ q.body.length = 1 ∧ 8 < rd8 q.body 0 ∧ field = 1 ∨
    q.kind = 0x13 ∧ q.body.length = 3 ∧
      ((rd8 q.body 0 = 0 ∨ 8 < rd8 q.body 0) ∧ field = 1 ∨
        1 ≤ rd8 q.body 0 ∧ rd8 q.body 0 ≤ 8 ∧ rd8 q.body 1 ≠ 1 ∧ rd8 q.body 1 ≠ 2 ∧ field = 2) ∨
    q.kind = 0x14 ∧ q.body.length = 2 ∧
      (31 < rd8 q.body 0 ∨ rd8 q.body 1 = 0 ∨ 32 < rd8 q.body 0 + rd8 q.body 1) ∧ field = 0 ∨
    q.kind = 0x15 ∧ q.body.length = 1 ∧ (rd8 q.body 0 = 0 ∨ 9 < rd8 q.body 0) ∧ field = 1 ∨
    q.kind = 0x16 ∧ q.body.length = 3 ∧ (rd8 q.body 2 = 0 ∨ 8 < rd8 q.body 2) ∧ field = 2 ∨
    q.kind = 0x17 ∧ q.body.length = 1 ∧ (rd8 q.body 0 = 0 ∨ 71 < rd8 q.body 0) ∧ field = 1

/-- The fields of a stand record in the order of R4's table, each as its value, its lowest and its highest, field 1 by the
number `code` that a body carries for it. -/
def standFields (code : Nat) (r : StandRecord) : List (Int × Int × Int) :=
  [((code : Int), 0, 2), (r.sMin, -10000, 80000), (r.sMax, -10000, 80000), (r.sPreset, -10000, 80000),
    (r.sOpen, -10000, 80000), (r.z, -5000, 5000), (r.m, 1000, 10000), (r.c, 1024, 4096), (r.kgm, 0, 256), (r.kff, 0, 256),
    (r.db, 0, 255), (r.r, 1, 2000), (r.trimMax, 0, 2000), (r.fMax, 0, 60000), (r.pF, 1, 8), (r.w, 1, 5000), (r.pW, 1, 8),
    (r.tCtl, 2, 50), (r.hTgt, 0, 65000), (r.lSeg, 100, 10000), (r.e, 1000, 1000000), (r.lockDelay, 1, 8),
    (r.tConf, 100, 20000), (r.ms, 0, 256), (r.iLim, 0, 5000), (r.tNo, 0, 50), (r.tEq, 0, 200)]

/-- Fields 3 to 8 of the mill record that a LOAD_MILL body carries, in the order of R6's table, each as its value, its lowest
and its highest (R178). -/
def millFields (body : List Byte) : List (Nat × Nat × Nat) :=
  [(rd8 body 30, 1, 20), (rd16 body 31, 0, 65000), (rd8 body 33, 0, 1), (rd16 body 34, 0, 256), (rd8 body 36, 0, 255),
    (rd8 body 37, 0, 24)]

/-- The span table entry for position `i` + 2 of a LOAD_MILL body has N, T and H in their ranges (R6, R178). -/
def SpanInRange (body : List Byte) (i : Fin 7) : Prop :=
  (1 ≤ rd8 body (9 + 3 * i.val) ∧ rd8 body (9 + 3 * i.val) ≤ 20) ∧
    (1 ≤ rd8 body (10 + 3 * i.val) ∧ rd8 body (10 + 3 * i.val) ≤ 4) ∧
    1 ≤ rd8 body (11 + 3 * i.val) ∧ rd8 body (11 + 3 * i.val) ≤ 4

/-- The first item of the stream at index `o` of a SET_REPORTS body that fails, by its field number: 1 the enabled flag, 2 the
count, 2 + n the channel at place n of the counted ones (R183). -/
def StreamFails (body : List Byte) (o field : Nat) : Prop :=
  1 < rd8 body o ∧ field = 1 ∨
    rd8 body o ≤ 1 ∧ (rd8 body (o + 1) = 0 ∨ 8 < rd8 body (o + 1)) ∧ field = 2 ∨
    rd8 body o ≤ 1 ∧ 1 ≤ rd8 body (o + 1) ∧ rd8 body (o + 1) ≤ 8 ∧
      ∃ n, n < rd8 body (o + 1) ∧ 31 < rd8 body (o + 2 + n) ∧ (∀ l, l < n → rd8 body (o + 2 + l) ≤ 31) ∧ field = n + 3

/-- Byte `i` of a SET_AUX body is out of its range: a mode above 3 or a level above 1 (R184). -/
def AuxItemBad (body : List Byte) (i : Nat) : Prop := (if i % 2 = 0 then 3 else 1) < rd8 body i

/-! ## The strip -/

/-- The record `g` with the stamp of stand `k`, TRIPPED or not (R74). -/
def stampOf (k : Stand) (s : State) (tripped : Bool) (g : Segment) : Segment :=
  let h := if tripped || (s.gap k).stale then none else (s.gap k).hGm
  { g with
    lastStand := some k
    estH := h
    dev := if (s.gap k).locked then h.map fun x => (x : Int) - (s.gap k).hLock else none
    gapRef := (s.gap k).sRef
    flags := { g.flags with thread := !(s.gap k).locked, limited := (s.gap k).limited, trip := tripped } }

/-- The push of record `g` onto the span into stand `d`: what the span then holds, and the record that the push retires, `g`
itself behind a tail mark (R76), or the oldest of a full span (R62). -/
def pushOnto (d : Stand) (g : Segment) (s : State) : List Segment × Option Segment :=
  if vget s.stk.tailMarks d then
    (s.span (spanInto d), some { g with flags := { g.flags with discarded := true } })
  else
    match s.span (spanInto d) with
    | [] => ([g], none)
    | old :: rest =>
      if rest.length < 23 then (old :: rest ++ [g], none)
      else (rest ++ [g], some { old with flags := { old.flags with lost := true } })

/-- The push step of stand `k` toward stand `d`, the bite holding `bite`: what the span into `d` then holds, and the record
that the push retires (R73, R74). A starved bite pushes nothing. -/
def pushStep (k d : Stand) (bite : Option Segment) (s : State) : List Segment × Option Segment :=
  match bite with
  | some g => pushOnto d (stampOf k s (decide ((s.seq k).state = .tripped)) g) s
  | none => (s.span (spanInto d), none)

/-- The records of the span into stand `k` as a tail there gives them up, oldest first (R75). -/
def givenUp (l : List Segment) : List Segment := l.map fun g => { g with flags := { g.flags with discarded := true } }

/-- The tracker with the records `gone` retired, first one first: the ring keeps the last 32, and the count saturates (R61,
R64). -/
def retireAll (gone : List Segment) (t : Tracker) : Tracker :=
  { t with
    ring := (t.ring ++ gone).drop ((t.ring ++ gone).length - 32)
    retired := min 65535 (t.retired + gone.length) }

/-- A record of coil number `coil` allocated at stand `k` in `s`: every field as R70 states, and the next segment number where
no held record bears it (R59). -/
def AllocatedAt (coil : Nat) (k : Stand) (s : State) (g : Segment) : Prop :=
  g.coil = coil ∧ (s.stk.nextSeg ∉ s.stk.heldNumbers → g.seg = s.stk.nextSeg) ∧
    (∀ m, s.millRec = some m →
      (m.entrySource = .gauge ∧ (s.chan 24).state = .fresh →
        g.entrySrc = .gauge ∧ (g.entryH : Int) = max 0 (min 65000 (s.chan 24).value)) ∧
      (m.entrySource = .schedule ∨ (s.chan 24).state ≠ .fresh → g.entrySrc = .schedule ∧ g.entryH = m.hEntry)) ∧
    g.dev = none ∧ g.flags = { thread := false, limited := false, trip := false, lost := false, discarded := false } ∧
    g.gapRef = (s.gap k).sRef ∧ g.lastStand = none ∧ g.estH = none ∧ g.measH = none

/-- What the arrival of record `g` at the exit gauge leaves in `t`, `m` being the mill record and `target` the last active
stand's target thickness: EXIT_STALE as channel 25 has it, the monitor hold count, the integrators, and the record in the
retired ring with its meas_h (R64, R77, R78, R107, R108, R149). -/
def ExitArrival (g : Segment) (m : MillRecord) (target : Nat) (s t : State) : Prop :=
  ∃ meas : Option Nat,
    meas = (if (s.chan 25).state = .fresh then some (max 0 (min 65000 (s.chan 25).value)).toNat else none) ∧
    t.present .exitStale = meas.isNone ∧ t.stk.ring = (s.stk.ring ++ [{ g with measH := meas }]).drop (s.stk.ring.length - 31) ∧
    t.stk.retired = min 65535 (s.stk.retired + 1) ∧
    (meas = none → t.stk.hold = s.stk.hold ∧ ∀ j, (t.gap j).integ = (s.gap j).integ) ∧
    ∀ (h : Nat) (e : Int), meas = some h → e = (h : Int) - target →
      (0 < s.stk.hold → t.stk.hold = s.stk.hold - 1 ∧ ∀ j, (t.gap j).integ = (s.gap j).integ) ∧
      (s.stk.hold = 0 → e.natAbs ≤ m.mdb → t.stk.hold = 0 ∧ ∀ j, (t.gap j).integ = (s.gap j).integ) ∧
      (s.stk.hold = 0 → m.mdb < e.natAbs →
        t.stk.hold = m.nHold ∧
        ∀ j, (t.gap j).integ = match s.record j with
          | some r =>
            if s.inSet j = true ∧ (s.seq j).state = .roll ∧ (s.seq j).frozen = false ∧ 0 < r.ms then
              max (-(r.iLim : Int)) (min r.iLim ((s.gap j).integ + roundDiv (e * m.km * r.ms) 65536))
            else (s.gap j).integ
          | none => (s.gap j).integ)

/-- What a mill-empty event in `s` leaves in `t`, `before` being the stands' states as it begins (R14, R15, R16, R80): every
tail mark is clear, and the mill is ARMED, or IDLE with a LOCAL or HANDOVER stand in the active set. Without a COMMITTED bank
the stands in TAIL go to SETUP; with one the swap comes first and places every stand. -/
def MillEmptied (before : Stand → StandState) (s t : State) : Prop :=
  (∀ k, vget t.stk.tailMarks k = false) ∧
    t.stk.mill = (if ∃ k, t.inSet k = true ∧ (before k = .local_ ∨ before k = .handover) then .idle else .armed) ∧
    (s.sch.pendingBank.state ≠ .committed →
      t.sch = s.sch ∧ ∀ k, (t.seq k).state = if before k = .tail then .setup else before k) ∧
    (s.sch.pendingBank.state = .committed →
      t.sch.active = { state := .valid, bank := s.sch.pendingBank.bank, serial := s.sch.pendingBank.serial } ∧
      t.sch.pendingBank = { state := .empty, bank := Bank.none, serial := 0 } ∧
      (∀ k, (t.gap k).trim = 0 ∧ (t.gap k).integ = 0 ∧ (t.gap k).timer = (t.record k).map (·.tCtl)) ∧
      (∀ k, vget t.plu.acc k = 0) ∧ t.stk.hold = 0 ∧
      ∀ k, (t.seq k).state =
        if before k = .local_ ∨ before k = .handover ∨ before k = .tripped then before k
        else if t.inSet k = false then .out
        else if s.openCover k = true then .tripped
        else .setup)

/-! ## Trips -/

/-- What a lapse of a channel of stand `k`, or its entry into THREAD with one not FRESH, leaves in `t`: a SAMPLE_STALE record,
created with the action of its row, re-raised where it was HELD, and else as it was (R144, R154). An action that opens the
stand ends the scope, and leaves the new record HELD (R139). -/
def StaleRecorded (k : Stand) (s t : State) : Prop :=
  ∃ q, t.recordOf (.stand .sampleStale k) = some q ∧
    match s.recordOf (.stand .sampleStale k) with
    | none =>
      q.action = vget s.sch.config.actions 5 ∧ q.occ = 1 ∧ q.stampMs = s.ms ∧
        q.state = (if q.action = .note ∨ q.action = .freeze then .raised else .held)
    | some r => q = if r.state = .held then { r with state := .raised, occ := min 255 (r.occ + 1) } else r

/-- No count handed from a span can create a record that opens a stand: each of the three span conditions has an action below
OPEN, or a record that is not ACKED, or lies out of scope (R146, R147, R154). -/
def NoSpanTrip (s : State) : Prop :=
  ∀ c j, c = StandCond.headOverdue ∨ c = .loopGrow ∨ c = .loopPull →
    (vget s.sch.config.actions (Key.stand c j).row = .note ∨ vget s.sch.config.actions (Key.stand c j).row = .freeze) ∨
      (∃ r, s.recordOf (.stand c j) = some r ∧ r.state ≠ .acked) ∨ scopeHolds s (.stand c j) = false

/-! ## Due events -/

/-- No accept and no expiry is due (log 2). -/
def NothingDue (s : State) : Prop :=
  (∀ i, (s.filter i).due = false) ∧ (∀ c, (s.chan c).expired = false) ∧ (∀ k, (s.gap k).timer ≠ some 0) ∧
    (∀ k, (s.seq k).nonOverlap ≠ some 0) ∧ (∀ k, (s.seq k).equalize ≠ some 0) ∧
    (∀ k h, (s.seq k).handover = some h → h.remaining ≠ 0) ∧ ∀ i, (vget s.hlk.streams i).timer ≠ some 0

/-! ## What holds of every state -/

/-- Trip table and stop line (R153, R161, R162): outside a held reset the line is asserted exactly while a MILL_STOP record
exists; a key has at most one record, at most one record carries the first-out mark, and occurrences lie in 1 to 255. -/
def TableOk (s : State) : Prop :=
  (s.inReset = false → (s.tmx.stopLine = true ↔ ∃ r ∈ s.tmx.table, r.action = .millStop)) ∧
    (s.tmx.table.map (·.key)).Nodup ∧
    (s.tmx.table.filter (·.firstOut)).length ≤ 1 ∧ ∀ r ∈ s.tmx.table, 1 ≤ r.occ ∧ r.occ ≤ 255

/-- Scopes (R139, R141): a present key is in scope, a persistence counter out of scope is 0, and none exceeds 8. -/
def ScopesOk (s : State) : Prop :=
  (∀ key, s.present key = true → scopeHolds s key = true) ∧
    (∀ k, scopeHolds s (.stand .forceHigh k) = false → vget s.tmx.forceCnt k = 0) ∧
    (∀ k, scopeHolds s (.stand .gapWindow k) = false → vget s.tmx.gapCnt k = 0) ∧
    ∀ k, vget s.tmx.forceCnt k ≤ 8 ∧ vget s.tmx.gapCnt k ≤ 8

/-- Report queue (R179, R181): one notice at most for a kind and source, each of an enabled kind, with occurrence 1 to
255. -/
def QueueOk (s : State) : Prop :=
  (s.hlk.queue.map fun n => n.body.source).Nodup ∧
    ∀ n ∈ s.hlk.queue, kindEnabled s.hlk.mask n.body.source = true ∧ 1 ≤ n.occ ∧ n.occ ≤ 255

/-- Transmit line (R171, R174): an idle line leaves nothing waiting, and a request is held only behind a full slot. -/
def LineOk (s : State) : Prop :=
  (s.hlk.tx = none → s.hlk.slot = none ∧ s.hlk.queue = []) ∧ (s.hlk.held ≠ none → s.hlk.slot ≠ none)

/-- The part runs: no reset is held, and the transmit line leaves nothing waiting while it is idle (R174, R193). -/
def Running (s : State) : Prop := s.inReset = false ∧ LineOk s

/-- A held reset holds every block at its power-on value, the strap code in force kept until the release (R161, R193). -/
def HeldOk (s : State) : Prop :=
  s.inReset = true →
    s = { State.cleared s.hlk.straps with resets := s.resets, freeIx := s.freeIx, pending := s.pending }

/-- Sequencer record of a stand (R114, R125, R126). -/
def SeqOk (s : State) (k : Stand) : Prop :=
  ((s.seq k).state = .handover ↔ (s.seq k).handover ≠ none) ∧
    ((s.seq k).localReq = true ↔ (s.seq k).state = .handover) ∧
    (∀ h, (s.seq k).handover = some h →
      match h.dir with
      | .toLocal => h.prior = some .out ∨ h.prior = some .setup ∨ h.prior = some .ready ∨ h.prior = some .tripped
      | .toCoord => h.prior = none) ∧
    ((s.seq k).equalize ≠ none → (s.seq k).state = .setup ∨ (s.seq k).state = .ready) ∧
    ((s.seq k).fastOpen = true ∨ (s.seq k).nonOverlap ≠ none ↔
      (s.seq k).state = .tripped ∨
        ((s.seq k).state = .out ∨ (s.seq k).state = .local_ ∨ (s.seq k).state = .handover) ∧
          ∃ r ∈ s.tmx.table, r.action = .millStop) ∧
    ¬((s.seq k).fastOpen = true ∧ (s.seq k).nonOverlap ≠ none) ∧
    ((s.seq k).frozen = true ↔ ∃ r ∈ s.tmx.table, r.action = .freeze ∧ r.covers k = true)

/-- Mill and stands (R117, R124, R134): THREAD, ROLL and TAIL belong to stands of the active set in a coil; no stand of the
active set is OUT; and none is LOCAL or in HANDOVER but in IDLE. -/
def PassOk (s : State) : Prop :=
  (∀ k, (s.seq k).state = .thread ∨ (s.seq k).state = .roll ∨ (s.seq k).state = .tail →
      (s.stk.mill = .rolling ∨ s.stk.mill = .tailout) ∧ s.inSet k = true) ∧
    (∀ k, s.inSet k = true → (s.seq k).state ≠ .out) ∧
    (∀ k, s.stk.mill ≠ .idle → s.inSet k = true → (s.seq k).state ≠ .local_ ∧ (s.seq k).state ≠ .handover) ∧
    (∀ k h st, (s.seq k).handover = some h → h.prior = some st →
      st = .out ∨ st = .setup ∨ st = .ready ∨ st = .tripped) ∧
    ∀ k h, (s.seq k).handover = some h → (s.seq k).state = .handover

/-- Coil balance (R60, R61, R79): allocated is held plus retired until a counter saturates; outside a coil nothing is held;
a record lies in a bite of the active set with strip present alone; and before the first tick no strip is present and no
accept is due (R55). -/
def BalanceOk (s : State) : Prop :=
  (s.stk.allocated < 65535 → s.stk.allocated = s.stk.heldCount + s.stk.retired) ∧ s.stk.allocated ≤ 65535 ∧
    s.stk.retired ≤ 65535 ∧ (s.stk.mill = .idle ∨ s.stk.mill = .armed → s.stk.heldCount = 0) ∧
    (∀ k, vget s.stk.bites k ≠ none → s.inSet k = true ∧ s.stripPresent k = true) ∧
    (s.plu.settled = false → (∀ k, s.stripPresent k = false) ∧ ∀ i, (s.filter i).due = false)

/-- Capacities of the tracker (R61, R62, R64, R78). -/
def CapacityOk (s : State) : Prop :=
  (∀ j, (s.span j).length ≤ 24) ∧ s.stk.ring.length ≤ 32 ∧ 1 ≤ s.stk.nextSeg ∧ s.stk.nextSeg ≤ 65535

/-- Field-out (R36, R37, R38): an idle line leaves no setpoint waiting, and no setpoint waits for a stand without a tag or a
record, or in LOCAL or HANDOVER. -/
def SlotsOk (s : State) : Prop :=
  (s.flc.tx = none → ∀ k, vget s.flc.slots k = none) ∧
    (∀ k, vget s.sch.config.tags k = 0 ∨ s.record k = none → vget s.flc.slots k = none) ∧
    (∀ k, (s.seq k).state = .local_ ∨ (s.seq k).state = .handover → vget s.flc.slots k = none) ∧
    ∀ k, (s.seq k).handover ≠ none → (s.seq k).state = .handover

/-- A bank whose records are in their ranges (R4, R6). -/
def RangesOk (b : Bank) : Prop :=
  (∀ m, b.mill = some m → m.inRange = true) ∧ ∀ k r, vget b.stands k = some r → r.inRange = true

/-- Banks and serials (R1, R2, R12). -/
def BanksOk (s : State) : Prop :=
  RangesOk s.sch.active.bank ∧ RangesOk s.sch.pendingBank.bank ∧
    (match s.sch.active.state with
      | .invalid => s.sch.active.bank = Bank.none ∧ s.sch.active.serial = 0
      | .valid => validationFault s.sch.active.bank = none ∧ 1 ≤ s.sch.active.serial ∧ s.sch.active.serial ≤ 65535) ∧
    (match s.sch.pendingBank.state with
      | .empty => s.sch.pendingBank = PendingBank.none
      | .editing => s.sch.pendingBank.serial = 0
      | .committed =>
        validationFault s.sch.pendingBank.bank = none ∧ 1 ≤ s.sch.pendingBank.serial ∧
          s.sch.pendingBank.serial ≤ 65535 ∧ s.sch.pendingBank.serial ≠ s.sch.active.serial ∧
          s.sch.pendingBank.serial ≠ s.sch.counter) ∧
    1 ≤ s.sch.counter ∧ s.sch.counter ≤ 65535 ∧ s.sch.counter ≠ s.sch.active.serial

/-- Gap record of a stand against its record (R88, R105, R108): the update timer runs exactly for a record, trim and
integrator lie within its limits, and are 0 without one. -/
def GapOk (s : State) (k : Stand) : Prop :=
  match s.record k with
  | some r =>
    (∃ n, (s.gap k).timer = some n ∧ n ≤ r.tCtl) ∧ (s.gap k).trim.natAbs ≤ r.trimMax ∧
      (s.gap k).integ.natAbs ≤ r.iLim
  | none => (s.gap k).timer = none ∧ (s.gap k).trim = 0 ∧ (s.gap k).integ = 0

/-- Presence logic of a stand against its filter (R47), and the marker of a due accept against the sample (log 2). -/
def PresenceOk (s : State) : Prop :=
  (∀ k, (s.presence k).state = .present ↔ (s.filter (.hmd k)).level = true) ∧
    (∀ k, (s.presence k).state ≠ .dropout → (s.presence k).measurer = 0) ∧
    ∀ i, (s.filter i).due = true → pinActive s.plu.pins i ≠ (s.filter i).level

/-- Channel record (R28 to R32, R35): EMPTY exactly until a first frame, and a remaining time only while FRESH. -/
def ChannelOk (s : State) (c : Chan) : Prop :=
  ((s.chan c).state = .empty ↔ (s.chan c).lastSeq = none) ∧ ((s.chan c).lastSeq = none ↔ (s.chan c).hit = none) ∧
    ((s.chan c).state = .empty → (s.chan c).value = 0 ∧ (s.chan c).prev = 0 ∧ (s.chan c).warn = false) ∧
    ((s.chan c).state ≠ .fresh → (s.chan c).remaining = 0)

/-- Assemblers (R21, R169): the bytes held are those of a frame begun and not complete. -/
def AssemblersOk (s : State) : Prop :=
  (∀ held, s.flc.asm = .collecting held → held.head? = some 0x5A ∧ held.length ≤ 8) ∧
    ∀ len held, s.hlk.rx = .collecting len held →
      2 ≤ len.toNat ∧ len.toNat ≤ 250 ∧ held.length ≤ len.toNat + 1

/-- Configuration and streams (R17, R152, R182): every item in its range, rows 0 to 2 of the action table fixed, and a
stream's timer running exactly while it is enabled. -/
def ConfigOk (s : State) : Prop :=
  2 ≤ s.sch.config.shortCount ∧ s.sch.config.shortCount ≤ 15 ∧ 20 ≤ s.sch.config.longCount ∧
    s.sch.config.longCount ≤ 250 ∧
    (∀ c, 1 ≤ vget s.sch.config.freshness c ∧ vget s.sch.config.freshness c ≤ 255) ∧
    (∀ n : Fin 12, n.val ≤ 2 → vget s.sch.config.actions n = .millStop) ∧
    ∀ i, (10 ≤ (vget s.hlk.streams i).period ∧ (vget s.hlk.streams i).period ≤ 10000) ∧
      (1 ≤ (vget s.hlk.streams i).chans.length ∧ (vget s.hlk.streams i).chans.length ≤ 8) ∧
      ((vget s.hlk.streams i).timer ≠ none ↔ (vget s.hlk.streams i).enabled = true)

end Sys2Proof.Machine
end

