-- ==== Sys2Proof/Certificates/Slice0/Obligations.lean ====
section
/-! DEFINITION. The statements for the provers. -/

open Sys2Proof Sys2Proof.Machine

/-! ## The machine -/

/-- A step takes the command at the front of the queue and runs `exec` on it with the queue's rest; on an empty queue the
part idles (the model's choice, log 1). -/
def Obligations.StepRunsFrontCommand : Prop :=
  ∀ (c : Instr) (s : State),
    step { s with pending := c :: s.pending } = exec c s ∧ (s.pending = [] → step s = .next s)

/-- No command stops the part, and none touches the queue of those behind it (the queue is the model's, log 1). -/
def Obligations.EveryCommandGoesOn : Prop :=
  ∀ (c : Instr) (s : State), ∃ t, exec c s = .next t ∧ t.pending = s.pending

/-! ## Resets and ticks -/

/-- POWER_ON, and a RESET_PIN of at least 1 µs, hold the part in reset while their source holds, and the release of the last
source leaves the part as `State.reset` with the straps sampled (R166, R193); a shorter pulse leaves it as it was. While a
reset is held the stop line is asserted, FAST_OPEN and LOCAL_REQ are low, the AUX pins are high-impedance and both transmit
lines idle high (R193), and the held blocks take no other command; a release without its hold is the whole reset (inferences
of the model's, log 20). The stop line is asserted low, and the FAST_OPEN and LOCAL_REQ outputs are high when asserted
(R194). The waiting commands and the free-value counter are the model's own (log 1, log 9). -/
def Obligations.PowerOnAndResetPin : Prop :=
  ∀ (straps : BitVec 2) (lowNs : Nat) (held : ResetHold → State) (s t : State),
    (∀ r, held r = { State.cleared s.hlk.straps with resets := r, freeIx := s.freeIx, pending := s.pending }) →
    t = { State.reset with
          hlk := { State.reset.hlk with straps := straps }, freeIx := s.freeIx, pending := s.pending } →
      (lowNs < 1000 → ∀ edge, exec (.resetPin lowNs edge) s = .next s) ∧
      exec (.powerOn .hold) s = .next (held { supply := true, pin := s.resets.pin }) ∧
      exec (.powerOn (.release straps)) s =
        .next (if s.resets.pin = true then held { supply := false, pin := true } else t) ∧
      (1000 ≤ lowNs →
        exec (.resetPin lowNs .hold) s = .next (held { supply := s.resets.supply, pin := true }) ∧
          exec (.resetPin lowNs (.release straps)) s =
            .next (if s.resets.supply = true then held { supply := true, pin := false } else t)) ∧
      (s.resets.supply = true ∨ s.resets.pin = true →
        ∀ c, (∀ edge, c ≠ .powerOn edge) → (∀ ns edge, c ≠ .resetPin ns edge) → exec c s = .next s) ∧
      (∀ r k i, (held r).stopLinePin = .low ∧ (held r).fastOpenPin k = .low ∧ (held r).localReqPin k = .low ∧
        (held r).auxPin i = .highZ ∧ ∀ n, (held r).hostTxPin n = .high ∧ (held r).fieldOutPin n = .high) ∧
      (∀ k i, t.stopLinePin = .low ∧ t.fastOpenPin k = .high ∧ t.localReqPin k = .low ∧ t.auxPin i = .highZ) ∧
      s.stopLinePin = (if s.tmx.stopLine = true then .low else .high) ∧
      ∀ k, s.fastOpenPin k = (if (s.seq k).fastOpen = true then .high else .low) ∧
        s.localReqPin k = (if (s.seq k).localReq = true then .high else .low)

/-- `State.reset` meets every invariant that the statements below say every step keeps, and holds what a power-on leaves,
block by block (R17, R19, R27, R35, R40, R54, R55, R84, R111, R136, R163, R182, R185). The straps, the input pins until the
first tick, and `freeIx` are the model's (log 3, log 4, log 9) and are not among these values. -/
def Obligations.ResetState : Prop :=
  let s := State.reset
  (s.sch.active.state = .invalid ∧ s.sch.active.serial = 0 ∧ s.sch.pendingBank.state = .empty ∧
      s.sch.pendingBank.serial = 0 ∧ s.sch.counter = 1 ∧
      (∀ b, b = s.sch.active.bank ∨ b = s.sch.pendingBank.bank → b.mill = none ∧ ∀ k, vget b.stands k = none) ∧
      s.sch.config.shortCount = 3 ∧ s.sch.config.longCount = 50 ∧ (∀ k, vget s.sch.config.tags k = 0) ∧
      (∀ c, vget s.sch.config.freshness c = 20) ∧
      s.sch.config.actions =
        #v[.millStop, .millStop, .millStop, .open_, .open_, .freeze, .millStop, .millStop, .millStop, .freeze, .millStop,
          .note]) ∧
    ((∀ n, vget s.flc.accept n = { enabled := false, tag := 0, mask := 0, quantity := 0, channel := 0 }) ∧
      s.flc.asm = .hunting ∧ s.flc.tx = none ∧ (∀ k, vget s.flc.slots k = none) ∧ ∀ k, vget s.flc.seqs k = 0) ∧
    (∀ c, s.chan c =
      { value := 0, prev := 0, state := .empty, warn := false, lastSeq := none, hit := none, remaining := 0 }) ∧
    (s.plu.settled = false ∧ (∀ i, s.filter i = { level := false, count := 0, due := false }) ∧
      (∀ k, vget s.plu.acc k = 0) ∧ ∀ k, s.presence k = { state := .absent, measurer := 0 }) ∧
    (s.stk.mill = .idle ∧ s.stk.coil = 0 ∧ s.stk.allocated = 0 ∧ s.stk.retired = 0 ∧ s.stk.nextSeg = 1 ∧
      s.stk.lastAlloc = 0 ∧ (∀ k, vget s.stk.bites k = none) ∧ (∀ j, s.span j = []) ∧ s.stk.ring = [] ∧
      (∀ k, vget s.stk.tailMarks k = false) ∧ s.stk.hold = 0) ∧
    (∀ k, s.gap k =
      { timer := none, sRef := 0, lastSent := none, windowRef := none, hGm := none, stale := false, gmSat := false,
        lockCount := 0, locked := false, hLock := 0, sRefLock := 0, trim := 0, integ := 0, limited := false,
        slewing := false }) ∧
    (∀ k, s.seq k =
      { state := .out, frozen := false, handover := none, nonOverlap := none, equalize := none, fastOpen := true,
        localReq := false }) ∧
    (s.tmx.stopLine = true ∧
      s.tmx.table =
        [{ key := .resetStop, state := .held, action := .millStop, stampMs := 0, stampCoil := 0, stampSeg := 0, occ := 1,
           firstOut := true }] ∧
      ∀ k, vget s.tmx.forceCnt k = 0 ∧ vget s.tmx.gapCnt k = 0) ∧
    (s.hlk.rx = .hunting ∧ s.hlk.slot = none ∧ s.hlk.held = none ∧ s.hlk.mask = 0b111111 ∧
      (∀ i, vget s.hlk.streams i = { enabled := false, chans := [0], period := 1000, timer := none }) ∧
      ∀ i, vget s.hlk.aux i = { mode := .off, level := false }) ∧
    s.hlk.tx = some { kind := 0x42, tag := 0, body := [0, 0, 0, 0, 0, 1] } ∧
    s.hlk.queue.map (fun n => n.body.source) = allStands.map .standState ++ [.trip .resetStop] ∧ s.ms = 0 ∧
    s.resets = { supply := false, pin := false } ∧
    (HeldOk s ∧ TableOk s ∧ ScopesOk s ∧ QueueOk s ∧ LineOk s ∧ (∀ k, SeqOk s k) ∧ PassOk s ∧ BalanceOk s ∧ CapacityOk s ∧
      SlotsOk s ∧ BanksOk s ∧ (∀ k, GapOk s k) ∧ PresenceOk s ∧ (∀ c, ChannelOk s c) ∧ AssemblersOk s ∧ ConfigOk s)

/-- RESET is refused while a stand is in THREAD, ROLL or TAIL, and is else the soft reset of every block (R177, R56, R85,
R112, R137, R164, R185): every pending handover ends with ABORTED_RESET, every stand is placed, the trip records are kept
but for those whose condition the reset itself takes out of its scope, a RAISED one HELD and an ACKED one removed (R139, R155),
and RESET_STOP is raised and gone. The slots are
emptied before the placement and RESET_STOP, so that only a stand that enters TRIPPED by them has a setpoint, its OPEN,
waiting or begun on an idle line; the field-in assembler, a frame in transmission and the transmit sequences are kept, and
so is the gap record but for trim, integrator and timer (R37, R38, R40, R112, R122). -/
def Obligations.SoftReset : Prop :=
  ∀ (tag : Byte) (s : State), HostFree s →
    ((∃ k, (s.seq k).state = .thread ∨ (s.seq k).state = .roll ∨ (s.seq k).state = .tail) →
      exec (.softReset tag []) s = .next (reply 0x1A tag [5] s)) ∧
    ((∀ k, (s.seq k).state ≠ .thread ∧ (s.seq k).state ≠ .roll ∧ (s.seq k).state ≠ .tail) →
      ∃ t, exec (.softReset tag []) s = .next t ∧ Replied s t 0x1A tag [0] ∧
        t.stk =
          { Tracker.cleared with coil := s.stk.coil, nextSeg := s.stk.nextSeg, lastAlloc := s.stk.lastAlloc } ∧
        (∀ k, t.gap k =
          { s.gap k with
            trim := 0, integ := 0, timer := (s.record k).map (·.tCtl), sRef := (t.gap k).sRef
            lastSent := (t.gap k).lastSent }) ∧
        (t.flc.asm = s.flc.asm ∧ (s.flc.tx ≠ none → t.flc.tx = s.flc.tx ∧ t.flc.seqs = s.flc.seqs) ∧
          (s.flc.tx = none → t.flc.seqs = match t.flc.tx with
            | some f => vset s.flc.seqs f.stand (vget s.flc.seqs f.stand + 1)
            | none => s.flc.seqs)) ∧
        (∀ (k : Stand) (newly : Prop),
          (newly ↔ (t.seq k).state = .tripped ∧ ¬((s.seq k).state = .tripped ∧ (s.seq k).handover = none)) →
          (¬newly ∨ s.record k = none →
            vget t.flc.slots k = none ∧ (t.gap k).sRef = (s.gap k).sRef ∧ (t.gap k).lastSent = (s.gap k).lastSent ∧
              ∀ f, s.flc.tx = none → t.flc.tx = some f → f.stand ≠ k) ∧
          ∀ r p, newly → s.record k = some r → p = (⟨.open_, r.sOpen⟩ : Setpoint) →
            (t.gap k).sRef = r.sOpen ∧
            (vget s.sch.config.tags k = 0 → vget t.flc.slots k = none ∧ (t.gap k).lastSent = (s.gap k).lastSent) ∧
            (vget s.sch.config.tags k ≠ 0 →
              vget t.flc.slots k = some p ∧ t.flc.tx ≠ none ∧ (t.gap k).lastSent = (s.gap k).lastSent ∨
              s.flc.tx = none ∧ vget t.flc.slots k = none ∧ (t.gap k).lastSent = some p ∧
                t.flc.tx =
                  some { stand := k, tag := vget s.sch.config.tags k, seq := vget s.flc.seqs k, setpoint := p })) ∧
        t.plu =
          { s.plu with
            acc := Vector.replicate 8 0
            pres := vtab fun k => { state := (s.presence k).state, measurer := 0 } } ∧
        t.sch = s.sch ∧ t.mch = s.mch ∧ t.flc.accept = s.flc.accept ∧ t.hlk.mask = s.hlk.mask ∧
        t.hlk.streams = s.hlk.streams ∧ t.hlk.aux = s.hlk.aux ∧ t.hlk.rx = s.hlk.rx ∧ t.hlk.straps = s.hlk.straps ∧
        t.ms = s.ms ∧
        (∀ n ∈ t.hlk.queue,
          n.body.source ≠ .segmentRetired ∧ ∀ i, n.body.source ≠ .channelPeriodic i) ∧
        (∀ k, vget t.tmx.forceCnt k = 0 ∧ vget t.tmx.gapCnt k = 0) ∧
        (∀ k, (s.seq k).state = .local_ ∧ (s.seq k).handover = none → (t.seq k).state = .local_) ∧
        (∀ k, (s.seq k).state = .tripped ∧ (s.seq k).handover = none → (t.seq k).state = .tripped) ∧
        (vget s.sch.config.actions 0 = .millStop →
          ∀ (k : Stand) (placed : StandState),
            placed = (if s.inSet k = false then .out
              else if s.openCover k = true ∨ s.recordOf .resetStop = none then .tripped
              else .setup) →
            (((s.seq k).state = .out ∨ (s.seq k).state = .setup ∨ (s.seq k).state = .ready) →
              (s.seq k).handover = none → (t.seq k).state = placed) ∧
            ∀ h, (s.seq k).handover = some h →
              (t.seq k).handover = none ∧ (t.seq k).localReq = false ∧
              (kindEnabled s.hlk.mask (.handoverDone k) = true →
                ∃ n ∈ t.hlk.queue, n.body = .handoverDone k h.dir .abortedReset) ∧
              (h.dir = .toCoord → (t.seq k).state = .local_) ∧
              (h.dir = .toLocal → h.prior = some .tripped → (t.seq k).state = .tripped) ∧
              (h.dir = .toLocal → h.prior = some .out ∨ h.prior = some .setup ∨ h.prior = some .ready →
                (t.seq k).state = placed)) ∧
        (∀ key r, key ≠ .resetStop → s.recordOf key = some r →
          t.recordOf key =
            if r.state = .held ∨ scopeHolds t key = true then some r
            else if r.state = .acked then none
            else some { r with state := .held }) ∧
        (∀ key, key ≠ .resetStop → s.recordOf key = none → t.recordOf key = none) ∧
        (∀ key, (key = .hostStop ∨ (∃ n, key = .stopInput n) ∨
            ∃ k, key = .stand .driveFault k ∨ key = .stand .unready k) →
          t.recordOf key = s.recordOf key) ∧
        ((∀ r, s.recordOf .resetStop = some r → r.state ≠ .acked) →
          ∃ r, t.recordOf .resetStop = some r ∧ r.state = .held))

/-- The first tick after a reset settles every filter at its pin, sets the presence logic from the detectors without a head
event, and raises the stop inputs settled active (R54, R55). A TICK that finds the part unsettled is its first, and a
settled part has no first tick (the model's choice, log 8). -/
def Obligations.FirstTickSettles : Prop :=
  ∀ (pins : InputPins) (s : State), Running s →
    (s.plu.settled = true → exec (.firstTick pins) s = .next s) ∧
    (s.plu.settled = false →
      exec (.tick pins) s = exec (.firstTick pins) s ∧
      ∃ t, exec (.firstTick pins) s = .next t ∧ t.plu.settled = true ∧
        (∀ i, t.filter i = { level := pinActive pins i, count := 0, due := false }) ∧
        (∀ k, t.presence k = { state := if pinActive pins (.hmd k) then .present else .absent, measurer := 0 }) ∧
        (∀ n, pinActive pins (.stop n) = true → t.present (.stopInput n) = true) ∧
        ((∀ n, pinActive pins (.stop n) = false) →
          t.stk = s.stk ∧ ∀ k, (t.seq k).state = (s.seq k).state))

/-- A tick with no accept or expiry outstanding advances the ms count, counts every running timer down by 1 and takes one
sample into each filter, and changes nothing else (R32, R42, R88, R114, R153, R182). A filter that reaches its count keeps its
level with `due` set, and a timer that has run out waits at 0, until the accept or the expiry is taken (the model's choice,
log 2). -/
def Obligations.TickCountsAndSamples : Prop :=
  ∀ (pins : InputPins) (s : State), s.inReset = false → s.plu.settled = true → NothingDue s →
    ∃ t, exec (.tick pins) s = .next t ∧ t.ms = s.ms + 1 ∧
      (∀ c, t.chan c =
        { s.chan c with
          remaining := if (s.chan c).state = .fresh then (s.chan c).remaining - 1 else (s.chan c).remaining }) ∧
      (∀ k, t.gap k = { s.gap k with timer := (s.gap k).timer.map (· - 1) }) ∧
      (∀ k, t.seq k =
        { s.seq k with
          nonOverlap := (s.seq k).nonOverlap.map (· - 1)
          equalize := (s.seq k).equalize.map (· - 1)
          handover := (s.seq k).handover.map fun h => { h with remaining := h.remaining - 1 } }) ∧
      (∀ i, vget t.hlk.streams i =
        { vget s.hlk.streams i with timer := (vget s.hlk.streams i).timer.map (· - 1) }) ∧
      (∀ i, t.filter i =
        if pinActive pins i = (s.filter i).level then { s.filter i with count := 0, due := false }
        else
          { s.filter i with
            count := (s.filter i).count + 1
            due := decide ((match i with
              | .panel _ => s.sch.config.longCount
              | _ => s.sch.config.shortCount) ≤ (s.filter i).count + 1) }) ∧
      t.plu.pins = pins ∧ t.plu.settled = s.plu.settled ∧ t.plu.acc = s.plu.acc ∧ t.plu.pres = s.plu.pres ∧
      t.stk = s.stk ∧ t.tmx = s.tmx ∧ t.sch = s.sch ∧ t.flc = s.flc ∧
      t.hlk = { s.hlk with streams := t.hlk.streams } ∧ t.resets = s.resets ∧ t.freeIx = s.freeIx ∧
      t.pending = s.pending

/-! ## Discrete lines -/

/-- FILTER_ACCEPT: the filter takes the level that the last tick sampled, with its count 0, and the other filters keep theirs
(R42); a stop input that becomes active makes its key present, and one that becomes inactive makes it absent (R43, R140). A
panel change that confirms its stand's pending handover ends it GRANTED, and any other panel change moves nothing (R131, R135);
a stop input's MILL_STOP record aborts a pending handover (R133). An accept that is not due does not happen (log 2). -/
def Obligations.FilterAcceptTakesSample : Prop :=
  ∀ (i : FilterId) (s : State), Running s →
    ((s.filter i).due = false → exec (.filterAccept i) s = .next s) ∧
    ((s.filter i).due = true →
      ∃ t, exec (.filterAccept i) s = .next t ∧
        t.filter i = { level := pinActive s.plu.pins i, count := 0, due := false } ∧
        (∀ j, j ≠ i → t.filter j = s.filter j) ∧
        (∀ n, i = .stop n → t.present (.stopInput n) = pinActive s.plu.pins i) ∧
        (∀ k, i = .panel k →
          (∀ h, (s.seq k).handover = some h →
            (h.dir = .toLocal ∧ pinActive s.plu.pins i = true ∨ h.dir = .toCoord ∧ pinActive s.plu.pins i = false) →
            (t.seq k).handover = none ∧ (t.seq k).localReq = false ∧
            (t.seq k).state = (match h.dir with
              | .toLocal => .local_
              | .toCoord =>
                if s.inSet k = false then .out else if s.openCover k = true then .tripped else .setup) ∧
            (∀ j, j ≠ k → (t.seq j).state = (s.seq j).state) ∧
            (s.hlk.tx ≠ none → kindEnabled s.hlk.mask (.handoverDone k) = true →
              ∃ n ∈ t.hlk.queue, n.body = .handoverDone k h.dir .granted)) ∧
          ((∀ h, (s.seq k).handover = some h →
              (h.dir = .toLocal ∧ pinActive s.plu.pins i = false ∨
                h.dir = .toCoord ∧ pinActive s.plu.pins i = true)) →
            t.ssq = s.ssq ∧ t.hlk = s.hlk)) ∧
        ∀ n k h, i = .stop n → pinActive s.plu.pins i = true → s.recordOf (.stopInput n) = none →
          vget s.sch.config.actions 2 = .millStop → s.stk.mill ≠ .tailout → (s.seq k).state = .handover →
          (s.seq k).handover = some h →
          (t.seq k).handover = none ∧ (t.seq k).localReq = false ∧
          (h.dir = .toCoord → (t.seq k).state = .local_) ∧
          (∀ p, h.dir = .toLocal → h.prior = some p →
            (t.seq k).state = if p = .tripped ∨ s.inSet k = true then .tripped else .out) ∧
          (s.hlk.tx ≠ none → kindEnabled s.hlk.mask (.handoverDone k) = true →
            ∃ n ∈ t.hlk.queue, n.body = .handoverDone k h.dir .abortedTrip))

/-- HMD off at a stand with strip present starts a dropout from 0, and HMD on in a dropout ends it without a head event;
neither touches anything but the stand's filter and presence logic (R49, R50). -/
def Obligations.DropoutStartsAndEnds : Prop :=
  ∀ (k : Stand) (s : State), Running s → (s.filter (.hmd k)).due = true →
    ((s.presence k).state = .present → pinActive s.plu.pins (.hmd k) = false →
      exec (.filterAccept (.hmd k)) s =
        .next { s with
          plu := { s.plu with
            hmd := vset s.plu.hmd k { level := false, count := 0, due := false }
            pres := vset s.plu.pres k { state := .dropout, measurer := 0 } } }) ∧
    ((s.presence k).state = .dropout → pinActive s.plu.pins (.hmd k) = true →
      exec (.filterAccept (.hmd k)) s =
        .next { s with
          plu := { s.plu with
            hmd := vset s.plu.hmd k { level := true, count := 0, due := false }
            pres := vset s.plu.pres k { state := .present, measurer := 0 } } })

/-- A head at a stand of the active set that is READY threads it, the first active stand while ARMED and another while ROLLING,
and moves no other stand (R48, R98, R116, R117). The first starts the coil with its first record in its bite (R68 to R70); the
record carries the entry gauge's thickness where the mill record calls for it and channel 24 is FRESH, and else H_entry (R70).
Another has its tail mark cleared, and the oldest record of the span into it, where there is one, goes into its bite (R69, R71).
An entry with the force or gap channel not FRESH leaves a SAMPLE_STALE record (R144); where its creation opens the stand, the
stand is TRIPPED before the tracker takes the head, and no record moves (R69, R122; that the trip matrix takes it first is the
model's inference, log 24). -/
def Obligations.HeadStartsCoil : Prop :=
  ∀ (k : Stand) (s : State) (threads : Prop), Running s → (s.filter (.hmd k)).due = true →
    pinActive s.plu.pins (.hmd k) = true → (s.presence k).state = .absent → s.inSet k = true → (s.seq k).state = .ready →
    s.stk.mill = (if s.firstActive = some k then .armed else .rolling) →
    (threads ↔
      (s.chan (forceCh k)).state = .fresh ∧ (s.chan (gapCh k)).state = .fresh ∨
        vget s.sch.config.actions 5 = .note ∨ vget s.sch.config.actions 5 = .freeze ∨
        s.recordOf (.stand .sampleStale k) ≠ none) →
    ∃ t, exec (.filterAccept (.hmd k)) s = .next t ∧ t.stripPresent k = true ∧
      ((s.chan (forceCh k)).state ≠ .fresh ∨ (s.chan (gapCh k)).state ≠ .fresh → StaleRecorded k s t) ∧
      (¬threads → (t.seq k).state = .tripped ∧ t.stk.bites = s.stk.bites ∧ t.stk.spans = s.stk.spans) ∧
      (threads →
        (t.seq k).state = .thread ∧ (t.seq k).equalize = none ∧ (∀ j, j ≠ k → (t.seq j).state = (s.seq j).state) ∧
        (t.gap k).lockCount = 0 ∧ (t.gap k).hGm = none ∧ (t.gap k).locked = false ∧
        (s.firstActive = some k →
          (∀ j, (t.gap j).locked = false) ∧
          ∃ g, AllocatedAt t.stk.coil k s g ∧
            t.stk =
              { s.stk with
                mill := .rolling
                coil := if s.stk.coil < 65535 then s.stk.coil + 1 else 1
                allocated := 1
                retired := 0
                tailMarks := Vector.replicate 8 false
                bites := vset s.stk.bites k (some g)
                nextSeg := if g.seg < 65535 then g.seg + 1 else 1
                lastAlloc := g.seg }) ∧
        (s.firstActive ≠ some k →
          t.stk =
            { s.stk with
              tailMarks := vset s.stk.tailMarks k false
              bites := match (s.span (spanInto k)).head? with
                | some g => vset s.stk.bites k (some g)
                | none => s.stk.bites
              spans := vset s.stk.spans (spanInto k) (s.span (spanInto k)).tail }))

/-- A head at a stand of the active set that is not ready to thread leaves an UNREADY record HELD: a new one with the action
of its row and occurrences 1, or the old one with its occurrences increased (R116, R148, R153 to R155). A head at a stand
outside the active set, or at one in TRIPPED, LOCAL or HANDOVER, sets strip present and updates the stand's notice, and
changes nothing else (R48, R69, R116). -/
def Obligations.HeadRaisesUnready : Prop :=
  ∀ (k : Stand) (s : State), Running s → (s.filter (.hmd k)).due = true → pinActive s.plu.pins (.hmd k) = true →
    (s.presence k).state = .absent →
    (s.inSet k = true →
      ((s.seq k).state = .setup ∨ (s.seq k).state = .tail ∨
        (s.seq k).state = .ready ∧ s.stk.mill ≠ (if s.firstActive = some k then .armed else .rolling)) →
      (∀ r, s.recordOf (.stand .unready k) = some r → r.state = .held) →
      ∃ t r, exec (.filterAccept (.hmd k)) s = .next t ∧ t.recordOf (.stand .unready k) = some r ∧ r.state = .held ∧
        match s.recordOf (.stand .unready k) with
        | none => r.occ = 1 ∧ r.action = vget s.sch.config.actions 10 ∧ r.stampMs = s.ms
        | some q => r = { q with occ := min 255 (q.occ + 1) }) ∧
    (s.inSet k = false ∨
        ScopesOk s ∧ ((s.seq k).state = .tripped ∨ (s.seq k).state = .local_ ∨ (s.seq k).state = .handover) →
      ∃ t, exec (.filterAccept (.hmd k)) s = .next t ∧
        t =
          { s with
            plu := { s.plu with
              hmd := vset s.plu.hmd k { level := true, count := 0, due := false }
              pres := vset s.plu.pres k { state := .present, measurer := 0 } }
            hlk := t.hlk } ∧
        (s.hlk.tx ≠ none →
          t.hlk = { s.hlk with queue := t.hlk.queue } ∧
            (kindEnabled s.hlk.mask (.standState k) = true →
              ∃ n ∈ t.hlk.queue, n.body = .standState k (s.seq k).state (s.seq k).frozen true)))

/-- An encoder pulse: one with the direction pin low is no forward pulse and is ignored, and one whose edge follows the edge
before it by less than 200 ns is lost (R44, R194). A forward one that completes no segment adds E to the accumulator of a
stand with a record, and nothing to that of a stand without one (R3, R44); at a stand in DROPOUT, short of the confirmation
length, it also advances the measurer, by E or, without a record, by 1 mm (R3, R51). Nothing else in the part changes. Which
of two close pulses is lost is the model's reading (log 28). -/
def Obligations.EncoderPulseMeasures : Prop :=
  ∀ (k : Stand) (edge : PulseEdge) (s : State), Running s →
    (edge.dir = false ∨ edge.sinceNs < 200 → exec (.encoderPulse k edge) s = .next s) ∧
    (edge.dir = true → 200 ≤ edge.sinceNs → (s.presence k).state ≠ .dropout →
      (s.record k = none → exec (.encoderPulse k edge) s = .next s) ∧
      ∀ r, s.record k = some r → vget s.plu.acc k + r.e < r.lSeg * 1000000 →
        exec (.encoderPulse k edge) s =
          .next { s with plu := { s.plu with acc := vset s.plu.acc k (vget s.plu.acc k + r.e) } }) ∧
    (edge.dir = true → 200 ≤ edge.sinceNs → (s.presence k).state = .dropout →
      (s.record k = none → (s.presence k).measurer + 1000000 < 1000 * 1000000 →
        exec (.encoderPulse k edge) s =
          .next { s with
            plu := { s.plu with
              pres := vset s.plu.pres k { state := .dropout, measurer := (s.presence k).measurer + 1000000 } } }) ∧
      ∀ r, s.record k = some r → vget s.plu.acc k + r.e < r.lSeg * 1000000 →
        (s.presence k).measurer + r.e < r.tConf * 1000000 →
        exec (.encoderPulse k edge) s =
          .next { s with
            plu := { s.plu with
              acc := vset s.plu.acc k (vget s.plu.acc k + r.e)
              pres := vset s.plu.pres k { state := .dropout, measurer := (s.presence k).measurer + r.e } } })

/-- A bite advance, at a stand in PRESENT or in a dropout that the pulse does not confirm, whose measurer then advances
(R44, R49, R51). One that the tracker ignores, outside the active set, in IDLE or ARMED, or at a stand without strip or in a
state that moves none, or that drains an empty exit span, touches the length counts alone (R72). One at a stand in THREAD,
ROLL or TRIPPED with strip in it moves the strip (R45, R72). With a stand downstream: the bite's record is stamped, a
TRIPPED stand's with TRIP and no est_h, and pushed onto the span out of the stand; a full span gives up its oldest record
LOST, and a record toward a tail-marked stand is retired DISCARDED (R62, R64, R73, R74, R76). The bite is then refilled: at
the first active stand by an allocation, and behind its tail mark not at all; at any other by the oldest record of the span
into it; nothing else that the tracker holds changes (R59, R70, R73). The counts of the two spans then raise LOOP_PULL,
LOOP_GROW and HEAD_OVERDUE (R63, R146, R147), in ascending position (the model's choice, log 17). At the last stand the push
brings the oldest record to the exit gauge from an exit span at N_x, and none from a shorter one (R73, R77). At a stand in
THREAD the lock count advances, and at the lock delay a usable estimate locks the stand on (R98, R118), where no record that
the advance creates, at a span or at the exit gauge, opens the stand first. That the measurer's step is the E that was in force
as the pulse came, also where the advance brings mill empty and a swap, is the model's choice (log 16). -/
def Obligations.BiteAdvancePushesAndRefills : Prop :=
  ∀ (k : Stand) (r : StandRecord) (edge : PulseEdge) (p : Presence) (s : State), Running s → edge.dir = true →
    200 ≤ edge.sinceNs → s.record k = some r → r.lSeg * 1000000 ≤ vget s.plu.acc k + r.e →
    ((s.presence k).state ≠ .dropout ∧ p = s.presence k ∨
      (s.presence k).state = .dropout ∧ (s.presence k).measurer + r.e < r.tConf * 1000000 ∧
        p = { state := .dropout, measurer := (s.presence k).measurer + r.e }) →
    ((s.seq k).state ≠ .thread →
      (s.inSet k = false ∨ s.stk.mill = .idle ∨ s.stk.mill = .armed ∨
        (s.isLast k = false ∨ vget s.stk.tailMarks k = false) ∧
          (s.stripPresent k = false ∨ (s.seq k).state ≠ .roll ∧ (s.seq k).state ≠ .tripped) ∨
        s.isLast k = true ∧ vget s.stk.tailMarks k = true ∧ s.stk.mill = .rolling ∧ s.span exitSpan = []) →
      exec (.encoderPulse k edge) s =
        .next { s with
          plu := { s.plu with
            acc := vset s.plu.acc k (vget s.plu.acc k + r.e - r.lSeg * 1000000), pres := vset s.plu.pres k p } }) ∧
    (s.inSet k = true → s.stripPresent k = true →
      ∃ t, exec (.encoderPulse k edge) s = .next t ∧ t.presence k = p ∧
        (s.stk.mill ≠ .tailout → vget t.plu.acc k = vget s.plu.acc k + r.e - r.lSeg * 1000000) ∧
        (∀ (d : Stand) (out : List Segment × Option Segment) (rest : Tracker),
          s.isLast k = false → s.nextActive k = some d →
          ((s.seq k).state = .thread ∨ (s.seq k).state = .roll ∨ (s.seq k).state = .tripped) →
          (s.stk.mill = .rolling ∨
            s.stk.mill = .tailout ∧ vget s.stk.tailMarks d = false ∧ vget s.stk.bites k ≠ none) →
          s.stk.ring.length ≤ 32 →
          out = pushStep k d (vget s.stk.bites k) s →
          rest =
            { s.stk with
              bites := t.stk.bites, spans := t.stk.spans, ring := t.stk.ring, retired := t.stk.retired } →
          (∀ j, t.span j =
            if j = spanInto d then out.1
            else if j = spanInto k ∧ s.isFirst k = false then (s.span j).tail
            else s.span j) ∧
          (out.2 = none → t.stk.ring = s.stk.ring ∧ t.stk.retired = s.stk.retired) ∧
          (∀ g, out.2 = some g →
            t.stk.ring = (s.stk.ring ++ [g]).drop (s.stk.ring.length - 31) ∧
              t.stk.retired = min 65535 (s.stk.retired + 1)) ∧
          (∀ j, j ≠ k → vget t.stk.bites j = vget s.stk.bites j) ∧
          (s.isFirst k = false → vget t.stk.bites k = (s.span (spanInto k)).head? ∧ t.stk = rest) ∧
          (s.isFirst k = true → vget s.stk.tailMarks k = true → vget t.stk.bites k = none ∧ t.stk = rest) ∧
          (s.isFirst k = true → vget s.stk.tailMarks k = false →
            ∃ g, AllocatedAt s.stk.coil k s g ∧ vget t.stk.bites k = some g ∧
              t.stk =
                { rest with
                  nextSeg := if g.seg < 65535 then g.seg + 1 else 1
                  lastAlloc := g.seg
                  allocated := min 65535 (s.stk.allocated + 1) })) ∧
        (∀ d g, s.activeSet.Pairwise (· < ·) → s.isLast k = false → s.nextActive k = some d →
          vget s.stk.tailMarks d = false → s.stk.mill = .rolling →
          ((s.seq k).state = .thread ∨ (s.seq k).state = .roll ∨ (s.seq k).state = .tripped) →
          vget s.stk.bites k = some g → (s.span (spanInto d)).length < 24 →
          (∀ j e, s.isFirst k = false → (s.seq k).state = .roll → s.prevActive k = some j → (s.seq j).state = .roll →
            s.spanEntry k = some e → s.span (spanInto k) ≠ [] →
            ((s.span (spanInto k)).length : Int) - 1 < (e.n : Int) - e.t → s.recordOf (.stand .loopPull k) = none →
            ∃ q, t.recordOf (.stand .loopPull k) = some q ∧ q.action = vget s.sch.config.actions 9 ∧ q.occ = 1) ∧
          ((s.seq k).state ≠ .roll ∨ s.isFirst k = true ∨ s.span (spanInto k) = [] ∨
              (∀ e, s.spanEntry k = some e →
                (s.span (spanInto k)).length - 1 ≤ e.n + e.t ∧ e.n ≤ (s.span (spanInto k)).length - 1 + e.t) →
            ∀ e, s.spanEntry d = some e →
              ((s.seq k).state = .roll → (s.seq d).state = .roll → e.n + e.t < (s.span (spanInto d)).length + 1 →
                s.recordOf (.stand .loopGrow d) = none →
                ∃ q, t.recordOf (.stand .loopGrow d) = some q ∧ q.action = vget s.sch.config.actions 8 ∧ q.occ = 1) ∧
              ((s.seq d).state = .ready → s.stripPresent d = false →
                e.n + e.h ≤ (s.span (spanInto d)).length + 1 → s.recordOf (.stand .headOverdue d) = none →
                ∃ q, t.recordOf (.stand .headOverdue d) = some q ∧ q.action = vget s.sch.config.actions 7 ∧
                  q.occ = 1))) ∧
        (∀ m g new, s.activeSet.Pairwise (· < ·) → s.isLast k = true → vget s.stk.tailMarks k = false →
          s.stk.mill = .rolling →
          ((s.seq k).state = .thread ∨ (s.seq k).state = .roll ∨ (s.seq k).state = .tripped) →
          vget s.stk.bites k = some g → new = stampOf k s (decide ((s.seq k).state = .tripped)) g →
          s.millRec = some m → m.nX < 24 → s.stk.ring.length ≤ 32 →
          ((s.span exitSpan).length < m.nX →
            t.span exitSpan = s.span exitSpan ++ [new] ∧ t.stk.ring = s.stk.ring ∧ t.stk.retired = s.stk.retired ∧
              t.stk.hold = s.stk.hold) ∧
          (∀ old rest, s.span exitSpan = old :: rest → rest.length + 1 = m.nX →
            (∀ q, s.recordOf .exitStale = some q → q.state ≠ .acked) →
            ExitArrival old m r.hTgt s t ∧ t.span exitSpan = rest ++ [new]) ∧
          (s.isFirst k = false →
            vget t.stk.bites k = (s.span (spanInto k)).head? ∧ t.span (spanInto k) = (s.span (spanInto k)).tail) ∧
          (s.isFirst k = true →
            (s.span exitSpan).length < m.nX ∨ (s.chan 25).state = .fresh ∨ vget s.sch.config.actions 11 = .note ∨
              vget s.sch.config.actions 11 = .freeze →
            ∃ g, AllocatedAt s.stk.coil k s g ∧ vget t.stk.bites k = some g ∧ t.stk.lastAlloc = g.seg ∧
              t.stk.nextSeg = (if g.seg < 65535 then g.seg + 1 else 1) ∧
              t.stk.allocated = min 65535 (s.stk.allocated + 1))) ∧
        ((s.seq k).state = .thread → s.activeSet.Pairwise (· < ·) →
          (NoSpanTrip s ∨ s.isLast k = true ∨ (∀ d, s.nextActive k = some d → (s.seq d).state ≠ .ready)) →
          (s.isLast k = false ∨ (s.chan 25).state = .fresh ∨ vget s.sch.config.actions 11 = .note ∨
            vget s.sch.config.actions 11 = .freeze ∨
            vget s.stk.tailMarks k = false ∧ (∃ m, s.millRec = some m ∧ (s.span exitSpan).length < m.nX)) →
          (s.gap k).lockCount < r.lockDelay →
          (t.gap k).lockCount = (s.gap k).lockCount + 1 ∧
          (∀ h, (s.gap k).lockCount + 1 = r.lockDelay → (s.gap k).hGm = some h → (s.gap k).stale = false →
            (t.seq k).state = .roll ∧ (t.gap k).locked = true ∧ (t.gap k).hLock = h ∧
              (t.gap k).sRefLock = (s.gap k).sRef) ∧
          ((s.gap k).lockCount + 1 < r.lockDelay ∨ (s.gap k).hGm = none ∨ (s.gap k).stale = true →
            (t.seq k).state = .thread ∧ (t.gap k).locked = (s.gap k).locked)))

/-- A forward pulse that brings a dropout to its confirmation length confirms the tail: the stand is ABSENT with its
measurer 0, and its notice is updated (R51, with R3's step and length for a stand without a record). At a stand outside the
active set, or while the mill is IDLE or ARMED, that is all (R51, R75). A stand in THREAD or ROLL goes to TAIL with its lock
count 0, and a TRIPPED one stays TRIPPED (R99, R118, R123). Whatever its state, the bite is stamped and pushed, at a stand
other than the first the records of the span into it are retired DISCARDED, oldest first, the tail mark is set, and the
first stand's tail sends the mill to TAILOUT (R74 to R76). The tail of the last stand that rolls ends the coil where nothing
is held, or nothing but what the tail gives up (R79, R80). A pulse that both advances and confirms is taken as an advance
and then as a tail: the bite is pushed, refilled and pushed again (R52, R75); where the advance makes no count open a stand,
both records have the same stamp. That E and T_conf are those in force as the pulse came, also where its advance brings mill
empty and a swap, is the model's choice (log 16). Behind its own tail the last stand's advances drain the exit span into the
exit gauge (R76, R77), and the drain of the last record ends the coil. -/
def Obligations.TailConfirmed : Prop :=
  ∀ (k : Stand) (edge : PulseEdge) (s : State), Running s → edge.dir = true → 200 ≤ edge.sinceNs →
    ((s.presence k).state = .dropout →
      (match s.record k with
        | none => 1000 * 1000000 ≤ (s.presence k).measurer + 1000000
        | some r => r.tConf * 1000000 ≤ (s.presence k).measurer + r.e) →
      ∃ t, exec (.encoderPulse k edge) s = .next t ∧ t.presence k = { state := .absent, measurer := 0 } ∧
        t.stripPresent k = false ∧
        (s.hlk.tx ≠ none → kindEnabled s.hlk.mask (.standState k) = true →
          ∃ n ∈ t.hlk.queue, n.body = .standState k (t.seq k).state (t.seq k).frozen false) ∧
        (s.inSet k = false ∨ s.stk.mill = .idle ∨ s.stk.mill = .armed →
          (s.seq k).state ≠ .thread → (s.seq k).state ≠ .roll →
          t =
            { s with
              plu := { s.plu with
                acc := match s.record k with
                  | none => s.plu.acc
                  | some r =>
                    vset s.plu.acc k
                      (if r.lSeg * 1000000 ≤ vget s.plu.acc k + r.e then vget s.plu.acc k + r.e - r.lSeg * 1000000
                       else vget s.plu.acc k + r.e)
                pres := vset s.plu.pres k { state := .absent, measurer := 0 } }
              hlk := t.hlk }) ∧
        (∀ r, s.record k = some r → vget s.plu.acc k + r.e < r.lSeg * 1000000 → s.inSet k = true →
          ((s.seq k).state = .tripped → (t.seq k).state = .tripped) ∧
          ((s.seq k).state = .thread ∨ (s.seq k).state = .roll →
            (s.stk.mill = .rolling → s.isFirst k = false → vget s.stk.bites k = none → s.span (spanInto k) = [] →
              (t.seq k).state = .tail ∧ (t.gap k).lockCount = 0 ∧ vget t.stk.tailMarks k = true) ∧
            (s.activeSet.Pairwise (· < ·) → s.isLast k = false →
              (s.stk.mill = .rolling ∧ s.isFirst k = false ∨
                (s.stk.mill = .rolling ∨ s.stk.mill = .tailout) ∧ vget s.stk.bites k ≠ none ∧
                  (∀ d, s.nextActive k = some d → vget s.stk.tailMarks d = false)) →
              (NoSpanTrip s ∨ (∀ d, s.nextActive k = some d → (s.seq d).state ≠ .ready)) →
              (t.seq k).state = .tail ∧ (t.gap k).lockCount = 0) ∧
            (s.stk.mill = .tailout →
              (s.stk.heldCount = 0 ∨
                s.isFirst k = false ∧ vget s.stk.bites k = none ∧ s.stk.heldCount = (s.span (spanInto k)).length) →
              (∀ j, j ≠ k → s.inSet j = true → (s.seq j).state ≠ .thread ∧ (s.seq j).state ≠ .roll) →
              (∀ q ∈ s.tmx.table, q.state ≠ .acked) →
              MillEmptied (fun j => if j = k then .tail else (s.seq j).state) s t ∧
                (s.stk.ring.length ≤ 32 →
                  t.stk.ring = (retireAll (givenUp (s.span (spanInto k))) s.stk).ring))) ∧
          (∀ d out gone, s.isLast k = false → s.nextActive k = some d → s.stk.mill = .rolling ∨ s.stk.mill = .tailout →
            vget s.stk.bites k ≠ none ∧ vget s.stk.tailMarks d = false ∨ s.stk.mill = .rolling ∧ s.isFirst k = false →
            s.stk.ring.length ≤ 32 → s.stk.retired ≤ 65535 → out = pushStep k d (vget s.stk.bites k) s →
            gone = out.2.toList ++ (if s.isFirst k = true then [] else givenUp (s.span (spanInto k))) →
            t.stk =
              retireAll gone
                { s.stk with
                  mill := if s.isFirst k = true then .tailout else s.stk.mill
                  bites := vset s.stk.bites k none
                  spans :=
                    vset (if s.isFirst k = true then s.stk.spans else vset s.stk.spans (spanInto k) []) (spanInto d) out.1
                  tailMarks := vset s.stk.tailMarks k true }) ∧
          (∀ m pushed gone, s.activeSet.Pairwise (· < ·) → s.isLast k = true →
            (s.stk.mill = .rolling ∧ s.isFirst k = false ∨
              (s.stk.mill = .rolling ∨ s.stk.mill = .tailout) ∧ vget s.stk.bites k ≠ none) →
            s.millRec = some m → m.nX < 24 →
            s.stk.ring.length ≤ 32 → s.stk.retired ≤ 65535 →
            pushed = (vget s.stk.bites k).toList.map (stampOf k s (decide ((s.seq k).state = .tripped))) →
            gone = (if s.isFirst k = true then [] else givenUp (s.span (spanInto k))) →
            ((s.span exitSpan).length + pushed.length ≤ m.nX →
              t.stk =
                retireAll gone
                  { s.stk with
                    mill := if s.isFirst k = true then .tailout else s.stk.mill
                    bites := vset s.stk.bites k none
                    spans :=
                      vset (if s.isFirst k = true then s.stk.spans else vset s.stk.spans (spanInto k) []) exitSpan
                        (s.span exitSpan ++ pushed)
                    tailMarks := vset s.stk.tailMarks k true } ∧
              ((s.seq k).state = .thread ∨ (s.seq k).state = .roll →
                (t.seq k).state = .tail ∧ (t.gap k).lockCount = 0)) ∧
            (∀ new old rest, pushed = [new] → s.span exitSpan = old :: rest → rest.length + 1 = m.nX →
              s.isFirst k = false →
              t.span exitSpan = rest ++ [new] ∧ vget t.stk.bites k = none ∧ t.span (spanInto k) = [] ∧
                vget t.stk.tailMarks k = true ∧
                ((s.chan 25).state = .fresh ∨ vget s.sch.config.actions 11 = .note ∨
                    vget s.sch.config.actions 11 = .freeze →
                  (s.seq k).state = .thread ∨ (s.seq k).state = .roll →
                  (t.seq k).state = .tail ∧ (t.gap k).lockCount = 0) ∧
                ∀ u, gone = [] → (∀ q ∈ s.tmx.table, q.state ≠ .acked) →
                  u =
                    { s with
                      ssq := vset s.ssq k
                        { s.seq k with
                          state := if (s.seq k).state = .thread ∨ (s.seq k).state = .roll then .tail
                            else (s.seq k).state } } →
                  ExitArrival old m r.hTgt u t))) ∧
        (∀ r, s.record k = some r → r.lSeg * 1000000 ≤ vget s.plu.acc k + r.e → s.inSet k = true →
          s.stk.mill = .rolling →
          ((s.seq k).state = .thread ∧ (s.gap k).lockCount + 1 ≠ r.lockDelay ∨ (s.seq k).state = .roll ∨
            (s.seq k).state = .tripped) →
          NoSpanTrip s → s.stk.ring.length ≤ 32 → s.stk.retired ≤ 65535 →
          (∀ d one two, s.isLast k = false → s.isFirst k = false → s.nextActive k = some d →
            one = pushStep k d (vget s.stk.bites k) s →
            two = pushStep k d (s.span (spanInto k)).head? (s.setSpan (spanInto d) one.1) →
            vget t.plu.acc k = vget s.plu.acc k + r.e - r.lSeg * 1000000 ∧
            (t.seq k).state = (if (s.seq k).state = .tripped then .tripped else .tail) ∧
            t.stk =
              retireAll (one.2.toList ++ two.2.toList ++ givenUp (s.span (spanInto k)).tail)
                { s.stk with
                  bites := vset s.stk.bites k none
                  spans := vset (vset s.stk.spans (spanInto k) []) (spanInto d) two.1
                  tailMarks := vset s.stk.tailMarks k true }) ∧
          (∀ d one, s.isLast k = false → s.isFirst k = true → vget s.stk.tailMarks k = false → s.nextActive k = some d →
            vget s.stk.tailMarks d = false → one = pushStep k d (vget s.stk.bites k) s →
            ∃ g two, AllocatedAt s.stk.coil k s g ∧ two = pushStep k d (some g) (s.setSpan (spanInto d) one.1) ∧
              (t.seq k).state = (if (s.seq k).state = .tripped then .tripped else .tail) ∧
              t.stk =
                retireAll (one.2.toList ++ two.2.toList)
                  { s.stk with
                    mill := .tailout
                    bites := vset s.stk.bites k none
                    spans := vset s.stk.spans (spanInto d) two.1
                    tailMarks := vset s.stk.tailMarks k true
                    nextSeg := if g.seg < 65535 then g.seg + 1 else 1
                    lastAlloc := g.seg
                    allocated := min 65535 (s.stk.allocated + 1) }) ∧
          (∀ m pushed, s.activeSet.Pairwise (· < ·) → s.isLast k = true → s.isFirst k = false →
            vget s.stk.tailMarks k = false → s.millRec = some m → m.nX < 24 →
            pushed = ((vget s.stk.bites k).toList ++ (s.span (spanInto k)).head?.toList).map
              (stampOf k s (decide ((s.seq k).state = .tripped))) →
            (s.span exitSpan).length + pushed.length ≤ m.nX →
            t.stk =
              retireAll (givenUp (s.span (spanInto k)).tail)
                { s.stk with
                  bites := vset s.stk.bites k none
                  spans := vset (vset s.stk.spans (spanInto k) []) exitSpan (s.span exitSpan ++ pushed)
                  tailMarks := vset s.stk.tailMarks k true }))) ∧
    ((s.seq k).state ≠ .thread → s.inSet k = true → s.isLast k = true →
      vget s.stk.tailMarks k = true → (s.stk.mill = .rolling ∨ s.stk.mill = .tailout) →
      ∀ r m g rest, s.record k = some r → r.lSeg * 1000000 ≤ vget s.plu.acc k + r.e → s.millRec = some m →
        (s.presence k).state ≠ .dropout ∨ (s.presence k).measurer + r.e < r.tConf * 1000000 →
        s.span exitSpan = g :: rest → s.stk.ring.length ≤ 32 →
        ∃ t, exec (.encoderPulse k edge) s = .next t ∧
          (∀ j, t.span j = if j = exitSpan then rest else s.span j) ∧ t.stk.bites = s.stk.bites ∧
          (s.stk.mill = .rolling ∨ rest ≠ [] →
            (∀ q, s.recordOf .exitStale = some q → q.state ≠ .acked) →
            ExitArrival g m r.hTgt s t ∧ t.stk.mill = s.stk.mill ∧ t.stk.tailMarks = s.stk.tailMarks) ∧
          (s.stk.mill = .tailout → s.stk.heldCount = 1 →
            (∀ j, s.inSet j = true → (s.seq j).state ≠ .roll ∧ (s.seq j).state ≠ .thread) →
            ((s.chan 25).state = .fresh ∨ vget s.sch.config.actions 11 = .note ∨
              vget s.sch.config.actions 11 = .freeze) →
            (∀ q ∈ s.tmx.table, q.state ≠ .acked) →
            MillEmptied (fun j => (s.seq j).state) s t ∧ t.stk.retired = min 65535 (s.stk.retired + 1)))

/-! ## Bytes and frames -/

/-- A byte on a line is a low start bit, eight data bits least significant first, and a stop bit, whose low level is a
framing error (R20, R167). A byte that completes no frame is taken by its assembler as the tables of R21 and R169 state, and
an inter-byte limit discards the bytes held; nothing else in the part changes. That bit times without a start bit are no
byte is an inference of the model's (log 5). -/
def Obligations.AssemblersTakeBytes : Prop :=
  ∀ (line : LineBits) (stop : Bool) (b : Byte) (fe : Bool) (s : State), s.inReset = false →
    (∀ i, i < 8 → b.getLsbD i = line.getLsbD (i + 1)) → fe = !stop →
    (line.getLsbD 0 = true →
      exec (.fieldByteReceived line stop) s = .next s ∧ exec (.hostByteReceived line stop) s = .next s) ∧
    (line.getLsbD 0 = false →
      (s.flc.asm = .hunting →
        exec (.fieldByteReceived line stop) s =
          .next { s with flc := { s.flc with asm := if fe = false ∧ b = 0x5A then .collecting [b] else .hunting } }) ∧
      (∀ held, s.flc.asm = .collecting held →
        (fe = true → exec (.fieldByteReceived line stop) s = .next { s with flc := { s.flc with asm := .hunting } }) ∧
        (fe = false → held.length < 8 →
          exec (.fieldByteReceived line stop) s =
            .next { s with flc := { s.flc with asm := .collecting (held ++ [b]) } })) ∧
      (s.hlk.rx = .hunting →
        exec (.hostByteReceived line stop) s =
          .next { s with hlk := { s.hlk with rx := if fe = false ∧ b = 0xA5 then .length else .hunting } }) ∧
      (s.hlk.rx = .length →
        exec (.hostByteReceived line stop) s =
          .next { s with
            hlk := { s.hlk with
              rx := if fe = false ∧ 2 ≤ b.toNat ∧ b.toNat ≤ 250 then .collecting b [] else .hunting } }) ∧
      (∀ len held, s.hlk.rx = .collecting len held →
        (fe = true → exec (.hostByteReceived line stop) s = .next { s with hlk := { s.hlk with rx := .hunting } }) ∧
        (fe = false → held.length + 1 < len.toNat + 2 →
          exec (.hostByteReceived line stop) s =
            .next { s with hlk := { s.hlk with rx := .collecting len (held ++ [b]) } }))) ∧
    exec .fieldInterByteTimeout s = .next { s with flc := { s.flc with asm := .hunting } } ∧
    exec .hostInterByteTimeout s = .next { s with hlk := { s.hlk with rx := .hunting } }

/-- The nine bytes of a field frame, received one by one from HUNTING, do what the whole frame does (R21, R187): the ninth
byte does the frame's whole work in its step (an inference of the model's, log 7). -/
def Obligations.FieldBytesMakeFrame : Prop :=
  ∀ (frame : List Byte) (s : State), frame.length = 9 → frame.head? = some 0x5A → s.flc.asm = .hunting →
    receiveField frame s = exec (.fieldFrame frame) s

/-- The bytes of a request's frame, received one by one from HUNTING, do what the request's command does; with a wrong CRC
they do nothing (R168 to R171, R186). That a request command is a request that comes to R171, and that the frame's last byte
does its whole work in its step, are inferences of the model's (log 6, log 7). -/
def Obligations.HostBytesMakeRequest : Prop :=
  ∀ (c : Instr) (f : HostFrame) (s : State), requestOf c = some f → f.body.length ≤ 248 → s.hlk.rx = .hunting →
    receiveHost f.bytes s = exec c s ∧
    ∀ crc : List Byte, crc.length = 2 → crc ≠ crcBytes f.checked →
      receiveHost (0xA5 :: f.checked ++ crc) s = .next s

/-- The nine bytes of a setpoint frame read back as the frame: its tag, quantity 15, its sequence, the mode in the health bits
and in value bits 21 and 20, and the gap as the signed 20 bits below them (R39, R187). In transmission they take 90 bit times of
the field-out pin, back to back, each byte as a low start bit, its bits least significant first and a high stop bit; behind them,
and on an idle line, the pin is high (R20). -/
def Obligations.SetpointFrameReadsBack : Prop :=
  ∀ f : SetpointFrame, -10000 ≤ f.setpoint.gap → f.setpoint.gap ≤ 80000 →
    f.bytes.length = 9 ∧ f.bytes.head? = some 0x5A ∧ fieldCheck f.bytes = true ∧
    (fieldFields f.bytes).tag = f.tag ∧ (fieldFields f.bytes).quantity = 15 ∧ (fieldFields f.bytes).seq = f.seq ∧
    (fieldFields f.bytes).health = modeCode f.setpoint.mode ∧
    rd24 f.bytes 4 / 1048576 = modeCode f.setpoint.mode ∧ signed 20 (rd24 f.bytes 4 % 1048576) = f.setpoint.gap ∧
    ∀ s : State,
      (s.flc.tx = none → ∀ n, s.fieldOutPin n = .high) ∧
      (s.flc.tx = some f →
        (∀ n, 90 ≤ n → s.fieldOutPin n = .high) ∧
        ∀ i b, f.bytes[i]? = some b →
          s.fieldOutPin (10 * i) = .low ∧ s.fieldOutPin (10 * i + 9) = .high ∧
            ∀ j, j < 8 → s.fieldOutPin (10 * i + 1 + j) = if b.getLsbD j = true then .high else .low)

/-! ## Channels -/

/-- A frame whose sequence equals the channel's last sequence is ignored whole; any other is taken according to its health,
and its sequence and entry recorded, a channel without a last sequence taking every frame (R29). -/
def Obligations.DuplicateFrameIgnored : Prop :=
  ∀ (frame : List Byte) (n : EntryNo) (s : State), Running s → FrameFor s frame n →
    ((s.chan (entryChannel s n)).lastSeq = some (fieldFields frame).seq → exec (.fieldFrame frame) s = .next s) ∧
    ((s.chan (entryChannel s n)).lastSeq ≠ some (fieldFields frame).seq →
      ∃ t, exec (.fieldFrame frame) s = .next t ∧
        (t.chan (entryChannel s n)).lastSeq = some (fieldFields frame).seq ∧
        (t.chan (entryChannel s n)).hit = some n ∧
        (2 ≤ (fieldFields frame).health → (t.chan (entryChannel s n)).state = .invalid) ∧
        ((fieldFields frame).health < 2 →
          (t.chan (entryChannel s n)).state = .fresh ∧
            (t.chan (entryChannel s n)).value = (fieldFields frame).value))

/-- FIELD_FRAME: a frame that fails its check, carries quantity 0 or 15, or matches no entry changes nothing (R22, R24); one
that is taken changes its channel as R30 or R31 states, and no other channel. A FAULT frame that takes a force or gap channel into
INVALID hands on a lapse, which leaves a SAMPLE_STALE record of a stand in THREAD, ROLL or TAIL (R30, R33, R144); one taken by a
channel already INVALID, or whose lapse nobody takes, changes its channel alone. A sample that leaves both channels of a stand
FRESH makes its SAMPLE_STALE gone: a RAISED record is HELD, and an ACKED one is removed (R144, R155). -/
def Obligations.FieldFrameRecorded : Prop :=
  ∀ (frame : List Byte) (s : State), Running s →
    (fieldCheck frame = false ∨ (fieldFields frame).quantity = 0 ∨ (fieldFields frame).quantity = 15 ∨
        (∀ n, (vget s.flc.accept n).accepts (fieldFields frame).tag (fieldFields frame).quantity = false) →
      exec (.fieldFrame frame) s = .next s) ∧
    ∀ n c, FrameFor s frame n → c = entryChannel s n → (s.chan c).lastSeq ≠ some (fieldFields frame).seq →
      ∃ t, exec (.fieldFrame frame) s = .next t ∧
        t.mch = vset s.mch c
          (if 2 ≤ (fieldFields frame).health then
            { s.chan c with
              state := .invalid, warn := false, lastSeq := some (fieldFields frame).seq, hit := some n, remaining := 0 }
          else
            { value := (fieldFields frame).value, prev := (s.chan c).value, state := .fresh,
              warn := decide ((fieldFields frame).health = 1), lastSeq := some (fieldFields frame).seq, hit := some n,
              remaining := vget s.sch.config.freshness c }) ∧
        (2 ≤ (fieldFields frame).health →
          (∀ k, c = forceCh k ∨ c = gapCh k → (s.chan c).state ≠ .invalid →
            (s.seq k).state = .thread ∨ (s.seq k).state = .roll ∨ (s.seq k).state = .tail → StaleRecorded k s t) ∧
          ((s.chan c).state = .invalid ∨
              (∀ k, c = forceCh k ∨ c = gapCh k →
                (s.seq k).state ≠ .thread ∧ (s.seq k).state ≠ .roll ∧ (s.seq k).state ≠ .tail) →
            t = { s with mch := t.mch })) ∧
        ((fieldFields frame).health < 2 → ∀ k,
          c = forceCh k ∧ (s.chan (gapCh k)).state = .fresh ∨ c = gapCh k ∧ (s.chan (forceCh k)).state = .fresh →
          t.present (.stand .sampleStale k) = false ∧
            ∀ r, s.recordOf (.stand .sampleStale k) = some r →
              t.recordOf (.stand .sampleStale k) =
                if r.state = .acked then none else some { r with state := .held })

/-- Samples of the drive status, force and gap channels at the trip matrix: DRIVE_FAULT is present exactly after a value other
than 0 (R145); FORCE_HIGH, in scope and absent, counts the values above F_max in a row, starts again at one within it, and has
a record once the count reaches P_f (R141, R142); GAP_WINDOW does the same with the values more than W from the window
reference and P_w (R141, R143). A gap sample within the window, or without a window reference, makes the window test of a
stand in SETUP (R120). -/
def Obligations.DriveAndForceSamples : Prop :=
  ∀ (k : Stand) (frame : List Byte) (n : EntryNo) (s : State), Running s → FrameFor s frame n →
    (s.chan (entryChannel s n)).lastSeq ≠ some (fieldFields frame).seq → (fieldFields frame).health < 2 →
    (entryChannel s n = driveCh k →
      ∃ t, exec (.fieldFrame frame) s = .next t ∧
        t.present (.stand .driveFault k) = decide ((fieldFields frame).value ≠ 0)) ∧
    (∀ r, s.record k = some r → entryChannel s n = forceCh k → scopeHolds s (.stand .forceHigh k) = true →
      s.present (.stand .forceHigh k) = false →
      ∃ t, exec (.fieldFrame frame) s = .next t ∧
        ((fieldFields frame).value ≤ (r.fMax : Int) →
          vget t.tmx.forceCnt k = 0 ∧ t.present (.stand .forceHigh k) = false) ∧
        ((r.fMax : Int) < (fieldFields frame).value → vget s.tmx.forceCnt k < 8 →
          if r.pF ≤ vget s.tmx.forceCnt k + 1 then t.recordOf (.stand .forceHigh k) ≠ none
          else vget t.tmx.forceCnt k = vget s.tmx.forceCnt k + 1 ∧ t.present (.stand .forceHigh k) = false)) ∧
    (∀ r ref, s.record k = some r → (s.gap k).windowRef = some ref → entryChannel s n = gapCh k →
      scopeHolds s (.stand .gapWindow k) = true → s.present (.stand .gapWindow k) = false →
      ∃ t, exec (.fieldFrame frame) s = .next t ∧
        (((fieldFields frame).value - ref).natAbs ≤ r.w →
          vget t.tmx.gapCnt k = 0 ∧ t.present (.stand .gapWindow k) = false) ∧
        (r.w < ((fieldFields frame).value - ref).natAbs → vget s.tmx.gapCnt k < 8 →
          if r.pW ≤ vget s.tmx.gapCnt k + 1 then t.recordOf (.stand .gapWindow k) ≠ none
          else vget t.tmx.gapCnt k = vget s.tmx.gapCnt k + 1 ∧ t.present (.stand .gapWindow k) = false)) ∧
    ∀ r, s.record k = some r → entryChannel s n = gapCh k → (s.seq k).state = .setup →
      (∀ ref, (s.gap k).windowRef = some ref → ((fieldFields frame).value - ref).natAbs ≤ r.w) →
      ∃ t, exec (.fieldFrame frame) s = .next t ∧
        (t.seq k).state =
          if (s.gap k).sRef = r.sPreset ∧ ((fieldFields frame).value - r.sPreset).natAbs ≤ r.w then .ready else .setup

/-- FRESHNESS_EXPIRY: a FRESH channel whose time has run out goes STALE with its other items held, and a lapse of a stand's
force or gap channel in THREAD, ROLL or TAIL leaves a SAMPLE_STALE record (R32, R33, R144). An expiry that is not due does
not happen (log 2). -/
def Obligations.FreshnessExpiry : Prop :=
  ∀ (c : Chan) (s : State), Running s →
    (¬((s.chan c).state = .fresh ∧ (s.chan c).remaining = 0) → exec (.freshnessExpiry c) s = .next s) ∧
    ((s.chan c).state = .fresh → (s.chan c).remaining = 0 →
      ∃ t, exec (.freshnessExpiry c) s = .next t ∧ t.mch = vset s.mch c { s.chan c with state := .stale } ∧
        ∀ k, c = forceCh k ∨ c = gapCh k →
          (s.seq k).state = .thread ∨ (s.seq k).state = .roll ∨ (s.seq k).state = .tail →
          StaleRecorded k s t)

/-! ## Setpoints and updates -/

/-- FIELD_OUT_TX_END: the line goes idle with no slot full, and else the setpoint of the lowest-numbered stand leaves its slot
and begins transmission, with that stand's tag and transmit sequence, which advances; its mode and gap are the last sent and,
but for OPEN, the gap the window reference (R38, R39, R89). An idle line has nothing to end. -/
def Obligations.FieldOutTakesLowestSlot : Prop :=
  ∀ s : State, Running s →
    (s.flc.tx = none → exec .fieldOutTxEnd s = .next s) ∧
    (s.flc.tx ≠ none → (∀ k, vget s.flc.slots k = none) →
      ∃ t, exec .fieldOutTxEnd s = .next t ∧ t.flc = { s.flc with tx := none } ∧ t.gce = s.gce) ∧
    (∀ k p, s.flc.tx ≠ none → vget s.flc.slots k = some p → (∀ j, j < k → vget s.flc.slots j = none) →
      ∃ t, exec .fieldOutTxEnd s = .next t ∧
        t.flc =
          { s.flc with
            slots := vset s.flc.slots k none
            tx := some { stand := k, tag := vget s.sch.config.tags k, seq := vget s.flc.seqs k, setpoint := p }
            seqs := vset s.flc.seqs k (vget s.flc.seqs k + 1) } ∧
        t.gap k =
          { s.gap k with
            lastSent := some p
            windowRef := if p.mode = .open_ then (s.gap k).windowRef else some p.gap } ∧
        ∀ j, j ≠ k → t.gap j = s.gap j)

/-- UPDATE_TIMER_EXPIRY: the timer is reloaded and the stand sends what its state calls for, but for the full ROLL update
(R88, R90 to R94, R104): what it sends becomes S_ref, and goes to the line or to its slot, or nowhere with the stand's tag 0
(R36, R90). A stand that has nothing to send, OUT under RELEASE or under HOLD without a last sent, or in the equalize interval,
changes only its timer; a LOCAL or HANDOVER stand sends nothing and its slot is emptied (R37). A stand in THREAD or ROLL computes its
estimate or marks it stale (R95 to R97), a stand in THREAD at its lock delay then locks on with a usable one (R98), and a
stand in SETUP makes the window test (R120). An expiry that is not due does not happen (log 2). -/
def Obligations.UpdateSendsByState : Prop :=
  ∀ (k : Stand) (s : State), Running s →
    ((s.gap k).timer ≠ some 0 → exec (.updateTimerExpiry k) s = .next s) ∧
    ∀ r, s.record k = some r → (s.gap k).timer = some 0 →
      ∃ t, exec (.updateTimerExpiry k) s = .next t ∧ (t.gap k).timer = some r.tCtl ∧
        ((s.seq k).state = .local_ ∨ (s.seq k).state = .handover →
          t.gap k = { s.gap k with timer := some r.tCtl } ∧
            t.flc = { s.flc with slots := vset s.flc.slots k none }) ∧
        ((s.seq k).state = .out ∧ (r.outCode = .release ∨ r.outCode = .hold ∧ (s.gap k).lastSent = none) ∨
            ((s.seq k).state = .setup ∨ (s.seq k).state = .ready) ∧ (s.seq k).equalize ≠ none →
          t.gap k = { s.gap k with timer := some r.tCtl } ∧ t.flc = s.flc) ∧
        (∀ p : Setpoint,
          ((s.seq k).state = .tripped ∧ p = ⟨.open_, r.sOpen⟩ ∨
            (s.seq k).state = .ready ∧ (s.seq k).equalize = none ∧ p = ⟨.preset, r.sPreset⟩ ∨
            (s.seq k).state = .thread ∧ p = ⟨.hold, r.sPreset⟩ ∨
            (s.seq k).state = .tail ∧ p = ⟨.hold, (s.gap k).sRef⟩ ∨
            (s.seq k).state = .out ∧ r.outCode = .park ∧ p = ⟨.hold, r.sOpen⟩ ∨
            (s.seq k).state = .out ∧ r.outCode = .hold ∧
              (∃ q, (s.gap k).lastSent = some q ∧ p = ⟨.hold, q.gap⟩) ∨
            (s.seq k).state = .roll ∧ ((s.seq k).frozen = true ∨ (s.chan (forceCh k)).state ≠ .fresh ∨
              (s.chan (gapCh k)).state ≠ .fresh) ∧ p = ⟨.hold, (s.gap k).sRef⟩ ∨
            (s.seq k).state = .setup ∧ (s.seq k).equalize = none ∧
              ∃ base : Int, base = (match (s.gap k).lastSent with
                | some q => q.gap
                | none => (s.gap k).sRef) ∧
                p = ⟨.preset, base + max (-(r.r : Int)) (min r.r (r.sPreset - base))⟩) →
          (t.gap k).sRef = p.gap ∧
          (vget s.sch.config.tags k = 0 →
            t.flc = { s.flc with slots := vset s.flc.slots k none } ∧ (t.gap k).lastSent = (s.gap k).lastSent) ∧
          (vget s.sch.config.tags k ≠ 0 →
            (s.flc.tx = none →
              t.flc.tx =
                some { stand := k, tag := vget s.sch.config.tags k, seq := vget s.flc.seqs k, setpoint := p } ∧
              (t.gap k).lastSent = some p) ∧
            (s.flc.tx ≠ none → t.flc.tx = s.flc.tx ∧ vget t.flc.slots k = some p))) ∧
        ((s.seq k).state = .thread ∨ (s.seq k).state = .roll →
          (∀ raw : Int, raw = max (-10000) (min 80000 (s.chan (gapCh k)).value) +
              (max 0 (min 60000 (s.chan (forceCh k)).value) * 1000 + r.m / 2) / r.m + r.z →
            (s.chan (forceCh k)).state = .fresh → (s.chan (gapCh k)).state = .fresh →
            (t.gap k).hGm = some (max 0 (min 65000 raw)).toNat ∧ (t.gap k).stale = false ∧
              (t.gap k).gmSat = decide (raw < 0 ∨ 65000 < raw)) ∧
          ((s.chan (forceCh k)).state ≠ .fresh ∨ (s.chan (gapCh k)).state ≠ .fresh →
            (t.gap k).hGm = (s.gap k).hGm ∧ (t.gap k).stale = true ∧ (t.gap k).gmSat = (s.gap k).gmSat)) ∧
        ((s.seq k).state = .thread →
          if (s.gap k).lockCount = r.lockDelay ∧ (s.chan (forceCh k)).state = .fresh ∧ (s.chan (gapCh k)).state = .fresh then
            (t.seq k).state = .roll ∧ (t.gap k).locked = true ∧ some (t.gap k).hLock = (t.gap k).hGm ∧
              (t.gap k).sRefLock = r.sPreset
          else (t.seq k).state = .thread ∧ (t.gap k).locked = (s.gap k).locked) ∧
        ((s.seq k).state = .setup →
          (t.seq k).state =
            if (t.gap k).sRef = r.sPreset ∧ (s.chan (gapCh k)).state = .fresh ∧
                ((s.chan (gapCh k)).value - r.sPreset).natAbs ≤ r.w then .ready
            else .setup)

/-- The full ROLL update of a stand not frozen with FRESH inputs: the gauge-meter estimate, the combined error with its
deadband, the gap correction, the clamp to the gap limits and the slew limit, with their flags (R95, R96, R100 to R103). -/
def Obligations.RollUpdate : Prop :=
  ∀ (k : Stand) (r : StandRecord) (s : State) (raw h dIn e target clamped base ref : Int), Running s →
    s.record k = some r → (s.gap k).timer = some 0 → (s.seq k).state = .roll → (s.seq k).frozen = false →
    (s.chan (forceCh k)).state = .fresh → (s.chan (gapCh k)).state = .fresh →
    raw = saturate (-10000) 80000 (s.chan (gapCh k)).value +
      (saturate 0 60000 (s.chan (forceCh k)).value * 1000 + r.m / 2) / r.m + r.z →
    h = max 0 (min 65000 raw) →
    dIn = (match vget s.stk.bites k with
      | none => 0
      | some g =>
        if s.firstActive = some k then
          (if g.entrySrc = .gauge then (g.entryH : Int) - s.millRec.elim 0 (·.hEntry) else 0)
        else g.dev.getD 0) →
    e = max (-20000) (min 20000 (roundDiv (r.kgm * (h - (s.gap k).hLock) + r.kff * dIn) 256 + (s.gap k).integ)) →
    target = (s.gap k).sRefLock - roundDiv ((if e.natAbs ≤ r.db then 0 else e) * r.c) 1024 + (s.gap k).trim →
    clamped = (if target < r.sMin then r.sMin else if r.sMax < target then r.sMax else target) →
    base = (match (s.gap k).lastSent with
      | some q => q.gap
      | none => (s.gap k).sRef) →
    ref = base + max (-(r.r : Int)) (min r.r (clamped - base)) →
    ∃ t, exec (.updateTimerExpiry k) s = .next t ∧ (t.gap k).timer = some r.tCtl ∧ (t.gap k).hGm = some h.toNat ∧
      (t.gap k).gmSat = decide (h ≠ raw) ∧ (t.gap k).stale = false ∧ (t.gap k).sRef = ref ∧
      (t.gap k).limited = decide (clamped ≠ target) ∧ (t.gap k).slewing = decide (ref ≠ clamped) ∧
      (s.flc.tx ≠ none → vget s.sch.config.tags k ≠ 0 → vget t.flc.slots k = some ⟨.track, ref⟩)

/-! ## Stand and stream timers -/

/-- NON_OVERLAP_EXPIRY asserts FAST_OPEN, and EQUALIZE_EXPIRY ends its interval; neither changes anything else (R125, R126). An
expiry that is not due does not happen (log 2). -/
def Obligations.IntervalTimers : Prop :=
  ∀ (k : Stand) (s : State), s.inReset = false →
    exec (.nonOverlapExpiry k) s =
      .next (if (s.seq k).nonOverlap = some 0 then
        { s with ssq := vset s.ssq k { s.seq k with nonOverlap := none, fastOpen := true } } else s) ∧
    exec (.equalizeExpiry k) s =
      .next (if (s.seq k).equalize = some 0 then { s with ssq := vset s.ssq k { s.seq k with equalize := none } } else s)

/-- HANDOVER_TIMER_EXPIRY ends a pending handover with DENIED_TIMEOUT: the record goes, LOCAL_REQ is deasserted, a TO_COORD
stand is LOCAL and a TO_LOCAL stand returns by the table of R132 (R131, R132). An expiry that is not due does not happen
(log 2). -/
def Obligations.HandoverExpiry : Prop :=
  ∀ (k : Stand) (s : State), Running s →
    ((s.seq k).handover = none → exec (.handoverTimerExpiry k) s = .next s) ∧
    ∀ h, (s.seq k).handover = some h →
      (h.remaining ≠ 0 → exec (.handoverTimerExpiry k) s = .next s) ∧
      (h.remaining = 0 →
        ∃ t, exec (.handoverTimerExpiry k) s = .next t ∧ (t.seq k).handover = none ∧ (t.seq k).localReq = false ∧
          (h.dir = .toCoord → (t.seq k).state = .local_) ∧
          (∀ p, h.dir = .toLocal → h.prior = some p →
            p = .out ∨ p = .setup ∨ p = .ready ∨ p = .tripped →
            (t.seq k).state =
              if p = .tripped then .tripped
              else if s.inSet k = false then .out
              else if s.openCover k = true then .tripped
              else if p = .out then .setup
              else p) ∧
          (s.hlk.tx ≠ none → kindEnabled s.hlk.mask (.handoverDone k) = true →
            ∃ n ∈ t.hlk.queue, n.body = .handoverDone k h.dir .deniedTimeout))

/-- STREAM_TIMER_EXPIRY reloads the timer with the period and puts the present readings of the stream's channels into its
notice (R182). An expiry that is not due does not happen (log 2). -/
def Obligations.StreamExpiry : Prop :=
  ∀ (i : StreamId) (s : State), Running s →
    ((vget s.hlk.streams i).timer ≠ some 0 → exec (.streamTimerExpiry i) s = .next s) ∧
    ((vget s.hlk.streams i).timer = some 0 →
      ∃ t, exec (.streamTimerExpiry i) s = .next t ∧
        t.hlk.streams =
          vset s.hlk.streams i { vget s.hlk.streams i with timer := some (vget s.hlk.streams i).period } ∧
        t.mch = s.mch ∧ t.stk = s.stk ∧ t.ssq = s.ssq ∧ t.tmx = s.tmx ∧
        (s.hlk.tx ≠ none → kindEnabled s.hlk.mask (.channelPeriodic i) = true →
          ∃ n ∈ t.hlk.queue,
            n.body = .channelPeriodic i s.ms ((vget s.hlk.streams i).chans.map fun c =>
              { ch := c, value := (s.chan c).value, state := (s.chan c).state, warn := (s.chan c).warn })))

/-! ## The host line -/

/-- HOST_TX_END: the reply in the slot begins transmission, and a held request is then taken, with its effects, its reply
composed into the slot; else the oldest notice leaves the queue and begins; else the line goes idle (R171, R173, R174). An idle
line has nothing to end. A frame in transmission takes its bytes back to back on the transmit pin, ten bit times each: a low
start bit, the data bits least significant first, a high stop bit; behind the frame, and on an idle line, the pin is high
(R167). -/
def Obligations.HostLineTakesNext : Prop :=
  ∀ s : State,
    (s.hlk.tx = none → exec .hostTxEnd s = .next s) ∧
    (s.hlk.tx ≠ none → s.inReset = false →
      (∀ r, s.hlk.slot = some r → s.hlk.held = none →
        exec .hostTxEnd s = .next { s with hlk := { s.hlk with slot := none, tx := some r } }) ∧
      (∀ r q u, s.hlk.slot = some r → s.hlk.held = some q →
        u = answer q.kind.toNat q.body { s with hlk := { s.hlk with slot := none, held := none, tx := some r } } →
        exec .hostTxEnd s =
          .next { u.1 with
            hlk := { u.1.hlk with slot := some { kind := q.kind + 0x80, tag := q.tag, body := u.2 } } }) ∧
      (∀ n rest, s.hlk.slot = none → s.hlk.queue = n :: rest →
        exec .hostTxEnd s = .next { s with hlk := { s.hlk with queue := rest, tx := some n.frame } }) ∧
      (s.hlk.slot = none → s.hlk.queue = [] →
        exec .hostTxEnd s = .next { s with hlk := { s.hlk with tx := none } })) ∧
    (s.hlk.tx = none → ∀ n, s.hostTxPin n = .high) ∧
    ∀ f, s.hlk.tx = some f →
      (∀ n, 10 * f.bytes.length ≤ n → s.hostTxPin n = .high) ∧
      ∀ i b, f.bytes[i]? = some b →
        s.hostTxPin (10 * i) = .low ∧ s.hostTxPin (10 * i + 9) = .high ∧
          ∀ j, j < 8 → s.hostTxPin (10 * i + 1 + j) = if b.getLsbD j = true then .high else .low

/-- A request that arrives is taken at once while slot and hold place are empty, held behind a full slot, and discarded behind
a full hold place; one whose KIND is 0x80 or above is discarded (R170, R171). That a request COMMAND meets R170 and R171 so,
and that UNKNOWN_KIND_REQUEST with the KIND of a request is answered as that request, are inferences of the model's (log 6). -/
def Obligations.RequestTakenHeldOrDiscarded : Prop :=
  ∀ (c : Instr) (q : HostFrame) (s : State), requestOf c = some q →
    (128 ≤ q.kind.toNat → LineOk s → exec c s = .next s) ∧
    (q.kind.toNat < 128 → HostFree s →
      exec c s =
        .next (reply q.kind q.tag (answer q.kind.toNat q.body s).2 (answer q.kind.toNat q.body s).1)) ∧
    (q.kind.toNat < 128 → s.inReset = false → s.hlk.tx ≠ none → s.hlk.slot ≠ none → s.hlk.held = none →
      exec c s = .next { s with hlk := { s.hlk with held := some q } }) ∧
    (s.hlk.tx ≠ none → s.hlk.held ≠ none → exec c s = .next s)

/-- A refused request changes nothing but the line (R172): an unknown KIND is answered UNKNOWN_KIND, a body of the wrong
length BAD_LENGTH, a SET_ACCEPT body whose length is not the one its count requires among them, and any reply whose code is
neither OK nor CLAMPED leaves the part as it was. A parameter out of its range is answered BAD_PARAM with its number in the
request's parameter list, or field 0 for a run of channels (R11, R34, R82, R83, R105, R127, R129, R156, R159, R173); of two
that fail the first is named (the model's inference, log 23). -/
def Obligations.RefusedRequestChangesNothing : Prop :=
  ∀ (c : Instr) (q : HostFrame) (s : State), requestOf c = some q → q.kind.toNat < 128 → HostFree s →
    ((q.kind.toNat = 0 ∨ 26 < q.kind.toNat) → exec c s = .next (reply q.kind q.tag [2] s)) ∧
    (∀ n, requiredLength q.kind = some n → q.body.length ≠ n → exec c s = .next (reply q.kind q.tag [3] s)) ∧
    (q.kind = 0x04 → q.body.length < 2 ∨ q.body.length ≠ 2 + 7 * rd8 q.body 1 →
      exec c s = .next (reply q.kind q.tag [3] s)) ∧
    (∀ field, BadParameter q field → exec c s = .next (reply q.kind q.tag ([4, 0] ++ enc8 field ++ [0]) s)) ∧
    ∀ code rest, (answer q.kind.toNat q.body s).2 = code :: rest → code ≠ 0 → code ≠ 1 →
      exec c s = .next (reply q.kind q.tag (code :: rest) s)

/-! ## Requests: identity, status, configuration -/

/-- IDENTIFY replies with the part code 0x0E08, revision 1, the nine capacities and the strap code, and changes no state
(R175). -/
def Obligations.Identify : Prop :=
  ∀ (tag : Byte) (s : State), HostFree s →
    exec (.identify tag []) s =
      .next (reply 0x01 tag
        [0, 0x0E, 0x08, 1, 8, 32, 24, 24, 32, 71, 96, 4, 26, BitVec.ofNat 8 s.hlk.straps.toNat] s)

/-- STATUS replies with the 245 bytes of R189 and changes no state of the part (R176). A value is read back wherever it lies in
the range that its item encodes (R178). The prior-state bits of byte 5 of a stand block during a TO_COORD handover are a free
value (log 10) and not among the bytes named here; using it advances the model's own `freeIx`. -/
def Obligations.StatusSnapshot : Prop :=
  ∀ (tag : Byte) (s : State), HostFree s →
    ∃ (b : List Byte) (ix : Nat), exec (.status tag []) s = .next (reply 0x02 tag b { s with freeIx := ix }) ∧
      b.length = 245 ∧ rd8 b 0 = 0 ∧ rd32 b 1 = s.ms.toNat ∧ rd8 b 5 = millCode s.stk.mill ∧
      (s.stk.coil < 65536 → rd16 b 6 = s.stk.coil) ∧ (s.stk.allocated < 65536 → rd16 b 8 = s.stk.allocated) ∧
      (s.stk.retired < 65536 → rd16 b 10 = s.stk.retired) ∧ rd8 b 12 = activeCode s.sch.active.state ∧
      (s.sch.active.serial < 65536 → rd16 b 13 = s.sch.active.serial) ∧
      rd8 b 15 = pendingCode s.sch.pendingBank.state ∧
      (s.sch.pendingBank.serial < 65536 → rd16 b 16 = s.sch.pendingBank.serial) ∧
      (s.tmx.table.length < 256 → rd8 b 18 = s.tmx.table.length) ∧
      rd8 b 19 = (match s.tmx.table.find? (·.firstOut) with
        | some r => r.key.num
        | none => 255) ∧
      rd8 b 20 = (if s.tmx.stopLine then 1 else 0) ∧
      ∀ (k : Stand) (o : Nat), o = 21 + 28 * k.val →
        rd8 b o = standCode (s.seq k).state ∧ rd16 b (o + 1) = s.statusFlags k ∧
        rd8 b (o + 3) = (if s.tmx.table.any fun r => r.covers k && r.action == .millStop then actionCode .millStop
          else if s.tmx.table.any fun r => r.covers k && r.action == .open_ then actionCode .open_
          else if s.tmx.table.any fun r => r.covers k && r.action == .freeze then actionCode .freeze
          else 255) ∧
        ((s.seq k).handover = none → rd8 b (o + 4) = 0 ∧ rd16 b (o + 5) = 0) ∧
        (∀ h, (s.seq k).handover = some h →
          (∀ p, h.dir = .toLocal → h.prior = some p → rd8 b (o + 4) = 16 + standCode p) ∧
          (h.dir = .toCoord → rd8 b (o + 4) / 16 = 2) ∧
          (h.remaining < 65536 → rd16 b (o + 5) = h.remaining)) ∧
        ((s.seq k).nonOverlap = none → rd8 b (o + 7) = 0) ∧
        (∀ n, (s.seq k).nonOverlap = some n → n < 256 → rd8 b (o + 7) = n) ∧
        ((s.seq k).equalize = none → rd8 b (o + 8) = 0) ∧
        (∀ n, (s.seq k).equalize = some n → n < 256 → rd8 b (o + 8) = n) ∧
        (-8388608 ≤ (s.gap k).sRef → (s.gap k).sRef < 8388608 → rdS24 b (o + 9) = (s.gap k).sRef) ∧
        ((s.gap k).lastSent = none → rd8 b (o + 12) = 255 ∧ rd24 b (o + 13) = 0) ∧
        (∀ p, (s.gap k).lastSent = some p →
          rd8 b (o + 12) = modeCode p.mode ∧
          (-8388608 ≤ p.gap → p.gap < 8388608 → rdS24 b (o + 13) = p.gap)) ∧
        ((s.gap k).hGm = none → rd16 b (o + 16) = 65535) ∧
        (∀ h, (s.gap k).hGm = some h → h < 65536 → rd16 b (o + 16) = h) ∧
        ((s.gap k).hLock < 65536 → rd16 b (o + 18) = (s.gap k).hLock) ∧
        (-8388608 ≤ (s.gap k).sRefLock → (s.gap k).sRefLock < 8388608 →
          rdS24 b (o + 20) = (s.gap k).sRefLock) ∧
        ((s.gap k).lockCount < 256 → rd8 b (o + 23) = (s.gap k).lockCount) ∧
        (-32768 ≤ (s.gap k).trim → (s.gap k).trim < 32768 → rdS16 b (o + 24) = (s.gap k).trim) ∧
        (-32768 ≤ (s.gap k).integ → (s.gap k).integ < 32768 → rdS16 b (o + 26) = (s.gap k).integ)

/-- CONFIGURE in IDLE with every item in range replaces the two filter counts, the eight tags and the 32 freshness timeouts,
keeps the action table, and empties the slot of a stand whose tag it sets to 0 (R18, R37). Outside IDLE it is refused; in IDLE
the first item out of its range, in body order, refuses it and is named: a filter count as item 0, field 1 or 2, the tag of
stand k as item k, field 3, and the timeout of channel n as item n, field 4 (R18). -/
def Obligations.ConfigureReplacesItems : Prop :=
  ∀ (tag : Byte) (s : State), HostFree s →
    (∀ body : List Byte, body.length = 50 → s.stk.mill ≠ .idle →
      exec (.configure tag body) s = .next (reply 0x03 tag [5] s)) ∧
    (∀ (short long : Nat) (tags : Vector (BitVec 12) 8) (freshness : Vector Nat 32) (body : List Byte),
      body = enc8 short ++ enc8 long ++ (allStands.map fun k => enc16 (vget tags k).toNat).flatten ++
        (allChans.map fun c => enc8 (vget freshness c)).flatten →
      2 ≤ short → short ≤ 15 → 20 ≤ long → long ≤ 250 →
      (∀ c, 1 ≤ vget freshness c ∧ vget freshness c ≤ 255) →
      s.stk.mill = .idle →
      exec (.configure tag body) s =
        .next (reply 0x03 tag [0]
          { s with
            sch := { s.sch with
              config := { s.sch.config with
                shortCount := short, longCount := long, tags := tags, freshness := freshness } }
            flc := { s.flc with slots := vtab fun k => if vget tags k = 0 then none else vget s.flc.slots k } })) ∧
    ∀ body : List Byte, body.length = 50 → s.stk.mill = .idle →
      (rd8 body 0 < 2 ∨ 15 < rd8 body 0 → exec (.configure tag body) s = .next (reply 0x03 tag [4, 0, 1, 0] s)) ∧
      (2 ≤ rd8 body 0 → rd8 body 0 ≤ 15 →
        (rd8 body 1 < 20 ∨ 250 < rd8 body 1 → exec (.configure tag body) s = .next (reply 0x03 tag [4, 0, 2, 0] s)) ∧
        (20 ≤ rd8 body 1 → rd8 body 1 ≤ 250 →
          (∀ k : Stand, 4095 < rd16 body (2 + 2 * k.val) → (∀ j : Stand, j < k → rd16 body (2 + 2 * j.val) ≤ 4095) →
            exec (.configure tag body) s = .next (reply 0x03 tag ([4] ++ enc8 (Stand.pos k) ++ [3, 0]) s)) ∧
          ((∀ k : Stand, rd16 body (2 + 2 * k.val) ≤ 4095) →
            ∀ c : Chan, rd8 body (18 + c.val) = 0 → (∀ d : Chan, d < c → 1 ≤ rd8 body (18 + d.val)) →
            exec (.configure tag body) s = .next (reply 0x03 tag ([4] ++ enc8 c.val ++ [4, 0]) s))))

/-- SET_ACCEPT is refused outside IDLE; in IDLE, a run that does not lie within the table is refused naming field 0, and a
field out of its range naming the entry and field of the first failure; else it writes its run of entries and no other (R23,
R25). READ_ACCEPT checks its run alike, in every mill state, and replies with the run it names; it changes no state (R26).
-/
def Obligations.AcceptanceTable : Prop :=
  ∀ (tag : Byte) (first : Nat) (es : List AcceptEntry) (s : State), HostFree s → first < 256 → es.length ≤ 35 →
    (s.stk.mill ≠ .idle →
      exec (.setAccept tag (enc8 first ++ enc8 es.length ++ (es.map encEntry).flatten)) s = .next (reply 0x04 tag [5] s)) ∧
    (s.stk.mill = .idle → 23 < first ∨ es = [] ∨ 24 < first + es.length →
      exec (.setAccept tag (enc8 first ++ enc8 es.length ++ (es.map encEntry).flatten)) s =
        .next (reply 0x04 tag [4, 0, 0, 0] s)) ∧
    (∀ (enabled etag mask quantity channel field count : Nat) (rest : List Byte), s.stk.mill = .idle →
      (∀ e ∈ es, e.quantity ≤ 14) → es.length < count → first + count ≤ 24 →
      rest.length = 7 * (count - es.length - 1) →
      enabled < 256 → etag < 65536 → mask < 65536 → quantity < 256 → channel < 256 →
      (1 < enabled ∨ 4095 < etag ∨ 4095 < mask ∨ 14 < quantity ∨ 31 < channel) →
      field = (if 1 < enabled then 1 else if 4095 < etag then 2 else if 4095 < mask then 3 else if 14 < quantity then 4
        else 5) →
      exec (.setAccept tag (enc8 first ++ enc8 count ++ (es.map encEntry).flatten ++
          (enc8 enabled ++ enc16 etag ++ enc16 mask ++ enc8 quantity ++ enc8 channel) ++ rest)) s =
        .next (reply 0x04 tag ([4] ++ enc8 (first + es.length) ++ enc8 field ++ [0]) s)) ∧
    (s.stk.mill = .idle → es ≠ [] → first + es.length ≤ 24 → (∀ e ∈ es, e.quantity ≤ 14) →
      exec (.setAccept tag (enc8 first ++ enc8 es.length ++ (es.map encEntry).flatten)) s =
        .next (reply 0x04 tag ([0] ++ enc8 first ++ enc8 es.length)
          { s with
            flc := { s.flc with
              accept := vtab fun n =>
                if first ≤ n.val then (es[n.val - first]?).getD (vget s.flc.accept n) else vget s.flc.accept n } })) ∧
    (∀ count, count < 256 → 23 < first ∨ count = 0 ∨ 24 < first + count →
      exec (.readAccept tag (enc8 first ++ enc8 count)) s = .next (reply 0x05 tag [4, 0, 0, 0] s)) ∧
    (es ≠ [] → first + es.length ≤ 24 →
      (∀ i e, es[i]? = some e → ∀ n : EntryNo, n.val = first + i → vget s.flc.accept n = e) →
      exec (.readAccept tag (enc8 first ++ enc8 es.length)) s =
        .next (reply 0x05 tag ([0] ++ enc8 first ++ enc8 es.length ++ (es.map encEntry).flatten) s))

/-- SET_ACTIONS is refused outside IDLE, and in IDLE for a list that is not 1 to 12 items and for the first item with a row
or an action out of range, a fixed row, or a row that an earlier item names; else it sets the named rows. Every reply
carries the 12 rows as they then stand (R152). That positions of items count from 1 is an inference of the model's (log 15).
-/
def Obligations.SetActionsWritesRows : Prop :=
  ∀ (tag : Byte) (items : List (Fin 12 × Action)) (rows : Vector Action 12 → List Byte) (s : State), HostFree s →
    (∀ v, rows v = ((List.finRange 12).map fun r => enc8 (actionCode (vget v r))).flatten) →
    (s.stk.mill ≠ .idle → ∀ body,
      exec (.setActions tag body) s = .next (reply 0x06 tag ([5] ++ rows s.sch.config.actions) s)) ∧
    (s.stk.mill = .idle →
      (∀ body, body.length % 2 ≠ 0 ∨ body = [] ∨ 24 < body.length →
        exec (.setActions tag body) s = .next (reply 0x06 tag ([3] ++ rows s.sch.config.actions) s)) ∧
      ((items.map Prod.fst).Nodup → (∀ p ∈ items, 3 ≤ p.1.val) →
        (∀ (row action : Nat) (rest : List Byte), row < 256 → action < 256 →
          11 < row ∨ 3 < action ∨ row ≤ 2 ∨ row ∈ items.map (fun p => p.1.val) →
          rest.length % 2 = 0 → 2 * items.length + 2 + rest.length ≤ 24 →
          exec (.setActions tag
              ((items.map fun p => enc8 p.1.val ++ enc8 (actionCode p.2)).flatten ++ enc8 row ++ enc8 action ++ rest)) s =
            .next (reply 0x06 tag ([4] ++ enc8 (items.length + 1) ++ [0, 0] ++ rows s.sch.config.actions) s)) ∧
        ∀ actions : Vector Action 12, items ≠ [] →
          actions = (vtab fun r => match items.find? fun p => p.1 = r with
            | some p => p.2
            | none => vget s.sch.config.actions r) →
          exec (.setActions tag ((items.map fun p => enc8 p.1.val ++ enc8 (actionCode p.2)).flatten)) s =
            .next (reply 0x06 tag ([0] ++ rows actions)
              { s with sch := { s.sch with config := { s.sch.config with actions := actions } } })))

/-! ## Requests: schedules -/

/-- LOAD_STAND and LOAD_MILL with every field in range: the record that the body's bytes spell stands in the pending bank,
which is EDITING with serial 0, and nothing else changes (R4, R6, R8, R9, R178). The bytes beyond the active set's count are
ignored, whatever they are. A LOAD_STAND for a position outside 1 to 8 is refused naming item 0 and field 0, and one with a
field out of its range naming the position and the lowest-numbered such field (R8). A LOAD_MILL is refused naming item 0 and
its lowest-numbered failing field: 1 for an active set that is no ascending list of 1 to 8 positions, 2 with the position of
the failing span table entry, and 3 to 8 for the other items (R6, R9); that the lowest of several failing entries is named is
the model's inference (log 23). -/
def Obligations.LoadsWritePendingBank : Prop :=
  ∀ (tag : Byte) (s : State), HostFree s →
    (∀ (k : Stand) (r : StandRecord), r.inRange = true →
      exec (.loadStand tag (enc8 (Stand.pos k) ++ encStand r)) s =
        .next (reply 0x07 tag ([0] ++ enc8 (Stand.pos k) ++ [1])
          { s with
            sch := { s.sch with
              pendingBank :=
                { state := .editing, serial := 0
                  bank := { s.sch.pendingBank.bank with stands := vset s.sch.pendingBank.bank.stands k (some r) } } } })) ∧
    (∀ body : List Byte, body.length = 53 →
      (rd8 body 0 = 0 ∨ 8 < rd8 body 0 → exec (.loadStand tag body) s = .next (reply 0x07 tag [4, 0, 0, 0] s)) ∧
      ∀ (k : Stand) (i : Nat) (x lo hi : Int), rd8 body 0 = Stand.pos k →
        (standFields (rd8 body 1) (rdStand body 1))[i]? = some (x, lo, hi) → x < lo ∨ hi < x →
        (∀ j y a b, j < i → (standFields (rd8 body 1) (rdStand body 1))[j]? = some (y, a, b) → a ≤ y ∧ y ≤ b) →
        exec (.loadStand tag body) s = .next (reply 0x07 tag ([4] ++ enc8 (Stand.pos k) ++ enc8 (i + 1) ++ [0]) s)) ∧
    (∀ (m : MillRecord) (unused : Nat → Byte), m.inRange = true →
      exec (.loadMill tag (encMill m unused)) s =
        .next (reply 0x08 tag [0, 1]
          { s with
            sch := { s.sch with
              pendingBank :=
                { state := .editing, serial := 0, bank := { s.sch.pendingBank.bank with mill := some m } } } })) ∧
    ∀ (body : List Byte) (active : Prop), body.length = 38 →
      (active ↔ ∃ set : List Stand, set ≠ [] ∧ set.Pairwise (· < ·) ∧
        body.take (set.length + 1) = enc8 set.length ++ set.map fun k => BitVec.ofNat 8 (Stand.pos k)) →
      (¬active → exec (.loadMill tag body) s = .next (reply 0x08 tag [4, 0, 1, 0] s)) ∧
      (active →
        (∀ i : Fin 7, ¬SpanInRange body i → (∀ j : Fin 7, j < i → SpanInRange body j) →
          exec (.loadMill tag body) s = .next (reply 0x08 tag ([4, 0, 2] ++ enc8 (i.val + 2)) s)) ∧
        ((∀ i : Fin 7, SpanInRange body i) →
          ∀ (i x lo hi : Nat), (millFields body)[i]? = some (x, lo, hi) → x < lo ∨ hi < x →
            (∀ j y a b, j < i → (millFields body)[j]? = some (y, a, b) → a ≤ y ∧ y ≤ b) →
            exec (.loadMill tag body) s = .next (reply 0x08 tag ([4, 0] ++ enc8 (i + 3) ++ [0]) s)))

/-- READ_BANK replies with the selected bank's state and serial, the item, its presence and, where present, the record; it
changes no state of the part (R11). The bytes of the unused places of an active set are free values (log 9), and using them
advances the model's own `freeIx`. -/
def Obligations.ReadBankReplies : Prop :=
  ∀ (tag sel : Byte) (bank : Bank) (head : List Byte) (s : State), HostFree s →
    (sel = 0 ∧ bank = s.sch.active.bank ∧ head = enc8 (activeCode s.sch.active.state) ++ enc16 s.sch.active.serial ∨
      sel = 1 ∧ bank = s.sch.pendingBank.bank ∧
        head = enc8 (pendingCode s.sch.pendingBank.state) ++ enc16 s.sch.pendingBank.serial) →
    (∀ k : Stand,
      exec (.readBank tag [sel, BitVec.ofNat 8 (Stand.pos k)]) s =
        .next (reply 0x0B tag ([0] ++ head ++ enc8 (Stand.pos k) ++ (match vget bank.stands k with
          | some r => [1] ++ encStand r
          | none => [0])) s)) ∧
    (bank.mill = none → exec (.readBank tag [sel, 0]) s = .next (reply 0x0B tag ([0] ++ head ++ [0, 0]) s)) ∧
    (∀ m, bank.mill = some m →
      ∃ (unused : Nat → Byte) (ix : Nat),
        exec (.readBank tag [sel, 0]) s =
          .next (reply 0x0B tag ([0] ++ head ++ [0, 1] ++ encMill m unused) { s with freeIx := ix }))

/-- COMMIT, by the pending state and the mill state (R2, R12, R13): refused for an EMPTY bank, and for an EDITING one with the
item and field of the first check that fails: the mill record, a record of the active set, the order of a record's four gaps;
outside IDLE a validated bank is COMMITTED with the counter's serial and waits, and a COMMITTED one stays so. -/
def Obligations.CommitDeferred : Prop :=
  ∀ (tag : Byte) (bank : Bank) (s : State), HostFree s → bank = s.sch.pendingBank.bank →
    (s.sch.pendingBank.state = .empty → exec (.commit tag []) s = .next (reply 0x09 tag [5] s)) ∧
    (s.sch.pendingBank.state = .editing → bank.mill = none →
      exec (.commit tag []) s = .next (reply 0x09 tag [4, 0, 0, 0] s)) ∧
    (s.sch.pendingBank.state = .editing → ∀ m, bank.mill = some m →
      (∀ k before after, m.activeSet = before ++ k :: after → (∀ j ∈ before, vget bank.stands j ≠ none) →
        vget bank.stands k = none →
        exec (.commit tag []) s = .next (reply 0x09 tag ([4] ++ enc8 (Stand.pos k) ++ [0, 0]) s)) ∧
      ((∀ k ∈ m.activeSet, vget bank.stands k ≠ none) →
        ∀ k r, vget bank.stands k = some r →
          (∀ j q, j < k → vget bank.stands j = some q → q.sMin ≤ q.sPreset ∧ q.sPreset ≤ q.sMax ∧ q.sMax ≤ q.sOpen) →
          (r.sPreset < r.sMin →
            exec (.commit tag []) s = .next (reply 0x09 tag ([4] ++ enc8 (Stand.pos k) ++ [4, 0]) s)) ∧
          (r.sMin ≤ r.sPreset → r.sMax < r.sPreset →
            exec (.commit tag []) s = .next (reply 0x09 tag ([4] ++ enc8 (Stand.pos k) ++ [3, 0]) s)) ∧
          (r.sMin ≤ r.sPreset → r.sPreset ≤ r.sMax → r.sOpen < r.sMax →
            exec (.commit tag []) s = .next (reply 0x09 tag ([4] ++ enc8 (Stand.pos k) ++ [5, 0]) s)))) ∧
    (s.stk.mill ≠ .idle → s.sch.pendingBank.state = .committed →
      exec (.commit tag []) s = .next (reply 0x09 tag ([0, 1] ++ enc16 s.sch.pendingBank.serial) s)) ∧
    ∀ next : Nat, next = (if s.sch.counter < 65535 then s.sch.counter + 1 else 1) →
      s.stk.mill ≠ .idle → s.sch.pendingBank.state = .editing → Validated bank →
      exec (.commit tag []) s =
        .next (reply 0x09 tag ([0, 1] ++ enc16 s.sch.counter)
          { s with
            sch := { s.sch with
              pendingBank := { s.sch.pendingBank with state := .committed, serial := s.sch.counter }
              counter := if next = s.sch.active.serial then (if next < 65535 then next + 1 else 1) else next } })

/-- COMMIT in IDLE of a bank that passes or has passed validation makes the swap: the bank is active and VALID under its
serial, the pending bank is EMPTY, trims, integrators, accumulators and the monitor hold are 0, the update timers are
started afresh or stopped, and every stand is placed by the table of R16 (R2, R13, R15, R16, R86, R113). The slot of a
position without a record is emptied, and a waiting PRESET or TRACK setpoint is discarded (R15, R113); a stand placed in
TRIPPED sends OPEN (R16, R122); the persistence counters are 0 (R165); a pending TO_LOCAL handover of prior state READY
takes SETUP (R16); the MILL_STATE notice carries the new serial (R15). -/
def Obligations.CommitSwaps : Prop :=
  ∀ (tag : Byte) (serial : Nat) (s : State), HostFree s → s.stk.mill = .idle →
    (s.sch.pendingBank.state = .committed ∧ serial = s.sch.pendingBank.serial ∨
      s.sch.pendingBank.state = .editing ∧ Validated s.sch.pendingBank.bank ∧ serial = s.sch.counter) →
    ∃ t, exec (.commit tag []) s = .next t ∧ Replied s t 0x09 tag ([0, 0] ++ enc16 serial) ∧
      t.sch.active = { state := .valid, bank := s.sch.pendingBank.bank, serial := serial } ∧
      t.sch.pendingBank = { state := .empty, bank := Bank.none, serial := 0 } ∧
      (∀ k, (t.gap k).trim = 0 ∧ (t.gap k).integ = 0 ∧ (t.gap k).timer = (t.record k).map (·.tCtl)) ∧
      (∀ k, vget t.plu.acc k = 0) ∧ t.stk = { s.stk with hold := 0 } ∧
      (∀ k, (t.seq k).state =
        if (s.seq k).state = .local_ ∨ (s.seq k).state = .handover ∨ (s.seq k).state = .tripped then (s.seq k).state
        else if t.inSet k = false then .out
        else if s.openCover k = true then .tripped
        else .setup) ∧
      (∀ k, (s.seq k).state = .tripped ∨ (t.seq k).state ≠ .tripped →
        vget t.flc.slots k = (match t.record k, vget s.flc.slots k with
          | some _, some p => if p.mode = .preset ∨ p.mode = .track then none else some p
          | _, _ => none)) ∧
      (∀ k r, (s.seq k).state ≠ .tripped → (t.seq k).state = .tripped → t.record k = some r →
        (t.gap k).sRef = r.sOpen ∧
          (s.flc.tx ≠ none → vget s.sch.config.tags k ≠ 0 → vget t.flc.slots k = some ⟨.open_, r.sOpen⟩)) ∧
      (∀ k, vget t.tmx.forceCnt k = 0 ∧ vget t.tmx.gapCnt k = 0) ∧
      (∀ k h, (s.seq k).state = .handover → (s.seq k).handover = some h →
        (t.seq k).handover =
          some (if h.dir = .toLocal ∧ h.prior = some .ready then { h with prior := some .setup } else h)) ∧
      (kindEnabled s.hlk.mask .millState = true → ∃ n ∈ t.hlk.queue, n.body = .millState .idle s.stk.coil serial)

/-- CLEAR_PENDING empties the pending bank, with serial 0, from every pending state and in every mill state, and replies with
the state before; the serial counter and the rest of the part are unchanged (R10). -/
def Obligations.ClearPending : Prop :=
  ∀ (tag : Byte) (s : State), HostFree s →
    exec (.clearPending tag []) s =
      .next (reply 0x0A tag ([0] ++ enc8 (pendingCode s.sch.pendingBank.state))
        { s with
          sch := { s.sch with
            pendingBank :=
              { state := .empty, bank := { mill := none, stands := Vector.replicate 8 none }, serial := 0 } } })

/-! ## Requests: the mill -/

/-- ARM takes the mill from IDLE to ARMED when the bank is VALID, every stand of the set is READY and no OPEN or MILL_STOP
record exists, and is else refused; DISARM takes it from ARMED to IDLE, and is else refused. Each taken request updates the
MILL_STATE notice, and nothing else changes (R66, R67). -/
def Obligations.ArmAndDisarm : Prop :=
  ∀ (tag : Byte) (canArm : Prop) (s : State), HostFree s → ScopesOk s →
    (canArm ↔
      s.stk.mill = .idle ∧ s.sch.active.state = .valid ∧ (∀ k, s.inSet k = true → (s.seq k).state = .ready) ∧
        ∀ r ∈ s.tmx.table, r.action ≠ .open_ ∧ r.action ≠ .millStop) →
    (canArm →
      exec (.arm tag []) s =
        .next (reply 0x0C tag [0]
          (updateNotice (.millState .armed s.stk.coil s.sch.active.serial)
            { s with stk := { s.stk with mill := .armed } }))) ∧
    (¬canArm → exec (.arm tag []) s = .next (reply 0x0C tag [5] s)) ∧
    (s.stk.mill = .armed →
      exec (.disarm tag []) s =
        .next (reply 0x0D tag [0]
          (updateNotice (.millState .idle s.stk.coil s.sch.active.serial)
            { s with stk := { s.stk with mill := .idle } }))) ∧
    (s.stk.mill ≠ .armed → exec (.disarm tag []) s = .next (reply 0x0D tag [5] s))

/-- CLEAR_MILL in ROLLING or TAILOUT with no stand in THREAD, ROLL or TAIL retires every held record with DISCARDED, bites
first and then the spans, sends the mill to IDLE, clears accumulators, measurers and tail marks, and replies with the number
retired in one byte, as at most 200 are held; it is else refused (R64, R81, R178). -/
def Obligations.ClearMillRetiresAll : Prop :=
  ∀ (tag : Byte) (s : State), HostFree s →
    (¬((s.stk.mill = .rolling ∨ s.stk.mill = .tailout) ∧
        ∀ k, (s.seq k).state ≠ .thread ∧ (s.seq k).state ≠ .roll ∧ (s.seq k).state ≠ .tail) →
      exec (.clearMill tag []) s = .next (reply 0x0E tag [5] s)) ∧
    ∀ all : List Segment,
      all = s.stk.ring ++ ((allStands.filterMap fun k => vget s.stk.bites k) ++
        (allStands.map fun j => s.span j).flatten).map
          (fun g => { g with flags := { g.flags with discarded := true } }) →
      (s.stk.mill = .rolling ∨ s.stk.mill = .tailout) →
      (∀ k, (s.seq k).state ≠ .thread ∧ (s.seq k).state ≠ .roll ∧ (s.seq k).state ≠ .tail) →
      s.stk.ring.length ≤ 32 → s.stk.retired ≤ 65535 →
      ∃ t, exec (.clearMill tag []) s = .next t ∧ Replied s t 0x0E tag ([0] ++ enc8 s.stk.heldCount) ∧
        t.stk =
          { s.stk with
            mill := .idle
            bites := Vector.replicate 8 none
            spans := Vector.replicate 8 []
            tailMarks := Vector.replicate 8 false
            ring := all.drop (all.length - 32)
            retired := min 65535 (s.stk.retired + s.stk.heldCount) } ∧
        ∀ k, vget t.plu.acc k = 0 ∧ t.presence k = { state := (s.presence k).state, measurer := 0 }

/-- SET_TRIM: a LOCAL or HANDOVER stand refuses it, then a stand without a record; else the value, clamped to ±TrimMax,
replaces the stand's trim, the reply is OK or CLAMPED with the trim stored, and nothing else changes (R105). -/
def Obligations.SetTrim : Prop :=
  ∀ (tag : Byte) (k : Stand) (x : Int) (s : State), HostFree s → -32768 ≤ x → x ≤ 32767 →
    ((s.seq k).state = .local_ ∨ (s.seq k).state = .handover →
      exec (.setTrim tag (enc8 (Stand.pos k) ++ encS16 x)) s = .next (reply 0x0F tag [6] s)) ∧
    ((s.seq k).state ≠ .local_ → (s.seq k).state ≠ .handover →
      (s.record k = none →
        exec (.setTrim tag (enc8 (Stand.pos k) ++ encS16 x)) s = .next (reply 0x0F tag [5] s)) ∧
      ∀ r y, s.record k = some r → y = max (-(r.trimMax : Int)) (min r.trimMax x) →
        exec (.setTrim tag (enc8 (Stand.pos k) ++ encS16 x)) s =
          .next (reply 0x0F tag ([if y = x then 0 else 1] ++ enc8 (Stand.pos k) ++ encS16 y)
            { s with gce := vset s.gce k { s.gap k with trim := y } }))

/-! ## Requests: trips and stands -/

/-- STOP leaves a HOST_STOP record HELD and replies with its occurrences: a new one, stamped now and first-out in an empty
table, moves every stand in the pass to TRIPPED and asserts the stop line; a HELD one is re-raised (R122, R153, R154, R155,
R158, R162). -/
def Obligations.StopTripsEveryStand : Prop :=
  ∀ (tag : Byte) (s : State), HostFree s → vget s.sch.config.actions 1 = .millStop →
    (s.recordOf .hostStop = none →
      ∃ t, exec (.stop tag []) s = .next t ∧ Replied s t 0x10 tag [0, 1] ∧
        t.recordOf .hostStop =
          some { key := .hostStop, state := .held, action := .millStop, stampMs := s.ms, stampCoil := s.stk.coil,
                 stampSeg := s.stk.lastAlloc, occ := 1, firstOut := s.tmx.table.isEmpty } ∧
        t.tmx.stopLine = true ∧
        ∀ k, (s.seq k).state.inPass = true ∨ (s.seq k).state = .tripped → (t.seq k).state = .tripped) ∧
    (∀ r, s.recordOf .hostStop = some r → r.state = .held →
      ∃ t, exec (.stop tag []) s = .next t ∧ Replied s t 0x10 tag ([0] ++ enc8 (min 255 (r.occ + 1))) ∧
        t.recordOf .hostStop = some { r with occ := min 255 (r.occ + 1) } ∧ t.ssq = s.ssq ∧ t.stk = s.stk)

/-- ACK_TRIP: a RAISED record becomes ACKED, a HELD one is removed, an ACKED one stays, with the number counted in the reply;
255 takes the whole table. The stop line then follows the MILL_STOP records left, and no stand changes its state (R156, R157,
R162, R123). -/
def Obligations.AckTrip : Prop :=
  ∀ (tag : Byte) (s : State), HostFree s → TableOk s →
    (∀ key, (s.recordOf key = none ∨ ∃ r, s.recordOf key = some r ∧ r.state = .acked) →
      exec (.ackTrip tag (enc8 key.num)) s = .next (reply 0x11 tag [0, 0] s)) ∧
    (∀ key r, s.recordOf key = some r → r.state = .raised →
      ∃ t, exec (.ackTrip tag (enc8 key.num)) s = .next t ∧ Replied s t 0x11 tag [0, 1] ∧
        t.tmx = { s.tmx with table := s.tmx.table.map fun q => if q.key = key then { q with state := .acked } else q } ∧
        t.ssq = s.ssq ∧ t.stk = s.stk) ∧
    (∀ key r, s.recordOf key = some r → r.state = .held →
      ∃ t, exec (.ackTrip tag (enc8 key.num)) s = .next t ∧ Replied s t 0x11 tag [0, 1] ∧
        t.tmx.table = s.tmx.table.filter (fun q => decide (q.key ≠ key)) ∧
        (t.tmx.stopLine = true ↔ ∃ q ∈ t.tmx.table, q.action = .millStop) ∧
        (∀ k, (t.seq k).state = (s.seq k).state) ∧ t.stk = s.stk) ∧
    ∃ t, exec (.ackTrip tag [255]) s = .next t ∧
      Replied s t 0x11 tag ([0] ++ enc8 (s.tmx.table.filter fun q => decide (q.state ≠ .acked)).length) ∧
      t.tmx.table = (s.tmx.table.filter fun q => decide (q.state ≠ .held)).map (fun q => { q with state := .acked }) ∧
      (t.tmx.stopLine = true ↔ ∃ q ∈ t.tmx.table, q.action = .millStop) ∧
      (∀ k, (t.seq k).state = (s.seq k).state) ∧ t.stk = s.stk

/-- RESTORE of one stand: refused for a LOCAL or HANDOVER stand, then for one not TRIPPED, with strip present or under open
cover; else FAST_OPEN is released and the stand enters SETUP with its equalize interval, or OUT outside the active set, its
gap record unchanged (R125, R126, R127, R128). RESTORE of all replies OK with eight pairs: each stand's outcome by the table
of R127, and its state; a stand whose outcome is OK is restored, and no other changes (R127, R128). -/
def Obligations.Restore : Prop :=
  ∀ (tag : Byte) (k : Stand) (s : State), HostFree s →
    ((s.seq k).state = .local_ ∨ (s.seq k).state = .handover →
      exec (.restore tag (enc8 (Stand.pos k))) s = .next (reply 0x12 tag [6] s)) ∧
    ((s.seq k).state ≠ .local_ → (s.seq k).state ≠ .handover →
      ((s.seq k).state ≠ .tripped ∨ s.stripPresent k = true ∨ s.openCover k = true) →
      exec (.restore tag (enc8 (Stand.pos k))) s = .next (reply 0x12 tag [5] s)) ∧
    ((s.seq k).state = .tripped → s.stripPresent k = false → s.openCover k = false →
      ∃ t st, exec (.restore tag (enc8 (Stand.pos k))) s = .next t ∧
        st = (if s.inSet k then StandState.setup else StandState.out) ∧
        Replied s t 0x12 tag ([0] ++ enc8 (Stand.pos k) ++ enc8 (standCode st)) ∧ (t.seq k).state = st ∧
        (t.seq k).fastOpen = false ∧ (t.seq k).nonOverlap = none ∧ t.gce = s.gce ∧
        (t.seq k).equalize =
          (match s.inSet k, s.record k with
            | true, some r => if 0 < r.tEq then some r.tEq else none
            | _, _ => none) ∧
        ∀ j, j ≠ k → (t.seq j).state = (s.seq j).state) ∧
    ∃ t out, exec (.restore tag [0]) s = .next t ∧ Replied s t 0x12 tag ([0] ++ out) ∧ out.length = 16 ∧
      ∀ j : Stand, rd8 out (2 * j.val + 1) = standCode (t.seq j).state ∧
        (rd8 out (2 * j.val) ≠ 0 → (t.seq j).state = (s.seq j).state) ∧
        (ScopesOk s → t.gce = s.gce ∧
          ∀ code : Nat, code = (if (s.seq j).state = .local_ ∨ (s.seq j).state = .handover then 6
              else if (s.seq j).state ≠ .tripped ∨ s.stripPresent j = true ∨ s.openCover j = true then 5
              else 0) →
            rd8 out (2 * j.val) = code ∧ (code ≠ 0 → t.seq j = s.seq j) ∧
            (code = 0 →
              (t.seq j).state = (if s.inSet j then StandState.setup else StandState.out) ∧
              (t.seq j).fastOpen = false ∧ (t.seq j).nonOverlap = none ∧
              (t.seq j).equalize =
                (match s.inSet j, s.record j with
                  | true, some r => if 0 < r.tEq then some r.tEq else none
                  | _, _ => none)))

/-- HANDOVER: BUSY in a pending one; TO_LOCAL taken from OUT, SETUP, READY or TRIPPED without strip, and in the active set in
IDLE only; TO_COORD from LOCAL only. Taken, the timeout is clamped to 1 to 60 s and the stand is in HANDOVER with LOCAL_REQ
asserted and its slot empty, but for a TO_COORD with the panel inactive, which completes at once (R129, R130, R131). -/
def Obligations.Handover : Prop :=
  ∀ (tag : Byte) (k : Stand) (asked secs : Nat) (s : State), HostFree s → asked ≤ 255 →
    secs = max 1 (min 60 asked) →
    (∀ dir : Byte, dir = 1 ∨ dir = 2 → (s.seq k).state = .handover →
      exec (.handover tag (enc8 (Stand.pos k) ++ [dir] ++ enc8 asked)) s = .next (reply 0x13 tag [7] s)) ∧
    (∀ may : Prop, (may ↔
        ((s.seq k).state = .out ∨ (s.seq k).state = .setup ∨ (s.seq k).state = .ready ∨ (s.seq k).state = .tripped) ∧
          s.stripPresent k = false ∧ (s.stk.mill = .idle ∨ s.inSet k = false)) →
      (s.seq k).state ≠ .handover →
      (¬may → exec (.handover tag (enc8 (Stand.pos k) ++ [1] ++ enc8 asked)) s = .next (reply 0x13 tag [5] s)) ∧
      (may →
        ∃ t, exec (.handover tag (enc8 (Stand.pos k) ++ [1] ++ enc8 asked)) s = .next t ∧
          Replied s t 0x13 tag
            (enc8 (if secs = asked then 0 else 1) ++ enc8 (Stand.pos k) ++ [1] ++ enc8 secs ++ [0, 7]) ∧
          (t.seq k).state = .handover ∧ (t.seq k).localReq = true ∧ (t.seq k).equalize = none ∧
          (t.seq k).handover =
            some { dir := .toLocal, prior := some (s.seq k).state, remaining := secs * 1000 } ∧
          vget t.flc.slots k = none ∧ ∀ j, j ≠ k → (t.seq j).state = (s.seq j).state)) ∧
    ((s.seq k).state ≠ .handover → (s.seq k).state ≠ .local_ →
      exec (.handover tag (enc8 (Stand.pos k) ++ [2] ++ enc8 asked)) s = .next (reply 0x13 tag [5] s)) ∧
    ((s.seq k).state = .local_ →
      ((s.filter (.panel k)).level = true →
        ∃ t, exec (.handover tag (enc8 (Stand.pos k) ++ [2] ++ enc8 asked)) s = .next t ∧
          Replied s t 0x13 tag
            (enc8 (if secs = asked then 0 else 1) ++ enc8 (Stand.pos k) ++ [2] ++ enc8 secs ++ [0, 7]) ∧
          (t.seq k).state = .handover ∧ (t.seq k).localReq = true ∧
          (t.seq k).handover = some { dir := .toCoord, prior := none, remaining := secs * 1000 } ∧
          vget t.flc.slots k = none ∧ ∀ j, j ≠ k → (t.seq j).state = (s.seq j).state) ∧
      ((s.filter (.panel k)).level = false →
        ∃ t st, exec (.handover tag (enc8 (Stand.pos k) ++ [2] ++ enc8 asked)) s = .next t ∧
          st = (if s.inSet k = false then StandState.out
            else if s.openCover k = true then StandState.tripped else StandState.setup) ∧
          Replied s t 0x13 tag
            (enc8 (if secs = asked then 0 else 1) ++ enc8 (Stand.pos k) ++ [2] ++ enc8 secs ++ [1] ++
              enc8 (standCode st)) ∧
          (t.seq k).state = st ∧ (t.seq k).handover = none ∧ (t.seq k).localReq = false ∧
          ∀ j, j ≠ k → (t.seq j).state = (s.seq j).state))

/-! ## Requests: reading -/

/-- READ_CHANNELS, READ_SEGMENTS and READ_TRIPS reply with their records and change no state (R34, R83, R159): up to 20 channel
records from the first on; the retired ring's records from the first one whose number is the start or later, or from the
oldest for 0; up to 12 trip records from a table position on. -/
def Obligations.RecordsRead : Prop :=
  ∀ (tag : Byte) (s : State), HostFree s →
    (∀ first count : Nat, first ≤ 31 → 1 ≤ count → first + count ≤ 32 →
      exec (.readChannels tag (enc8 first ++ enc8 count)) s =
        .next (reply 0x14 tag
          (enc8 0 ++ enc32 s.ms.toNat ++ enc8 first ++ enc8 (min count 20) ++
            (((allChans.drop first).take (min count 20)).map fun c =>
              encChannel (s.chan c) (vget s.sch.config.freshness c)).flatten) s)) ∧
    (∀ (start count : Nat) (before found : List Segment), start < 65536 → 1 ≤ count → count ≤ 8 →
      s.stk.ring = before ++ found →
      (∀ g ∈ before, start ≠ 0 ∧ ¬(g.seg + 65535 - start) % 65535 < 32768) →
      (∀ g, found.head? = some g → start = 0 ∨ (g.seg + 65535 - start) % 65535 < 32768) →
      exec (.readSegments tag (enc16 start ++ enc8 count)) s =
        .next (reply 0x16 tag
          (enc8 0 ++ enc8 s.stk.ring.length ++ enc16 (match found.head? with
            | some g => g.seg
            | none => 0) ++ enc8 (min count found.length) ++ ((found.take count).map encSegment).flatten) s)) ∧
    (∀ first : Nat, 1 ≤ first → first ≤ 71 →
      exec (.readTrips tag (enc8 first)) s =
        .next (reply 0x17 tag
          (enc8 0 ++ enc32 s.ms.toNat ++ enc8 s.tmx.table.length ++
            enc8 (match s.tmx.table.find? (·.firstOut) with
              | some r => r.key.num
              | none => 255) ++
            encFlag s.tmx.stopLine ++
            ((List.finRange 12).map fun n => enc8 (actionCode (vget s.sch.config.actions n))).flatten ++
            (((s.tmx.table.drop (first - 1)).take 12).map encTrip).flatten) s))

/-- READ_TRACK replies with the tracker's items packed as R190 states and changes no state. The lists included are a first run
of the spans in use from the first position on: their numbers come to at most 96, and the next list would pass 96 (R82). -/
def Obligations.TrackRead : Prop :=
  ∀ (tag : Byte) (first : Nat) (s : State), HostFree s → CapacityOk s → 1 ≤ first → first ≤ 9 →
    ∃ lists later : List SpanId,
      lists ++ later = ((s.activeSet.drop 1).map spanInto ++
        (if s.sch.active.state = .valid then [exitSpan] else [])).filter (fun j => decide (first ≤ j.val + 2)) ∧
      (lists.map fun j => (s.span j).length).sum ≤ 96 ∧
      (∀ j, later.head? = some j → 96 < (lists.map fun j => (s.span j).length).sum + (s.span j).length) ∧
      exec (.readTrack tag (enc8 first)) s =
        .next (reply 0x15 tag
          (enc8 0 ++ enc32 s.ms.toNat ++ enc8 (millCode s.stk.mill) ++ enc16 s.stk.coil ++ enc16 s.stk.allocated ++
            enc16 s.stk.retired ++ enc16 s.stk.nextSeg ++ enc8 s.stk.hold ++ enc8 s.stk.ring.length ++
            enc8 s.activeSet.length ++
            (s.activeSet.map fun k =>
              enc8 (Stand.pos k + if vget s.stk.tailMarks k then 128 else 0) ++
                enc16 (match vget s.stk.bites k with
                  | some g => g.seg
                  | none => 0)).flatten ++
            enc8 ((s.activeSet.drop 1).length + if s.sch.active.state = .valid then 1 else 0) ++
            (((s.activeSet.drop 1).map spanInto ++
              (if s.sch.active.state = .valid then [exitSpan] else [])).map fun j =>
                enc8 (32 * j.val + (s.span j).length)).flatten ++
            enc8 (match lists.head? with
              | some j => j.val + 2
              | none => 0) ++
            enc8 (match lists.getLast? with
              | some j => j.val + 2
              | none => 0) ++
            ((lists.map fun j => ((s.span j).map fun g => enc16 g.seg).flatten).flatten)) s)

/-! ## Requests: reports and AUX pins -/

/-- SET_REPORTS with every item in range replaces the mask and the four streams, their periods clamped to 10 to 10,000 ms and
their timers started afresh or stopped, removes the queued notices of disabled kinds and every CHANNEL_PERIODIC notice, and
replies with what it stored, CLAMPED where a period was (R181, R182, R183). The bytes of the unused channel places are ignored
in the request and free values in the reply (log 9). A mask beyond the six kinds refuses it naming item 0, field 1, and the
first failing item of the streams naming the stream and the item (R183). -/
def Obligations.SetReports : Prop :=
  ∀ (tag : Byte) (s : State), HostFree s →
    (∀ (mask : BitVec 6) (asked stored : Vector Stream 4) (junk : StreamId → Nat → Byte),
      (∀ i, 1 ≤ (vget asked i).chans.length ∧ (vget asked i).chans.length ≤ 8 ∧ (vget asked i).period < 65536) →
      stored = (vtab fun i =>
        { vget asked i with
          period := max 10 (min 10000 (vget asked i).period)
          timer := if (vget asked i).enabled then some (max 10 (min 10000 (vget asked i).period)) else none }) →
      ∃ (unused : StreamId → Nat → Byte) (ix : Nat) (code : Byte),
        code = (if ∀ i, (vget asked i).period = (vget stored i).period then 0 else 1) ∧
        exec (.setReports tag
            (enc8 mask.toNat ++ (allStreams.map fun i => encStream (vget asked i) (junk i)).flatten)) s =
          .next (reply 0x18 tag
            ([code] ++ enc8 mask.toNat ++ (allStreams.map fun i => encStream (vget stored i) (unused i)).flatten)
            { s with
              hlk := { s.hlk with
                mask := mask
                streams := stored
                queue := s.hlk.queue.filter fun n =>
                  kindEnabled mask n.body.source && decide (∀ i, n.body.source ≠ .channelPeriodic i) }
              freeIx := ix })) ∧
    ∀ body : List Byte, body.length = 49 →
      (63 < rd8 body 0 → exec (.setReports tag body) s = .next (reply 0x18 tag [4, 0, 1, 0] s)) ∧
      ∀ (i : StreamId) (field : Nat), rd8 body 0 ≤ 63 →
        (∀ j : StreamId, j < i → ∀ bad, ¬StreamFails body (1 + 12 * j.val) bad) → StreamFails body (1 + 12 * i.val) field →
        exec (.setReports tag body) s = .next (reply 0x18 tag ([4] ++ enc8 (i.val + 1) ++ enc8 field ++ [0]) s)

/-- SET_AUX stores both pins' modes and levels, and each pin takes its own at once: OFF is high-impedance, an attention pin
follows the report queue, and LEVEL drives the stored level (R184). A mode or level out of its range refuses it naming the pin
and 1 for the mode or 2 for the level (R184); of several the first in the body is named (the model's inference, log 23). -/
def Obligations.SetAux : Prop :=
  ∀ (tag : Byte) (s : State), HostFree s →
    (∀ (m1 m2 : AuxMode) (l1 l2 : Bool) (t : State),
      t = reply 0x19 tag ([0] ++ enc8 (auxCode m1) ++ encFlag l1 ++ enc8 (auxCode m2) ++ encFlag l2)
        { s with hlk := { s.hlk with aux := #v[{ mode := m1, level := l1 }, { mode := m2, level := l2 }] } } →
      exec (.setAux tag (enc8 (auxCode m1) ++ encFlag l1 ++ enc8 (auxCode m2) ++ encFlag l2)) s = .next t ∧
      ∀ (i : Fin 2) (m : AuxMode) (l : Bool), (i = 0 ∧ m = m1 ∧ l = l1 ∨ i = 1 ∧ m = m2 ∧ l = l2) →
        (m = .off → t.auxPin i = .highZ) ∧
        (m = .attentionTrip →
          (t.auxPin i = .high ↔
            ∃ n ∈ s.hlk.queue, (∃ key, n.body.source = .trip key) ∨ n.body.source = .millState) ∧
          (t.auxPin i = .low ↔
            ∀ n ∈ s.hlk.queue, (∀ key, n.body.source ≠ .trip key) ∧ n.body.source ≠ .millState)) ∧
        (m = .attentionAll → t.auxPin i = if s.hlk.queue = [] then .low else .high) ∧
        (m = .level → t.auxPin i = if l then .high else .low)) ∧
    ∀ (body : List Byte) (i : Nat), body.length = 4 → i < 4 → AuxItemBad body i → (∀ j, j < i → ¬AuxItemBad body j) →
      exec (.setAux tag body) s = .next (reply 0x19 tag ([4] ++ enc8 (i / 2 + 1) ++ enc8 (i % 2 + 1) ++ [0]) s)

/-! ## What every step keeps -/

/-- Every step keeps the trip table in its form and, outside a held reset, the stop line asserted exactly while a MILL_STOP
record exists (R153, R162). Every step keeps what a held reset holds: the stop line asserted (R161) and the outputs as R193
gives them; that every block stands at its power-on value then, and takes no event, is the model's inference (log 20). -/
def Obligations.StepKeepsTripTable : Prop :=
  ∀ s t : State, step s = .next t → (TableOk s → TableOk t) ∧ (HeldOk s → HeldOk t)

/-- Every step keeps each present key in scope, and each persistence counter out of scope at 0 (R139, R141). -/
def Obligations.StepKeepsScopes : Prop :=
  ∀ s t : State, ScopesOk s → step s = .next t → ScopesOk t

/-- Every step keeps one notice at most for a source in the report queue, and leaves nothing waiting on an idle transmit line
(R171, R174, R179, R181). -/
def Obligations.StepKeepsHostLine : Prop :=
  ∀ s t : State, QueueOk s → LineOk s → step s = .next t → QueueOk t ∧ LineOk t

/-- Every step keeps the sequencer records (HANDOVER with its record and its lamp, FAST_OPEN by its demand, equalize in SETUP
and READY alone, frozen by FREEZE records), and leaves no setpoint waiting on an idle field-out line, nor for a stand in LOCAL
or HANDOVER, without a tag or without a record (R36, R37, R38, R114, R115, R125, R126). -/
def Obligations.StepKeepsSequencer : Prop :=
  ∀ s t : State, (∀ k, SeqOk s k) → SlotsOk s → step s = .next t → (∀ k, SeqOk t k) ∧ SlotsOk t

/-- Every step keeps THREAD, ROLL and TAIL to stands of the active set in ROLLING and TAILOUT, and no stand of the set in OUT,
nor, outside IDLE, in LOCAL or HANDOVER (R117, R124, R134). -/
def Obligations.StepKeepsPass : Prop :=
  ∀ s t : State, PassOk s → step s = .next t → PassOk t

/-- Every step keeps the balance of the coil counters, and the collections empty outside a coil (R60, R61, R79). -/
def Obligations.StepKeepsBalance : Prop :=
  ∀ s t : State, PassOk s → BalanceOk s → step s = .next t → BalanceOk t

/-- Every step keeps the banks validated and in range, the serials apart, and trims, integrators and update timers within the
active records (R1, R2, R4, R6, R12, R88, R105, R108). -/
def Obligations.StepKeepsBanks : Prop :=
  ∀ s t : State, BanksOk s → (∀ k, GapOk s k) → step s = .next t → BanksOk t ∧ ∀ k, GapOk t k

/-- Every step keeps the inputs and the capacities: presence by its filter, channels by their states, assemblers, configuration
and streams in range, spans of at most 24 and the ring of at most 32 (R17, R21, R28, R47, R62, R64, R169, R182). -/
def Obligations.StepKeepsInputs : Prop :=
  ∀ s t : State, PresenceOk s → (∀ c, ChannelOk s c) → AssemblersOk s → ConfigOk s → CapacityOk s →
    step s = .next t →
    PresenceOk t ∧ (∀ c, ChannelOk t c) ∧ AssemblersOk t ∧ ConfigOk t ∧ CapacityOk t
end

