-- ==== Sys2Proof/Laws/Codec.lean ====
section
/-! SUPPORT. Arithmetic and layouts: how saturation, rounding and the steppings read, how long each item is in bytes and each
byte in bit times, and that an item read where it was written is itself. -/

namespace Sys2Proof.Machine

/-! ## Arithmetic -/

/-- Saturation is the clamp between its bounds. -/
theorem saturate_eq (lo hi x : Int) (h : lo ≤ hi) : saturate lo hi x = max lo (min hi x) := by
  unfold saturate
  split
  · omega
  · split <;> omega

theorem saturate_range (lo hi x : Int) (h : lo ≤ hi) : lo ≤ saturate lo hi x ∧ saturate lo hi x ≤ hi := by
  rw [saturate_eq lo hi x h]
  omega

theorem satSucc_le (bound n : Nat) : satSucc bound n ≤ bound := by
  unfold satSucc
  split <;> omega

theorem satSucc_eq (bound n : Nat) (h : n ≤ bound) : satSucc bound n = min bound (n + 1) := by
  unfold satSucc
  split <;> omega

theorem succ65535_range (n : Nat) : 1 ≤ succ65535 n ∧ succ65535 n ≤ 65535 := by
  unfold succ65535
  split <;> omega

theorem slewTo_near (base target : Int) (r : Nat) : (slewTo base target r - base).natAbs ≤ r := by
  have := saturate_range (-(r : Int)) r (target - base) (by omega)
  unfold slewTo
  omega

/-! ## Lengths -/

@[simp] theorem enc8_length (n : Nat) : (enc8 n).length = 1 := rfl
@[simp] theorem enc16_length (n : Nat) : (enc16 n).length = 2 := rfl
@[simp] theorem enc24_length (n : Nat) : (enc24 n).length = 3 := rfl
@[simp] theorem enc32_length (n : Nat) : (enc32 n).length = 4 := rfl
@[simp] theorem encS16_length (x : Int) : (encS16 x).length = 2 := rfl
@[simp] theorem encS24_length (x : Int) : (encS24 x).length = 3 := rfl
@[simp] theorem encFlag_length (b : Bool) : (encFlag b).length = 1 := rfl
@[simp] theorem crcBytes_length (l : List Byte) : (crcBytes l).length = 2 := rfl
@[simp] theorem encThickness_length (h : Option Nat) : (encThickness h).length = 2 := rfl
@[simp] theorem encDev_length (d : Option Int) : (encDev d).length = 3 := rfl

theorem encStand_length (r : StandRecord) : (encStand r).length = 52 := by
  unfold encStand
  repeat rw [List.length_append]
  simp only [enc8_length, enc16_length, enc32_length, encS16_length, encS24_length, Nat.reduceAdd]
theorem encSegment_length (g : Segment) : (encSegment g).length = 19 := rfl
theorem encTrip_length (r : TripRecord) : (encTrip r).length = 13 := rfl
theorem encChannel_length (c : Channel) (t : Nat) : (encChannel c t).length = 12 := rfl
theorem encEntry_length (e : AcceptEntry) : (encEntry e).length = 7 := rfl

/-- Lists of equal lengths laid end to end. -/
theorem flatten_length {α : Type} (ls : List (List α)) (n : Nat) (h : ∀ l ∈ ls, l.length = n) :
    ls.flatten.length = n * ls.length := by
  induction ls with
  | nil => rfl
  | cons l ls ih =>
    rw [List.flatten_cons, List.length_append, ih fun m hm => h m (List.mem_cons_of_mem l hm),
      h l List.mem_cons_self, List.length_cons]
    ring

/-! ## Bit times -/

/-- A byte received as it is laid out is that byte, with a framing error exactly on a low stop bit. -/
theorem lineByte_lineBits (b : Byte) (stop : Bool) : lineByte (lineBits b) stop = some (b, !stop) := by
  have h : ∀ b : Byte, (lineBits b).getLsb 0 = false ∧ (lineBits b).extractLsb' 1 8 = b := by decide +kernel
  unfold lineByte
  rw [(h b).1, (h b).2]
  rfl

/-- Bit times without a start bit are no byte. -/
theorem lineByte_of_high (line : LineBits) (stop : Bool) (h : line.getLsb 0 = true) : lineByte line stop = none :=
  if_pos h

@[simp] theorem byteLevels_length (b : Byte) : (byteLevels b).length = 10 := by simp [byteLevels]

/-- A frame takes ten bit times for each of its bytes. -/
theorem frameLevels_length (bytes : List Byte) : (frameLevels bytes).length = 10 * bytes.length := by
  induction bytes with
  | nil => rfl
  | cons b rest ih =>
    have e : frameLevels (b :: rest) = byteLevels b ++ frameLevels rest := rfl
    rw [e, List.length_append, ih, byteLevels_length, List.length_cons]
    omega

/-! ## Reading back -/

/-- A byte read past the front of a body is read from what follows the front. -/
theorem rd8_append_right (a b : List Byte) (i : Nat) : rd8 (a ++ b) (a.length + i) = rd8 b i := by
  unfold rd8
  rw [List.getD_eq_getElem?_getD, List.getD_eq_getElem?_getD, List.getElem?_append_right (by omega)]
  congr 3
  omega

theorem rd8_append_left (a b : List Byte) (i : Nat) (h : i < a.length) : rd8 (a ++ b) i = rd8 a i := by
  unfold rd8
  rw [List.getD_eq_getElem?_getD, List.getD_eq_getElem?_getD, List.getElem?_append_left h]

theorem rd8_cons (x : Byte) (l : List Byte) (i : Nat) : rd8 (x :: l) (i + 1) = rd8 l i := by
  simp [rd8, List.getD_eq_getElem?_getD]

theorem rd8_head (x : Byte) (l : List Byte) : rd8 (x :: l) 0 = x.toNat := rfl

theorem rd8_lt (body : List Byte) (i : Nat) : rd8 body i < 256 := (body.getD i 0).isLt

theorem rd16_lt (body : List Byte) (i : Nat) : rd16 body i < 65536 := by
  have := rd8_lt body i
  have := rd8_lt body (i + 1)
  unfold rd16
  omega

theorem rd8_enc8 (n : Nat) (l : List Byte) : rd8 (enc8 n ++ l) 0 = n % 256 := by
  simp [enc8, rd8]

theorem rd16_enc16 (n : Nat) (l : List Byte) : rd16 (enc16 n ++ l) 0 = n % 65536 := by
  simp only [enc16, rd16, rd8, List.cons_append, List.getD_cons_zero, List.getD_cons_succ, BitVec.toNat_ofNat]
  omega

theorem rd24_enc24 (n : Nat) (l : List Byte) : rd24 (enc24 n ++ l) 0 = n % 16777216 := by
  simp only [enc24, rd24, rd16, rd8, List.cons_append, List.getD_cons_zero, List.getD_cons_succ, BitVec.toNat_ofNat]
  omega

theorem rd32_enc32 (n : Nat) (l : List Byte) : rd32 (enc32 n ++ l) 0 = n % 4294967296 := by
  simp only [enc32, rd32, rd16, rd8, List.cons_append, List.getD_cons_zero, List.getD_cons_succ, BitVec.toNat_ofNat]
  omega

theorem rdS16_encS16 (x : Int) (l : List Byte) (h : -32768 ≤ x ∧ x ≤ 32767) : rdS16 (encS16 x ++ l) 0 = x := by
  unfold rdS16 encS16
  rw [rd16_enc16]
  unfold signed
  split <;> omega

theorem rdS24_encS24 (x : Int) (l : List Byte) (h : -8388608 ≤ x ∧ x ≤ 8388607) : rdS24 (encS24 x ++ l) 0 = x := by
  unfold rdS24 encS24
  rw [rd24_enc24]
  unfold signed
  split <;> omega

/-! ## Codes -/

/-- Every key has a number below 71, and the number names the key (R138). -/
theorem keyOfNum_num (key : Key) : keyOfNum key.num = some key := by
  cases key with
  | resetStop => rfl
  | hostStop => rfl
  | stopInput n => revert n; decide
  | exitStale => rfl
  | stand c k => cases c <;> revert k <;> decide

theorem actionOfCode_code (a : Action) : actionOfCode (actionCode a) = some a := by cases a <;> rfl

theorem auxOfCode_code (m : AuxMode) : auxOfCode (auxCode m) = some m := by cases m <;> rfl

theorem standOfPos_pos (k : Stand) : standOfPos (Stand.pos k) = some k := by
  revert k
  decide

end Sys2Proof.Machine
end

