-- ==== Sys2Proof/Laws/State.lean ====
section
/-! SUPPORT. What every update of State leaves in every field, so that no proof unfolds a record update: first the thirteen
fields, then the views of one stand, channel, key or span, and then the entries of a table after an update of one. Each
lemma states, as one conjunction, everything that its update leaves alone. -/

namespace Sys2Proof.Machine

/-! ## Fields -/

@[simp] theorem withStk_stk (s : State) (t : Tracker) : (s.withStk t).stk = t := rfl

@[simp] theorem withStk_keeps (s : State) (t : Tracker) :
    (s.withStk t).hlk = s.hlk ∧ (s.withStk t).flc = s.flc ∧ (s.withStk t).mch = s.mch ∧ (s.withStk t).plu = s.plu ∧
    (s.withStk t).gce = s.gce ∧ (s.withStk t).ssq = s.ssq ∧ (s.withStk t).tmx = s.tmx ∧ (s.withStk t).sch = s.sch ∧
    (s.withStk t).ms = s.ms ∧ (s.withStk t).resets = s.resets ∧ (s.withStk t).freeIx = s.freeIx ∧
    (s.withStk t).pending = s.pending :=
  ⟨rfl, rfl, rfl, rfl, rfl, rfl, rfl, rfl, rfl, rfl, rfl, rfl⟩

@[simp] theorem withHlk_hlk (s : State) (h : HostLink) : (s.withHlk h).hlk = h := rfl

@[simp] theorem withHlk_keeps (s : State) (h : HostLink) :
    (s.withHlk h).flc = s.flc ∧ (s.withHlk h).mch = s.mch ∧ (s.withHlk h).plu = s.plu ∧ (s.withHlk h).stk = s.stk ∧
    (s.withHlk h).gce = s.gce ∧ (s.withHlk h).ssq = s.ssq ∧ (s.withHlk h).tmx = s.tmx ∧ (s.withHlk h).sch = s.sch ∧
    (s.withHlk h).ms = s.ms ∧ (s.withHlk h).resets = s.resets ∧ (s.withHlk h).freeIx = s.freeIx ∧
    (s.withHlk h).pending = s.pending :=
  ⟨rfl, rfl, rfl, rfl, rfl, rfl, rfl, rfl, rfl, rfl, rfl, rfl⟩

@[simp] theorem withFlc_flc (s : State) (f : FieldLine) : (s.withFlc f).flc = f := rfl

@[simp] theorem withFlc_keeps (s : State) (f : FieldLine) :
    (s.withFlc f).hlk = s.hlk ∧ (s.withFlc f).mch = s.mch ∧ (s.withFlc f).plu = s.plu ∧ (s.withFlc f).stk = s.stk ∧
    (s.withFlc f).gce = s.gce ∧ (s.withFlc f).ssq = s.ssq ∧ (s.withFlc f).tmx = s.tmx ∧ (s.withFlc f).sch = s.sch ∧
    (s.withFlc f).ms = s.ms ∧ (s.withFlc f).resets = s.resets ∧ (s.withFlc f).freeIx = s.freeIx ∧
    (s.withFlc f).pending = s.pending :=
  ⟨rfl, rfl, rfl, rfl, rfl, rfl, rfl, rfl, rfl, rfl, rfl, rfl⟩

@[simp] theorem withTmx_tmx (s : State) (t : TripMatrix) : (s.withTmx t).tmx = t := rfl

@[simp] theorem withTmx_keeps (s : State) (t : TripMatrix) :
    (s.withTmx t).hlk = s.hlk ∧ (s.withTmx t).flc = s.flc ∧ (s.withTmx t).mch = s.mch ∧ (s.withTmx t).plu = s.plu ∧
    (s.withTmx t).stk = s.stk ∧ (s.withTmx t).gce = s.gce ∧ (s.withTmx t).ssq = s.ssq ∧ (s.withTmx t).sch = s.sch ∧
    (s.withTmx t).ms = s.ms ∧ (s.withTmx t).resets = s.resets ∧ (s.withTmx t).freeIx = s.freeIx ∧
    (s.withTmx t).pending = s.pending :=
  ⟨rfl, rfl, rfl, rfl, rfl, rfl, rfl, rfl, rfl, rfl, rfl, rfl⟩

@[simp] theorem withSch_sch (s : State) (c : ScheduleStore) : (s.withSch c).sch = c := rfl

@[simp] theorem withSch_keeps (s : State) (c : ScheduleStore) :
    (s.withSch c).hlk = s.hlk ∧ (s.withSch c).flc = s.flc ∧ (s.withSch c).mch = s.mch ∧ (s.withSch c).plu = s.plu ∧
    (s.withSch c).stk = s.stk ∧ (s.withSch c).gce = s.gce ∧ (s.withSch c).ssq = s.ssq ∧ (s.withSch c).tmx = s.tmx ∧
    (s.withSch c).ms = s.ms ∧ (s.withSch c).resets = s.resets ∧ (s.withSch c).freeIx = s.freeIx ∧
    (s.withSch c).pending = s.pending :=
  ⟨rfl, rfl, rfl, rfl, rfl, rfl, rfl, rfl, rfl, rfl, rfl, rfl⟩

@[simp] theorem withPlu_plu (s : State) (p : PresenceUnit) : (s.withPlu p).plu = p := rfl

@[simp] theorem withPlu_keeps (s : State) (p : PresenceUnit) :
    (s.withPlu p).hlk = s.hlk ∧ (s.withPlu p).flc = s.flc ∧ (s.withPlu p).mch = s.mch ∧ (s.withPlu p).stk = s.stk ∧
    (s.withPlu p).gce = s.gce ∧ (s.withPlu p).ssq = s.ssq ∧ (s.withPlu p).tmx = s.tmx ∧ (s.withPlu p).sch = s.sch ∧
    (s.withPlu p).ms = s.ms ∧ (s.withPlu p).resets = s.resets ∧ (s.withPlu p).freeIx = s.freeIx ∧
    (s.withPlu p).pending = s.pending :=
  ⟨rfl, rfl, rfl, rfl, rfl, rfl, rfl, rfl, rfl, rfl, rfl, rfl⟩

@[simp] theorem modSeq_keeps (s : State) (k : Stand) (f : SeqRecord → SeqRecord) :
    (s.modSeq k f).hlk = s.hlk ∧ (s.modSeq k f).flc = s.flc ∧ (s.modSeq k f).mch = s.mch ∧
    (s.modSeq k f).plu = s.plu ∧ (s.modSeq k f).stk = s.stk ∧ (s.modSeq k f).gce = s.gce ∧
    (s.modSeq k f).tmx = s.tmx ∧ (s.modSeq k f).sch = s.sch ∧ (s.modSeq k f).ms = s.ms ∧
    (s.modSeq k f).resets = s.resets ∧ (s.modSeq k f).freeIx = s.freeIx ∧ (s.modSeq k f).pending = s.pending :=
  ⟨rfl, rfl, rfl, rfl, rfl, rfl, rfl, rfl, rfl, rfl, rfl, rfl⟩

@[simp] theorem modGap_keeps (s : State) (k : Stand) (f : GapRecord → GapRecord) :
    (s.modGap k f).hlk = s.hlk ∧ (s.modGap k f).flc = s.flc ∧ (s.modGap k f).mch = s.mch ∧
    (s.modGap k f).plu = s.plu ∧ (s.modGap k f).stk = s.stk ∧ (s.modGap k f).ssq = s.ssq ∧
    (s.modGap k f).tmx = s.tmx ∧ (s.modGap k f).sch = s.sch ∧ (s.modGap k f).ms = s.ms ∧
    (s.modGap k f).resets = s.resets ∧ (s.modGap k f).freeIx = s.freeIx ∧ (s.modGap k f).pending = s.pending :=
  ⟨rfl, rfl, rfl, rfl, rfl, rfl, rfl, rfl, rfl, rfl, rfl, rfl⟩

@[simp] theorem modGaps_keeps (s : State) (f : Stand → GapRecord → GapRecord) :
    (s.modGaps f).hlk = s.hlk ∧ (s.modGaps f).flc = s.flc ∧ (s.modGaps f).mch = s.mch ∧ (s.modGaps f).plu = s.plu ∧
    (s.modGaps f).stk = s.stk ∧ (s.modGaps f).ssq = s.ssq ∧ (s.modGaps f).tmx = s.tmx ∧ (s.modGaps f).sch = s.sch ∧
    (s.modGaps f).ms = s.ms ∧ (s.modGaps f).resets = s.resets ∧ (s.modGaps f).freeIx = s.freeIx ∧
    (s.modGaps f).pending = s.pending :=
  ⟨rfl, rfl, rfl, rfl, rfl, rfl, rfl, rfl, rfl, rfl, rfl, rfl⟩

@[simp] theorem modChan_keeps (s : State) (c : Chan) (f : Channel → Channel) :
    (s.modChan c f).hlk = s.hlk ∧ (s.modChan c f).flc = s.flc ∧ (s.modChan c f).plu = s.plu ∧
    (s.modChan c f).stk = s.stk ∧ (s.modChan c f).gce = s.gce ∧ (s.modChan c f).ssq = s.ssq ∧
    (s.modChan c f).tmx = s.tmx ∧ (s.modChan c f).sch = s.sch ∧ (s.modChan c f).ms = s.ms ∧
    (s.modChan c f).resets = s.resets ∧ (s.modChan c f).freeIx = s.freeIx ∧ (s.modChan c f).pending = s.pending :=
  ⟨rfl, rfl, rfl, rfl, rfl, rfl, rfl, rfl, rfl, rfl, rfl, rfl⟩

@[simp] theorem modPresence_keeps (s : State) (k : Stand) (f : Presence → Presence) :
    (s.modPresence k f).hlk = s.hlk ∧ (s.modPresence k f).flc = s.flc ∧ (s.modPresence k f).mch = s.mch ∧
    (s.modPresence k f).stk = s.stk ∧ (s.modPresence k f).gce = s.gce ∧ (s.modPresence k f).ssq = s.ssq ∧
    (s.modPresence k f).tmx = s.tmx ∧ (s.modPresence k f).sch = s.sch ∧ (s.modPresence k f).ms = s.ms ∧
    (s.modPresence k f).resets = s.resets ∧ (s.modPresence k f).freeIx = s.freeIx ∧
    (s.modPresence k f).pending = s.pending :=
  ⟨rfl, rfl, rfl, rfl, rfl, rfl, rfl, rfl, rfl, rfl, rfl, rfl⟩

@[simp] theorem setSpan_keeps (s : State) (j : SpanId) (q : List Segment) :
    (s.setSpan j q).hlk = s.hlk ∧ (s.setSpan j q).flc = s.flc ∧ (s.setSpan j q).mch = s.mch ∧
    (s.setSpan j q).plu = s.plu ∧ (s.setSpan j q).gce = s.gce ∧ (s.setSpan j q).ssq = s.ssq ∧
    (s.setSpan j q).tmx = s.tmx ∧ (s.setSpan j q).sch = s.sch ∧ (s.setSpan j q).ms = s.ms ∧
    (s.setSpan j q).resets = s.resets ∧ (s.setSpan j q).freeIx = s.freeIx ∧ (s.setSpan j q).pending = s.pending :=
  ⟨rfl, rfl, rfl, rfl, rfl, rfl, rfl, rfl, rfl, rfl, rfl, rfl⟩

@[simp] theorem setBite_keeps (s : State) (k : Stand) (b : Option Segment) :
    (s.setBite k b).hlk = s.hlk ∧ (s.setBite k b).flc = s.flc ∧ (s.setBite k b).mch = s.mch ∧
    (s.setBite k b).plu = s.plu ∧ (s.setBite k b).gce = s.gce ∧ (s.setBite k b).ssq = s.ssq ∧
    (s.setBite k b).tmx = s.tmx ∧ (s.setBite k b).sch = s.sch ∧ (s.setBite k b).ms = s.ms ∧
    (s.setBite k b).resets = s.resets ∧ (s.setBite k b).freeIx = s.freeIx ∧ (s.setBite k b).pending = s.pending :=
  ⟨rfl, rfl, rfl, rfl, rfl, rfl, rfl, rfl, rfl, rfl, rfl, rfl⟩

@[simp] theorem modRecord_keeps (s : State) (key : Key) (f : TripRecord → TripRecord) :
    (s.modRecord key f).hlk = s.hlk ∧ (s.modRecord key f).flc = s.flc ∧ (s.modRecord key f).mch = s.mch ∧
    (s.modRecord key f).plu = s.plu ∧ (s.modRecord key f).stk = s.stk ∧ (s.modRecord key f).gce = s.gce ∧
    (s.modRecord key f).ssq = s.ssq ∧ (s.modRecord key f).sch = s.sch ∧ (s.modRecord key f).ms = s.ms ∧
    (s.modRecord key f).resets = s.resets ∧ (s.modRecord key f).freeIx = s.freeIx ∧
    (s.modRecord key f).pending = s.pending :=
  ⟨rfl, rfl, rfl, rfl, rfl, rfl, rfl, rfl, rfl, rfl, rfl, rfl⟩

/-! ## Views -/

@[simp] theorem withStk_stand_views (s : State) (t : Tracker) (v : Stand) :
    (s.withStk t).seq v = s.seq v ∧ (s.withStk t).gap v = s.gap v ∧ (s.withStk t).record v = s.record v ∧
    (s.withStk t).inSet v = s.inSet v ∧ (s.withStk t).isFirst v = s.isFirst v ∧
    (s.withStk t).isLast v = s.isLast v ∧ (s.withStk t).presence v = s.presence v ∧
    (s.withStk t).stripPresent v = s.stripPresent v ∧ (s.withStk t).openCover v = s.openCover v ∧
    (s.withStk t).freezeCover v = s.freezeCover v :=
  ⟨rfl, rfl, rfl, rfl, rfl, rfl, rfl, rfl, rfl, rfl⟩

@[simp] theorem withStk_chan_views (s : State) (t : Tracker) (w : Chan) :
    (s.withStk t).chan w = s.chan w :=
  rfl

@[simp] theorem withStk_set_views (s : State) (t : Tracker) :
    (s.withStk t).millRec = s.millRec ∧ (s.withStk t).activeSet = s.activeSet ∧
    (s.withStk t).millStopExists = s.millStopExists :=
  ⟨rfl, rfl, rfl⟩

@[simp] theorem withStk_filter_views (s : State) (t : Tracker) (i' : FilterId) :
    (s.withStk t).filter i' = s.filter i' :=
  rfl

@[simp] theorem withStk_key_views (s : State) (t : Tracker) (key' : Key) :
    (s.withStk t).recordOf key' = s.recordOf key' ∧ (s.withStk t).present key' = s.present key' :=
  ⟨rfl, rfl⟩

@[simp] theorem withHlk_stand_views (s : State) (h : HostLink) (v : Stand) :
    (s.withHlk h).seq v = s.seq v ∧ (s.withHlk h).gap v = s.gap v ∧ (s.withHlk h).record v = s.record v ∧
    (s.withHlk h).inSet v = s.inSet v ∧ (s.withHlk h).isFirst v = s.isFirst v ∧
    (s.withHlk h).isLast v = s.isLast v ∧ (s.withHlk h).presence v = s.presence v ∧
    (s.withHlk h).stripPresent v = s.stripPresent v ∧ (s.withHlk h).openCover v = s.openCover v ∧
    (s.withHlk h).freezeCover v = s.freezeCover v :=
  ⟨rfl, rfl, rfl, rfl, rfl, rfl, rfl, rfl, rfl, rfl⟩

@[simp] theorem withHlk_chan_views (s : State) (h : HostLink) (w : Chan) :
    (s.withHlk h).chan w = s.chan w :=
  rfl

@[simp] theorem withHlk_set_views (s : State) (h : HostLink) :
    (s.withHlk h).millRec = s.millRec ∧ (s.withHlk h).activeSet = s.activeSet ∧
    (s.withHlk h).millStopExists = s.millStopExists :=
  ⟨rfl, rfl, rfl⟩

@[simp] theorem withHlk_filter_views (s : State) (h : HostLink) (i' : FilterId) :
    (s.withHlk h).filter i' = s.filter i' :=
  rfl

@[simp] theorem withHlk_key_views (s : State) (h : HostLink) (key' : Key) :
    (s.withHlk h).recordOf key' = s.recordOf key' ∧ (s.withHlk h).present key' = s.present key' :=
  ⟨rfl, rfl⟩

@[simp] theorem withHlk_span_views (s : State) (h : HostLink) (x : SpanId) :
    (s.withHlk h).span x = s.span x :=
  rfl

@[simp] theorem withFlc_stand_views (s : State) (f : FieldLine) (v : Stand) :
    (s.withFlc f).seq v = s.seq v ∧ (s.withFlc f).gap v = s.gap v ∧ (s.withFlc f).record v = s.record v ∧
    (s.withFlc f).inSet v = s.inSet v ∧ (s.withFlc f).isFirst v = s.isFirst v ∧
    (s.withFlc f).isLast v = s.isLast v ∧ (s.withFlc f).presence v = s.presence v ∧
    (s.withFlc f).stripPresent v = s.stripPresent v ∧ (s.withFlc f).openCover v = s.openCover v ∧
    (s.withFlc f).freezeCover v = s.freezeCover v :=
  ⟨rfl, rfl, rfl, rfl, rfl, rfl, rfl, rfl, rfl, rfl⟩

@[simp] theorem withFlc_chan_views (s : State) (f : FieldLine) (w : Chan) :
    (s.withFlc f).chan w = s.chan w :=
  rfl

@[simp] theorem withFlc_set_views (s : State) (f : FieldLine) :
    (s.withFlc f).millRec = s.millRec ∧ (s.withFlc f).activeSet = s.activeSet ∧
    (s.withFlc f).millStopExists = s.millStopExists :=
  ⟨rfl, rfl, rfl⟩

@[simp] theorem withFlc_filter_views (s : State) (f : FieldLine) (i' : FilterId) :
    (s.withFlc f).filter i' = s.filter i' :=
  rfl

@[simp] theorem withFlc_key_views (s : State) (f : FieldLine) (key' : Key) :
    (s.withFlc f).recordOf key' = s.recordOf key' ∧ (s.withFlc f).present key' = s.present key' :=
  ⟨rfl, rfl⟩

@[simp] theorem withFlc_span_views (s : State) (f : FieldLine) (x : SpanId) :
    (s.withFlc f).span x = s.span x :=
  rfl

@[simp] theorem withTmx_stand_views (s : State) (t : TripMatrix) (v : Stand) :
    (s.withTmx t).seq v = s.seq v ∧ (s.withTmx t).gap v = s.gap v ∧ (s.withTmx t).record v = s.record v ∧
    (s.withTmx t).inSet v = s.inSet v ∧ (s.withTmx t).isFirst v = s.isFirst v ∧
    (s.withTmx t).isLast v = s.isLast v ∧ (s.withTmx t).presence v = s.presence v ∧
    (s.withTmx t).stripPresent v = s.stripPresent v :=
  ⟨rfl, rfl, rfl, rfl, rfl, rfl, rfl, rfl⟩

@[simp] theorem withTmx_chan_views (s : State) (t : TripMatrix) (w : Chan) :
    (s.withTmx t).chan w = s.chan w :=
  rfl

@[simp] theorem withTmx_set_views (s : State) (t : TripMatrix) :
    (s.withTmx t).millRec = s.millRec ∧ (s.withTmx t).activeSet = s.activeSet :=
  ⟨rfl, rfl⟩

@[simp] theorem withTmx_filter_views (s : State) (t : TripMatrix) (i' : FilterId) :
    (s.withTmx t).filter i' = s.filter i' :=
  rfl

@[simp] theorem withTmx_span_views (s : State) (t : TripMatrix) (x : SpanId) :
    (s.withTmx t).span x = s.span x :=
  rfl

@[simp] theorem withSch_stand_views (s : State) (c : ScheduleStore) (v : Stand) :
    (s.withSch c).seq v = s.seq v ∧ (s.withSch c).gap v = s.gap v ∧ (s.withSch c).presence v = s.presence v ∧
    (s.withSch c).stripPresent v = s.stripPresent v ∧ (s.withSch c).openCover v = s.openCover v ∧
    (s.withSch c).freezeCover v = s.freezeCover v :=
  ⟨rfl, rfl, rfl, rfl, rfl, rfl⟩

@[simp] theorem withSch_chan_views (s : State) (c : ScheduleStore) (w : Chan) :
    (s.withSch c).chan w = s.chan w :=
  rfl

@[simp] theorem withSch_filter_views (s : State) (c : ScheduleStore) (i' : FilterId) :
    (s.withSch c).filter i' = s.filter i' :=
  rfl

@[simp] theorem withSch_key_views (s : State) (c : ScheduleStore) (key' : Key) :
    (s.withSch c).recordOf key' = s.recordOf key' ∧ (s.withSch c).present key' = s.present key' :=
  ⟨rfl, rfl⟩

@[simp] theorem withSch_set_views (s : State) (c : ScheduleStore) :
    (s.withSch c).millStopExists = s.millStopExists :=
  rfl

@[simp] theorem withSch_span_views (s : State) (c : ScheduleStore) (x : SpanId) :
    (s.withSch c).span x = s.span x :=
  rfl

@[simp] theorem withPlu_stand_views (s : State) (p : PresenceUnit) (v : Stand) :
    (s.withPlu p).seq v = s.seq v ∧ (s.withPlu p).gap v = s.gap v ∧ (s.withPlu p).record v = s.record v ∧
    (s.withPlu p).inSet v = s.inSet v ∧ (s.withPlu p).isFirst v = s.isFirst v ∧
    (s.withPlu p).isLast v = s.isLast v ∧ (s.withPlu p).openCover v = s.openCover v ∧
    (s.withPlu p).freezeCover v = s.freezeCover v :=
  ⟨rfl, rfl, rfl, rfl, rfl, rfl, rfl, rfl⟩

@[simp] theorem withPlu_chan_views (s : State) (p : PresenceUnit) (w : Chan) :
    (s.withPlu p).chan w = s.chan w :=
  rfl

@[simp] theorem withPlu_set_views (s : State) (p : PresenceUnit) :
    (s.withPlu p).millRec = s.millRec ∧ (s.withPlu p).activeSet = s.activeSet ∧
    (s.withPlu p).millStopExists = s.millStopExists :=
  ⟨rfl, rfl, rfl⟩

@[simp] theorem withPlu_key_views (s : State) (p : PresenceUnit) (key' : Key) :
    (s.withPlu p).recordOf key' = s.recordOf key' ∧ (s.withPlu p).present key' = s.present key' :=
  ⟨rfl, rfl⟩

@[simp] theorem withPlu_span_views (s : State) (p : PresenceUnit) (x : SpanId) :
    (s.withPlu p).span x = s.span x :=
  rfl

@[simp] theorem modSeq_stand_views (s : State) (k : Stand) (f : SeqRecord → SeqRecord) (v : Stand) :
    (s.modSeq k f).gap v = s.gap v ∧ (s.modSeq k f).record v = s.record v ∧ (s.modSeq k f).inSet v = s.inSet v ∧
    (s.modSeq k f).isFirst v = s.isFirst v ∧ (s.modSeq k f).isLast v = s.isLast v ∧
    (s.modSeq k f).presence v = s.presence v ∧ (s.modSeq k f).stripPresent v = s.stripPresent v ∧
    (s.modSeq k f).openCover v = s.openCover v ∧ (s.modSeq k f).freezeCover v = s.freezeCover v :=
  ⟨rfl, rfl, rfl, rfl, rfl, rfl, rfl, rfl, rfl⟩

@[simp] theorem modSeq_chan_views (s : State) (k : Stand) (f : SeqRecord → SeqRecord) (w : Chan) :
    (s.modSeq k f).chan w = s.chan w :=
  rfl

@[simp] theorem modSeq_set_views (s : State) (k : Stand) (f : SeqRecord → SeqRecord) :
    (s.modSeq k f).millRec = s.millRec ∧ (s.modSeq k f).activeSet = s.activeSet ∧
    (s.modSeq k f).millStopExists = s.millStopExists :=
  ⟨rfl, rfl, rfl⟩

@[simp] theorem modSeq_filter_views (s : State) (k : Stand) (f : SeqRecord → SeqRecord) (i' : FilterId) :
    (s.modSeq k f).filter i' = s.filter i' :=
  rfl

@[simp] theorem modSeq_key_views (s : State) (k : Stand) (f : SeqRecord → SeqRecord) (key' : Key) :
    (s.modSeq k f).recordOf key' = s.recordOf key' ∧ (s.modSeq k f).present key' = s.present key' :=
  ⟨rfl, rfl⟩

@[simp] theorem modSeq_span_views (s : State) (k : Stand) (f : SeqRecord → SeqRecord) (x : SpanId) :
    (s.modSeq k f).span x = s.span x :=
  rfl

@[simp] theorem modGap_stand_views (s : State) (k : Stand) (f : GapRecord → GapRecord) (v : Stand) :
    (s.modGap k f).seq v = s.seq v ∧ (s.modGap k f).record v = s.record v ∧ (s.modGap k f).inSet v = s.inSet v ∧
    (s.modGap k f).isFirst v = s.isFirst v ∧ (s.modGap k f).isLast v = s.isLast v ∧
    (s.modGap k f).presence v = s.presence v ∧ (s.modGap k f).stripPresent v = s.stripPresent v ∧
    (s.modGap k f).openCover v = s.openCover v ∧ (s.modGap k f).freezeCover v = s.freezeCover v :=
  ⟨rfl, rfl, rfl, rfl, rfl, rfl, rfl, rfl, rfl⟩

@[simp] theorem modGap_chan_views (s : State) (k : Stand) (f : GapRecord → GapRecord) (w : Chan) :
    (s.modGap k f).chan w = s.chan w :=
  rfl

@[simp] theorem modGap_set_views (s : State) (k : Stand) (f : GapRecord → GapRecord) :
    (s.modGap k f).millRec = s.millRec ∧ (s.modGap k f).activeSet = s.activeSet ∧
    (s.modGap k f).millStopExists = s.millStopExists :=
  ⟨rfl, rfl, rfl⟩

@[simp] theorem modGap_filter_views (s : State) (k : Stand) (f : GapRecord → GapRecord) (i' : FilterId) :
    (s.modGap k f).filter i' = s.filter i' :=
  rfl

@[simp] theorem modGap_key_views (s : State) (k : Stand) (f : GapRecord → GapRecord) (key' : Key) :
    (s.modGap k f).recordOf key' = s.recordOf key' ∧ (s.modGap k f).present key' = s.present key' :=
  ⟨rfl, rfl⟩

@[simp] theorem modGap_span_views (s : State) (k : Stand) (f : GapRecord → GapRecord) (x : SpanId) :
    (s.modGap k f).span x = s.span x :=
  rfl

@[simp] theorem modGaps_stand_views (s : State) (f : Stand → GapRecord → GapRecord) (v : Stand) :
    (s.modGaps f).seq v = s.seq v ∧ (s.modGaps f).record v = s.record v ∧ (s.modGaps f).inSet v = s.inSet v ∧
    (s.modGaps f).isFirst v = s.isFirst v ∧ (s.modGaps f).isLast v = s.isLast v ∧
    (s.modGaps f).presence v = s.presence v ∧ (s.modGaps f).stripPresent v = s.stripPresent v ∧
    (s.modGaps f).openCover v = s.openCover v ∧ (s.modGaps f).freezeCover v = s.freezeCover v :=
  ⟨rfl, rfl, rfl, rfl, rfl, rfl, rfl, rfl, rfl⟩

@[simp] theorem modGaps_chan_views (s : State) (f : Stand → GapRecord → GapRecord) (w : Chan) :
    (s.modGaps f).chan w = s.chan w :=
  rfl

@[simp] theorem modGaps_set_views (s : State) (f : Stand → GapRecord → GapRecord) :
    (s.modGaps f).millRec = s.millRec ∧ (s.modGaps f).activeSet = s.activeSet ∧
    (s.modGaps f).millStopExists = s.millStopExists :=
  ⟨rfl, rfl, rfl⟩

@[simp] theorem modGaps_filter_views (s : State) (f : Stand → GapRecord → GapRecord) (i' : FilterId) :
    (s.modGaps f).filter i' = s.filter i' :=
  rfl

@[simp] theorem modGaps_key_views (s : State) (f : Stand → GapRecord → GapRecord) (key' : Key) :
    (s.modGaps f).recordOf key' = s.recordOf key' ∧ (s.modGaps f).present key' = s.present key' :=
  ⟨rfl, rfl⟩

@[simp] theorem modGaps_span_views (s : State) (f : Stand → GapRecord → GapRecord) (x : SpanId) :
    (s.modGaps f).span x = s.span x :=
  rfl

@[simp] theorem modChan_stand_views (s : State) (c : Chan) (f : Channel → Channel) (v : Stand) :
    (s.modChan c f).seq v = s.seq v ∧ (s.modChan c f).gap v = s.gap v ∧ (s.modChan c f).record v = s.record v ∧
    (s.modChan c f).inSet v = s.inSet v ∧ (s.modChan c f).isFirst v = s.isFirst v ∧
    (s.modChan c f).isLast v = s.isLast v ∧ (s.modChan c f).presence v = s.presence v ∧
    (s.modChan c f).stripPresent v = s.stripPresent v ∧ (s.modChan c f).openCover v = s.openCover v ∧
    (s.modChan c f).freezeCover v = s.freezeCover v :=
  ⟨rfl, rfl, rfl, rfl, rfl, rfl, rfl, rfl, rfl, rfl⟩

@[simp] theorem modChan_set_views (s : State) (c : Chan) (f : Channel → Channel) :
    (s.modChan c f).millRec = s.millRec ∧ (s.modChan c f).activeSet = s.activeSet ∧
    (s.modChan c f).millStopExists = s.millStopExists :=
  ⟨rfl, rfl, rfl⟩

@[simp] theorem modChan_filter_views (s : State) (c : Chan) (f : Channel → Channel) (i' : FilterId) :
    (s.modChan c f).filter i' = s.filter i' :=
  rfl

@[simp] theorem modChan_key_views (s : State) (c : Chan) (f : Channel → Channel) (key' : Key) :
    (s.modChan c f).recordOf key' = s.recordOf key' ∧ (s.modChan c f).present key' = s.present key' :=
  ⟨rfl, rfl⟩

@[simp] theorem modChan_span_views (s : State) (c : Chan) (f : Channel → Channel) (x : SpanId) :
    (s.modChan c f).span x = s.span x :=
  rfl

@[simp] theorem modPresence_stand_views (s : State) (k : Stand) (f : Presence → Presence) (v : Stand) :
    (s.modPresence k f).seq v = s.seq v ∧ (s.modPresence k f).gap v = s.gap v ∧
    (s.modPresence k f).record v = s.record v ∧ (s.modPresence k f).inSet v = s.inSet v ∧
    (s.modPresence k f).isFirst v = s.isFirst v ∧ (s.modPresence k f).isLast v = s.isLast v ∧
    (s.modPresence k f).openCover v = s.openCover v ∧ (s.modPresence k f).freezeCover v = s.freezeCover v :=
  ⟨rfl, rfl, rfl, rfl, rfl, rfl, rfl, rfl⟩

@[simp] theorem modPresence_chan_views (s : State) (k : Stand) (f : Presence → Presence) (w : Chan) :
    (s.modPresence k f).chan w = s.chan w :=
  rfl

@[simp] theorem modPresence_set_views (s : State) (k : Stand) (f : Presence → Presence) :
    (s.modPresence k f).millRec = s.millRec ∧ (s.modPresence k f).activeSet = s.activeSet ∧
    (s.modPresence k f).millStopExists = s.millStopExists :=
  ⟨rfl, rfl, rfl⟩

@[simp] theorem modPresence_key_views (s : State) (k : Stand) (f : Presence → Presence) (key' : Key) :
    (s.modPresence k f).recordOf key' = s.recordOf key' ∧ (s.modPresence k f).present key' = s.present key' :=
  ⟨rfl, rfl⟩

@[simp] theorem modPresence_span_views (s : State) (k : Stand) (f : Presence → Presence) (x : SpanId) :
    (s.modPresence k f).span x = s.span x :=
  rfl

@[simp] theorem setSpan_stand_views (s : State) (j : SpanId) (q : List Segment) (v : Stand) :
    (s.setSpan j q).seq v = s.seq v ∧ (s.setSpan j q).gap v = s.gap v ∧ (s.setSpan j q).record v = s.record v ∧
    (s.setSpan j q).inSet v = s.inSet v ∧ (s.setSpan j q).isFirst v = s.isFirst v ∧
    (s.setSpan j q).isLast v = s.isLast v ∧ (s.setSpan j q).presence v = s.presence v ∧
    (s.setSpan j q).stripPresent v = s.stripPresent v ∧ (s.setSpan j q).openCover v = s.openCover v ∧
    (s.setSpan j q).freezeCover v = s.freezeCover v :=
  ⟨rfl, rfl, rfl, rfl, rfl, rfl, rfl, rfl, rfl, rfl⟩

@[simp] theorem setSpan_chan_views (s : State) (j : SpanId) (q : List Segment) (w : Chan) :
    (s.setSpan j q).chan w = s.chan w :=
  rfl

@[simp] theorem setSpan_set_views (s : State) (j : SpanId) (q : List Segment) :
    (s.setSpan j q).millRec = s.millRec ∧ (s.setSpan j q).activeSet = s.activeSet ∧
    (s.setSpan j q).millStopExists = s.millStopExists :=
  ⟨rfl, rfl, rfl⟩

@[simp] theorem setSpan_filter_views (s : State) (j : SpanId) (q : List Segment) (i' : FilterId) :
    (s.setSpan j q).filter i' = s.filter i' :=
  rfl

@[simp] theorem setSpan_key_views (s : State) (j : SpanId) (q : List Segment) (key' : Key) :
    (s.setSpan j q).recordOf key' = s.recordOf key' ∧ (s.setSpan j q).present key' = s.present key' :=
  ⟨rfl, rfl⟩

@[simp] theorem setBite_stand_views (s : State) (k : Stand) (b : Option Segment) (v : Stand) :
    (s.setBite k b).seq v = s.seq v ∧ (s.setBite k b).gap v = s.gap v ∧ (s.setBite k b).record v = s.record v ∧
    (s.setBite k b).inSet v = s.inSet v ∧ (s.setBite k b).isFirst v = s.isFirst v ∧
    (s.setBite k b).isLast v = s.isLast v ∧ (s.setBite k b).presence v = s.presence v ∧
    (s.setBite k b).stripPresent v = s.stripPresent v ∧ (s.setBite k b).openCover v = s.openCover v ∧
    (s.setBite k b).freezeCover v = s.freezeCover v :=
  ⟨rfl, rfl, rfl, rfl, rfl, rfl, rfl, rfl, rfl, rfl⟩

@[simp] theorem setBite_chan_views (s : State) (k : Stand) (b : Option Segment) (w : Chan) :
    (s.setBite k b).chan w = s.chan w :=
  rfl

@[simp] theorem setBite_set_views (s : State) (k : Stand) (b : Option Segment) :
    (s.setBite k b).millRec = s.millRec ∧ (s.setBite k b).activeSet = s.activeSet ∧
    (s.setBite k b).millStopExists = s.millStopExists :=
  ⟨rfl, rfl, rfl⟩

@[simp] theorem setBite_filter_views (s : State) (k : Stand) (b : Option Segment) (i' : FilterId) :
    (s.setBite k b).filter i' = s.filter i' :=
  rfl

@[simp] theorem setBite_key_views (s : State) (k : Stand) (b : Option Segment) (key' : Key) :
    (s.setBite k b).recordOf key' = s.recordOf key' ∧ (s.setBite k b).present key' = s.present key' :=
  ⟨rfl, rfl⟩

@[simp] theorem modRecord_stand_views (s : State) (key : Key) (f : TripRecord → TripRecord) (v : Stand) :
    (s.modRecord key f).seq v = s.seq v ∧ (s.modRecord key f).gap v = s.gap v ∧
    (s.modRecord key f).record v = s.record v ∧ (s.modRecord key f).inSet v = s.inSet v ∧
    (s.modRecord key f).isFirst v = s.isFirst v ∧ (s.modRecord key f).isLast v = s.isLast v ∧
    (s.modRecord key f).presence v = s.presence v ∧ (s.modRecord key f).stripPresent v = s.stripPresent v :=
  ⟨rfl, rfl, rfl, rfl, rfl, rfl, rfl, rfl⟩

@[simp] theorem modRecord_chan_views (s : State) (key : Key) (f : TripRecord → TripRecord) (w : Chan) :
    (s.modRecord key f).chan w = s.chan w :=
  rfl

@[simp] theorem modRecord_set_views (s : State) (key : Key) (f : TripRecord → TripRecord) :
    (s.modRecord key f).millRec = s.millRec ∧ (s.modRecord key f).activeSet = s.activeSet :=
  ⟨rfl, rfl⟩

@[simp] theorem modRecord_filter_views (s : State) (key : Key) (f : TripRecord → TripRecord) (i' : FilterId) :
    (s.modRecord key f).filter i' = s.filter i' :=
  rfl

@[simp] theorem modRecord_span_views (s : State) (key : Key) (f : TripRecord → TripRecord) (x : SpanId) :
    (s.modRecord key f).span x = s.span x :=
  rfl

/-! ## Entries of an updated table -/

theorem modSeq_seq (s : State) (k j : Stand) (f : SeqRecord → SeqRecord) :
    (s.modSeq k f).seq j = if j = k then f (s.seq k) else s.seq j := vget_vset _ _ _ _

@[simp] theorem modSeq_seq_self (s : State) (k : Stand) (f : SeqRecord → SeqRecord) :
    (s.modSeq k f).seq k = f (s.seq k) := vget_vset_self _ _ _

theorem modGap_gap (s : State) (k j : Stand) (f : GapRecord → GapRecord) :
    (s.modGap k f).gap j = if j = k then f (s.gap k) else s.gap j := vget_vset _ _ _ _

@[simp] theorem modGap_gap_self (s : State) (k : Stand) (f : GapRecord → GapRecord) :
    (s.modGap k f).gap k = f (s.gap k) := vget_vset_self _ _ _

@[simp] theorem modGaps_gap (s : State) (f : Stand → GapRecord → GapRecord) (k : Stand) :
    (s.modGaps f).gap k = f k (s.gap k) := vget_vtab _ _

theorem modChan_chan (s : State) (c d : Chan) (f : Channel → Channel) :
    (s.modChan c f).chan d = if d = c then f (s.chan c) else s.chan d := vget_vset _ _ _ _

@[simp] theorem modChan_chan_self (s : State) (c : Chan) (f : Channel → Channel) :
    (s.modChan c f).chan c = f (s.chan c) := vget_vset_self _ _ _

theorem modPresence_presence (s : State) (k j : Stand) (f : Presence → Presence) :
    (s.modPresence k f).presence j = if j = k then f (s.presence k) else s.presence j := vget_vset _ _ _ _

@[simp] theorem modPresence_presence_self (s : State) (k : Stand) (f : Presence → Presence) :
    (s.modPresence k f).presence k = f (s.presence k) := vget_vset_self _ _ _

@[simp] theorem modPresence_plu (s : State) (k : Stand) (f : Presence → Presence) :
    (s.modPresence k f).plu.settled = s.plu.settled ∧ (s.modPresence k f).plu.pins = s.plu.pins ∧
    (s.modPresence k f).plu.hmd = s.plu.hmd ∧ (s.modPresence k f).plu.stop = s.plu.stop ∧
    (s.modPresence k f).plu.panel = s.plu.panel ∧ (s.modPresence k f).plu.acc = s.plu.acc := by
  exact ⟨rfl, rfl, rfl, rfl, rfl, rfl⟩

@[simp] theorem modPresence_filter (s : State) (k : Stand) (f : Presence → Presence) (i : FilterId) :
    (s.modPresence k f).filter i = s.filter i := by cases i <;> rfl

theorem setSpan_span (s : State) (i j : SpanId) (q : List Segment) :
    (s.setSpan i q).span j = if j = i then q else s.span j := vget_vset _ _ _ _

@[simp] theorem setBite_span (s : State) (k : Stand) (b : Option Segment) (j : SpanId) :
    (s.setBite k b).span j = s.span j := rfl

theorem setBite_bites (s : State) (k j : Stand) (b : Option Segment) :
    vget (s.setBite k b).stk.bites j = if j = k then b else vget s.stk.bites j := vget_vset _ _ _ _

@[simp] theorem setSpan_bites (s : State) (j : SpanId) (q : List Segment) (k : Stand) :
    vget (s.setSpan j q).stk.bites k = vget s.stk.bites k := rfl

/-- A filter replaced changes the presence unit alone, and in it that filter alone. -/
@[simp] theorem setFilter_keeps (s : State) (i : FilterId) (f : Filter) :
    (s.setFilter i f).hlk = s.hlk ∧ (s.setFilter i f).flc = s.flc ∧ (s.setFilter i f).mch = s.mch ∧
    (s.setFilter i f).stk = s.stk ∧ (s.setFilter i f).gce = s.gce ∧ (s.setFilter i f).ssq = s.ssq ∧
    (s.setFilter i f).tmx = s.tmx ∧ (s.setFilter i f).sch = s.sch ∧ (s.setFilter i f).ms = s.ms ∧
    (s.setFilter i f).resets = s.resets ∧ (s.setFilter i f).freeIx = s.freeIx ∧ (s.setFilter i f).pending = s.pending ∧
    (s.setFilter i f).plu.pins = s.plu.pins ∧ (s.setFilter i f).plu.acc = s.plu.acc ∧
    (s.setFilter i f).plu.pres = s.plu.pres ∧ (s.setFilter i f).plu.settled = s.plu.settled := by
  cases i <;> exact ⟨rfl, rfl, rfl, rfl, rfl, rfl, rfl, rfl, rfl, rfl, rfl, rfl, rfl, rfl, rfl, rfl⟩

theorem setFilter_filter (s : State) (i j : FilterId) (f : Filter) :
    (s.setFilter i f).filter j = if j = i then f else s.filter j := by
  cases i <;> cases j <;>
    simp [State.setFilter, State.filter, State.withPlu, vget_vset, FilterId.hmd.injEq, FilterId.stop.injEq,
      FilterId.panel.injEq]

/-! ## What a change made at each stand keeps -/

/-- What every change of one stand keeps, the eight changes together keep. -/
theorem eachStand_keeps {α : Type} (view : State → α) (f : Stand → State → State)
    (h : ∀ k s, view (f k s) = view s) (s : State) : view (eachStand f s) = view s := by
  unfold eachStand
  generalize allStands = l
  induction l generalizing s with
  | nil => rfl
  | cons k l ih => exact (ih (f k s)).trans (h k s)

/-- An invariant of a state that every change of one stand keeps, the eight changes together keep. -/
theorem eachStand_inv (P : State → Prop) (f : Stand → State → State) (h : ∀ k s, P s → P (f k s)) (s : State)
    (hs : P s) : P (eachStand f s) := by
  unfold eachStand
  generalize allStands = l
  induction l generalizing s with
  | nil => exact hs
  | cons k l ih => exact ih (f k s) (h k s hs)

/-- What every change of one list entry keeps, the changes together keep. -/
theorem foldl_keeps {α β : Type} (view : State → α) (f : State → β → State)
    (h : ∀ s b, view (f s b) = view s) (l : List β) (s : State) : view (l.foldl f s) = view s := by
  induction l generalizing s with
  | nil => rfl
  | cons b l ih => exact (ih (f s b)).trans (h s b)

end Sys2Proof.Machine
end

