-- ==== Sys2Proof/Laws/Ops.lean ====
section
/-! SUPPORT. The named operations of Machine/Ops.lean: what each leaves alone, and what it can do. -/

namespace Sys2Proof.Machine

/-! ## The report queue -/

/-- An update of a notice does one of two things, by the kind mask (R179, R181). -/
theorem updateNotice_cases (b : NoticeBody) (s : State) :
    (kindEnabled s.hlk.mask b.source = true ∧
      updateNotice b s = s.withHlk { s.hlk with queue := enterNotice s.hlk.queue b }) ∨
    (kindEnabled s.hlk.mask b.source = false ∧ updateNotice b s = s) := by
  unfold updateNotice
  cases h : kindEnabled s.hlk.mask b.source <;> simp

/-- An update of a notice changes the queue alone (R179). -/
@[simp] theorem updateNotice_keeps (b : NoticeBody) (s : State) :
    (updateNotice b s).hlk.tx = s.hlk.tx ∧ (updateNotice b s).hlk.slot = s.hlk.slot ∧
    (updateNotice b s).hlk.held = s.hlk.held ∧ (updateNotice b s).hlk.mask = s.hlk.mask ∧
    (updateNotice b s).hlk.rx = s.hlk.rx ∧ (updateNotice b s).hlk.straps = s.hlk.straps ∧
    (updateNotice b s).hlk.streams = s.hlk.streams ∧ (updateNotice b s).hlk.aux = s.hlk.aux ∧
    (updateNotice b s).flc = s.flc ∧ (updateNotice b s).mch = s.mch ∧ (updateNotice b s).plu = s.plu ∧
    (updateNotice b s).stk = s.stk ∧ (updateNotice b s).gce = s.gce ∧ (updateNotice b s).ssq = s.ssq ∧
    (updateNotice b s).tmx = s.tmx ∧ (updateNotice b s).sch = s.sch ∧ (updateNotice b s).ms = s.ms ∧
    (updateNotice b s).resets = s.resets ∧ (updateNotice b s).freeIx = s.freeIx ∧
    (updateNotice b s).pending = s.pending := by
  unfold updateNotice
  split <;> simp

@[simp] theorem standNotice_keeps (k : Stand) (s : State) :
    (standNotice k s).hlk.tx = s.hlk.tx ∧ (standNotice k s).hlk.slot = s.hlk.slot ∧
    (standNotice k s).hlk.held = s.hlk.held ∧ (standNotice k s).hlk.mask = s.hlk.mask ∧
    (standNotice k s).hlk.rx = s.hlk.rx ∧ (standNotice k s).hlk.straps = s.hlk.straps ∧
    (standNotice k s).hlk.streams = s.hlk.streams ∧ (standNotice k s).hlk.aux = s.hlk.aux ∧
    (standNotice k s).flc = s.flc ∧ (standNotice k s).mch = s.mch ∧ (standNotice k s).plu = s.plu ∧
    (standNotice k s).stk = s.stk ∧ (standNotice k s).gce = s.gce ∧ (standNotice k s).ssq = s.ssq ∧
    (standNotice k s).tmx = s.tmx ∧ (standNotice k s).sch = s.sch ∧ (standNotice k s).ms = s.ms ∧
    (standNotice k s).resets = s.resets ∧ (standNotice k s).freeIx = s.freeIx ∧
    (standNotice k s).pending = s.pending := by
  simp [standNotice]

@[simp] theorem millNotice_keeps (s : State) :
    (millNotice s).hlk.tx = s.hlk.tx ∧ (millNotice s).hlk.slot = s.hlk.slot ∧ (millNotice s).hlk.held = s.hlk.held ∧
    (millNotice s).hlk.mask = s.hlk.mask ∧ (millNotice s).hlk.rx = s.hlk.rx ∧
    (millNotice s).hlk.straps = s.hlk.straps ∧ (millNotice s).hlk.streams = s.hlk.streams ∧
    (millNotice s).hlk.aux = s.hlk.aux ∧ (millNotice s).flc = s.flc ∧ (millNotice s).mch = s.mch ∧
    (millNotice s).plu = s.plu ∧ (millNotice s).stk = s.stk ∧ (millNotice s).gce = s.gce ∧
    (millNotice s).ssq = s.ssq ∧ (millNotice s).tmx = s.tmx ∧ (millNotice s).sch = s.sch ∧
    (millNotice s).ms = s.ms ∧ (millNotice s).resets = s.resets ∧ (millNotice s).freeIx = s.freeIx ∧
    (millNotice s).pending = s.pending := by
  simp [millNotice]

/-- Taking an update leaves every content of another source where it was (R179). -/
theorem enterNotice_other (q : List Notice) (b : NoticeBody) (n : Notice) (h : n.body.source ≠ b.source) :
    n ∈ enterNotice q b ↔ n ∈ q := by
  unfold enterNotice
  split
  · simp only [List.mem_map]
    constructor
    · rintro ⟨m, hm, rfl⟩
      split at h
      · rename_i hs
        exfalso
        revert h
        simp only [coalesce, ne_eq]
        split <;> simp_all [NoticeBody.source]
      · rename_i hs
        simpa [hs] using hm
    · intro hn
      exact ⟨n, hn, by simp [h]⟩
  · simp only [List.mem_append, List.mem_singleton]
    constructor
    · rintro (hn | rfl)
      · exact hn
      · exact absurd rfl h
    · exact Or.inl

/-- The source of a content does not change when it is coalesced (R179). -/
@[simp] theorem coalesce_source (old new : NoticeBody) (h : old.source = new.source) :
    (coalesce old new).source = new.source := by
  unfold coalesce
  split
  · rfl
  · rfl

/-- The sources in the queue, in order, after an update: the old ones, and the new one behind them if it was not there
(R179). -/
theorem enterNotice_sources (q : List Notice) (b : NoticeBody) :
    (enterNotice q b).map (fun n => n.body.source) =
      if b.source ∈ q.map (fun n => n.body.source) then q.map (fun n => n.body.source)
      else q.map (fun n => n.body.source) ++ [b.source] := by
  have here : (q.any fun n => n.body.source == b.source) = true ↔ b.source ∈ q.map (fun n => n.body.source) := by
    simp only [List.any_eq_true, beq_iff_eq, List.mem_map]
  unfold enterNotice
  by_cases h : (q.any fun n => n.body.source == b.source) = true
  · rw [if_pos h, if_pos (here.mp h), List.map_map]
    apply List.map_congr_left
    intro n _
    simp only [Function.comp]
    split
    · rename_i hs
      have hs : n.body.source = b.source := by simpa using hs
      rw [coalesce_source _ _ hs, hs]
    · rfl
  · rw [if_neg h, if_neg (fun m => h (here.mpr m))]
    simp

/-- One notice at most for a source: kept by an update (R179). -/
theorem enterNotice_nodup (q : List Notice) (b : NoticeBody) (h : (q.map fun n => n.body.source).Nodup) :
    ((enterNotice q b).map fun n => n.body.source).Nodup := by
  rw [enterNotice_sources]
  split
  · exact h
  · rename_i hb
    exact List.nodup_append.mpr ⟨h, List.nodup_singleton _, fun a ha c hc => by
      rw [List.mem_singleton.mp hc]
      exact fun e => hb (e ▸ ha)⟩

/-! ## Setpoints and field-out -/

@[simp] theorem emptySlot_keeps (k : Stand) (s : State) :
    (emptySlot k s).hlk = s.hlk ∧ (emptySlot k s).mch = s.mch ∧ (emptySlot k s).plu = s.plu ∧
    (emptySlot k s).stk = s.stk ∧ (emptySlot k s).gce = s.gce ∧ (emptySlot k s).ssq = s.ssq ∧
    (emptySlot k s).tmx = s.tmx ∧ (emptySlot k s).sch = s.sch ∧ (emptySlot k s).ms = s.ms ∧
    (emptySlot k s).resets = s.resets ∧ (emptySlot k s).freeIx = s.freeIx ∧ (emptySlot k s).pending = s.pending := by
  simp [emptySlot]

/-- A setpoint that begins transmission changes the field line controller and the gap records alone (R38, R89). -/
@[simp] theorem startSetpoint_keeps (k : Stand) (p : Setpoint) (s : State) :
    (startSetpoint k p s).hlk = s.hlk ∧ (startSetpoint k p s).mch = s.mch ∧ (startSetpoint k p s).plu = s.plu ∧
    (startSetpoint k p s).stk = s.stk ∧ (startSetpoint k p s).ssq = s.ssq ∧ (startSetpoint k p s).tmx = s.tmx ∧
    (startSetpoint k p s).sch = s.sch ∧ (startSetpoint k p s).ms = s.ms ∧ (startSetpoint k p s).resets = s.resets ∧
    (startSetpoint k p s).freeIx = s.freeIx ∧ (startSetpoint k p s).pending = s.pending := by
  simp [startSetpoint]

@[simp] theorem produce_keeps (k : Stand) (mode : Mode) (ref : Int) (s : State) :
    (produce k mode ref s).hlk = s.hlk ∧ (produce k mode ref s).mch = s.mch ∧ (produce k mode ref s).plu = s.plu ∧
    (produce k mode ref s).stk = s.stk ∧ (produce k mode ref s).ssq = s.ssq ∧ (produce k mode ref s).tmx = s.tmx ∧
    (produce k mode ref s).sch = s.sch ∧ (produce k mode ref s).ms = s.ms ∧
    (produce k mode ref s).resets = s.resets ∧ (produce k mode ref s).freeIx = s.freeIx ∧
    (produce k mode ref s).pending = s.pending := by
  simp only [produce]
  split
  · simp
  · split <;> simp

@[simp] theorem nextSetpoint_keeps (s : State) :
    (nextSetpoint s).hlk = s.hlk ∧ (nextSetpoint s).mch = s.mch ∧ (nextSetpoint s).plu = s.plu ∧
    (nextSetpoint s).stk = s.stk ∧ (nextSetpoint s).ssq = s.ssq ∧ (nextSetpoint s).tmx = s.tmx ∧
    (nextSetpoint s).sch = s.sch ∧ (nextSetpoint s).ms = s.ms ∧ (nextSetpoint s).resets = s.resets ∧
    (nextSetpoint s).freeIx = s.freeIx ∧ (nextSetpoint s).pending = s.pending := by
  unfold nextSetpoint
  split <;> simp

/-- What producing a setpoint can do (R36, R38, R90): discarded with the slot emptied, begun on an idle line, or placed in
the slot. -/
theorem produce_cases (k : Stand) (mode : Mode) (ref : Int) (s : State) :
    let t := s.modGap k fun g => { g with sRef := ref }
    (vget s.sch.config.tags k = 0 ∧ produce k mode ref s = emptySlot k t) ∨
    (vget s.sch.config.tags k ≠ 0 ∧ s.flc.tx = none ∧ produce k mode ref s = startSetpoint k ⟨mode, ref⟩ t) ∨
    (vget s.sch.config.tags k ≠ 0 ∧ s.flc.tx ≠ none ∧
      produce k mode ref s = t.withFlc { s.flc with slots := vset s.flc.slots k (some ⟨mode, ref⟩) }) := by
  intro t
  by_cases h : vget s.sch.config.tags k = 0
  · exact Or.inl ⟨h, by simp [produce, h, t]⟩
  · have e : produce k mode ref s = (match s.flc.tx with
        | none => startSetpoint k ⟨mode, ref⟩ t
        | some _ => t.withFlc { s.flc with slots := vset s.flc.slots k (some ⟨mode, ref⟩) }) := if_neg h
    cases hx : s.flc.tx with
    | none => exact Or.inr (Or.inl ⟨h, rfl, by rw [e, hx]⟩)
    | some f => exact Or.inr (Or.inr ⟨h, by simp, by rw [e, hx]⟩)

/-- A produced setpoint's gap is the stand's S_ref (R90), and no other stand's gap record changes. -/
theorem produce_gap (k j : Stand) (mode : Mode) (ref : Int) (s : State) :
    ((produce k mode ref s).gap k).sRef = ref ∧ (j ≠ k → (produce k mode ref s).gap j = s.gap j) := by
  obtain ⟨_, e⟩ | ⟨_, _, e⟩ | ⟨_, _, e⟩ := produce_cases k mode ref s <;> rw [e] <;> constructor <;>
    simp +contextual [emptySlot, startSetpoint, modGap_gap]

/-- The setpoint taken at the end of a transmission is one that waits in its stand's slot, with none below it (R38). -/
theorem pendingSlot_some {f : FieldLine} {k : Stand} {p : Setpoint} (h : pendingSlot f = some (k, p)) :
    vget f.slots k = some p := by
  unfold pendingSlot at h
  obtain ⟨j, _, hj⟩ := List.exists_of_findSome?_eq_some h
  cases hs : vget f.slots j with
  | none => simp [hs] at hj
  | some q =>
    simp only [hs, Option.map_some, Option.some.injEq, Prod.mk.injEq] at hj
    obtain ⟨rfl, rfl⟩ := hj
    exact hs

/-- The line goes idle exactly when every slot is empty (R38). -/
theorem pendingSlot_none (f : FieldLine) : pendingSlot f = none ↔ ∀ k, vget f.slots k = none := by
  unfold pendingSlot
  rw [List.findSome?_eq_none_iff]
  have all : ∀ k : Stand, k ∈ allStands := by decide
  constructor
  · intro h k
    simpa using h k (all k)
  · intro h k _
    simp [h k]

end Sys2Proof.Machine
end

