-- ==== Sys2Proof/Laws/Stands.lean ====
section
/-! SUPPORT. The shared operations of the stand sequencer and of the trip table: what each leaves alone, and what it can
do. -/

namespace Sys2Proof.Machine

/-! ## Entering a state -/

/-- The demand was true before an evaluation exactly when the output was asserted or the interval ran, and afterwards it is
the state's (R125). -/
theorem evalDemand_demand (q : SeqRecord) (millStop : Bool) (tNo : Nat) :
    ((q.evalDemand millStop tNo).fastOpen || (q.evalDemand millStop tNo).nonOverlap.isSome) =
      fastOpenDemand q.state millStop := by
  simp only [SeqRecord.evalDemand]
  cases hd : fastOpenDemand q.state millStop <;> simp
  split
  · assumption
  · split <;> simp

/-- An evaluation of the demand changes FAST_OPEN and the non-overlap timer alone (R125). -/
@[simp] theorem evalDemand_record_keeps (q : SeqRecord) (millStop : Bool) (tNo : Nat) :
    (q.evalDemand millStop tNo).state = q.state ∧ (q.evalDemand millStop tNo).frozen = q.frozen ∧
    (q.evalDemand millStop tNo).handover = q.handover ∧ (q.evalDemand millStop tNo).equalize = q.equalize ∧
    (q.evalDemand millStop tNo).localReq = q.localReq := by
  simp only [SeqRecord.evalDemand]
  split
  · split
    · simp
    · split <;> simp
  · simp

@[simp] theorem evalDemand_keeps (k : Stand) (s : State) :
    (evalDemand k s).hlk = s.hlk ∧ (evalDemand k s).flc = s.flc ∧ (evalDemand k s).mch = s.mch ∧
    (evalDemand k s).plu = s.plu ∧ (evalDemand k s).stk = s.stk ∧ (evalDemand k s).gce = s.gce ∧
    (evalDemand k s).tmx = s.tmx ∧ (evalDemand k s).sch = s.sch ∧ (evalDemand k s).ms = s.ms ∧
    (evalDemand k s).resets = s.resets ∧ (evalDemand k s).freeIx = s.freeIx ∧ (evalDemand k s).pending = s.pending := by
  simp [evalDemand]

/-- An evaluation of the demand leaves every stand's state where it was (R125). -/
@[simp] theorem evalDemand_state (k j : Stand) (s : State) :
    ((evalDemand k s).seq j).state = (s.seq j).state ∧ ((evalDemand k s).seq j).frozen = (s.seq j).frozen ∧
    ((evalDemand k s).seq j).handover = (s.seq j).handover ∧ ((evalDemand k s).seq j).equalize = (s.seq j).equalize ∧
    ((evalDemand k s).seq j).localReq = (s.seq j).localReq := by
  by_cases h : j = k
  · subst h
    simp [evalDemand]
  · simp [evalDemand, modSeq_seq, h]

@[simp] theorem setStandState_keeps (k : Stand) (st : StandState) (s : State) :
    (setStandState k st s).hlk = s.hlk ∧ (setStandState k st s).flc = s.flc ∧ (setStandState k st s).mch = s.mch ∧
    (setStandState k st s).plu = s.plu ∧ (setStandState k st s).stk = s.stk ∧ (setStandState k st s).gce = s.gce ∧
    (setStandState k st s).tmx = s.tmx ∧ (setStandState k st s).sch = s.sch ∧ (setStandState k st s).ms = s.ms ∧
    (setStandState k st s).resets = s.resets ∧ (setStandState k st s).freeIx = s.freeIx ∧
    (setStandState k st s).pending = s.pending := by
  simp [setStandState]

/-- A stand that takes a state is in it, and no other stand's state changes. -/
theorem setStandState_state (k j : Stand) (st : StandState) (s : State) :
    ((setStandState k st s).seq j).state = if j = k then st else (s.seq j).state := by
  unfold setStandState
  rw [(evalDemand_state k j _).1, modSeq_seq]
  split <;> rfl

@[simp] theorem placeStand_keeps (k : Stand) (st : StandState) (s : State) :
    (placeStand k st s).hlk.tx = s.hlk.tx ∧ (placeStand k st s).hlk.slot = s.hlk.slot ∧
    (placeStand k st s).hlk.held = s.hlk.held ∧ (placeStand k st s).hlk.mask = s.hlk.mask ∧
    (placeStand k st s).hlk.rx = s.hlk.rx ∧ (placeStand k st s).hlk.straps = s.hlk.straps ∧
    (placeStand k st s).hlk.streams = s.hlk.streams ∧ (placeStand k st s).hlk.aux = s.hlk.aux ∧
    (placeStand k st s).flc = s.flc ∧ (placeStand k st s).mch = s.mch ∧ (placeStand k st s).plu = s.plu ∧
    (placeStand k st s).stk = s.stk ∧ (placeStand k st s).gce = s.gce ∧ (placeStand k st s).tmx = s.tmx ∧
    (placeStand k st s).sch = s.sch ∧ (placeStand k st s).ms = s.ms ∧ (placeStand k st s).resets = s.resets ∧
    (placeStand k st s).freeIx = s.freeIx ∧ (placeStand k st s).pending = s.pending := by
  simp [placeStand]

/-- The entry into TRIPPED changes the sequencer, the field line controller and the gap records alone (R122). -/
@[simp] theorem tripStand_keeps (k : Stand) (s : State) :
    (tripStand k s).hlk = s.hlk ∧ (tripStand k s).mch = s.mch ∧ (tripStand k s).plu = s.plu ∧
    (tripStand k s).stk = s.stk ∧ (tripStand k s).tmx = s.tmx ∧ (tripStand k s).sch = s.sch ∧
    (tripStand k s).ms = s.ms ∧ (tripStand k s).resets = s.resets ∧ (tripStand k s).freeIx = s.freeIx ∧
    (tripStand k s).pending = s.pending := by
  simp only [tripStand]
  split <;> split <;> simp

/-- The entry effects of TRIPPED move that stand alone (R122). -/
theorem tripStand_state (k j : Stand) (s : State) :
    ((tripStand k s).seq j).state = if j = k then .tripped else (s.seq j).state := by
  have base : ∀ t : State, t.ssq = (s.modSeq k fun q => { q with state := .tripped, equalize := none }).ssq →
      ((evalDemand k t).seq j).state = if j = k then .tripped else (s.seq j).state := by
    intro t ht
    rw [(evalDemand_state k j t).1]
    have e : t.seq j = (s.modSeq k fun q => { q with state := .tripped, equalize := none }).seq j := by
      simp only [State.seq, ht]
    rw [e, modSeq_seq]
    split <;> rfl
  simp only [tripStand]
  apply base
  split <;> split <;> simp

@[simp] theorem enterTripped_keeps (k : Stand) (s : State) :
    (enterTripped k s).hlk.tx = s.hlk.tx ∧ (enterTripped k s).hlk.slot = s.hlk.slot ∧
    (enterTripped k s).hlk.held = s.hlk.held ∧ (enterTripped k s).hlk.mask = s.hlk.mask ∧
    (enterTripped k s).hlk.rx = s.hlk.rx ∧ (enterTripped k s).hlk.straps = s.hlk.straps ∧
    (enterTripped k s).hlk.streams = s.hlk.streams ∧ (enterTripped k s).hlk.aux = s.hlk.aux ∧
    (enterTripped k s).mch = s.mch ∧ (enterTripped k s).plu = s.plu ∧ (enterTripped k s).stk = s.stk ∧
    (enterTripped k s).tmx = s.tmx ∧ (enterTripped k s).sch = s.sch ∧ (enterTripped k s).ms = s.ms ∧
    (enterTripped k s).resets = s.resets ∧ (enterTripped k s).freeIx = s.freeIx ∧
    (enterTripped k s).pending = s.pending := by
  simp [enterTripped]

@[simp] theorem enterState_keeps (k : Stand) (st : StandState) (s : State) :
    (enterState k st s).hlk = s.hlk ∧ (enterState k st s).mch = s.mch ∧ (enterState k st s).plu = s.plu ∧
    (enterState k st s).stk = s.stk ∧ (enterState k st s).tmx = s.tmx ∧ (enterState k st s).sch = s.sch ∧
    (enterState k st s).ms = s.ms ∧ (enterState k st s).resets = s.resets ∧ (enterState k st s).freeIx = s.freeIx ∧
    (enterState k st s).pending = s.pending := by
  unfold enterState
  split <;> simp

/-- A stand that enters a state is in it, and no other stand's state changes. -/
theorem enterState_state (k j : Stand) (st : StandState) (s : State) :
    ((enterState k st s).seq j).state = if j = k then st else (s.seq j).state := by
  unfold enterState
  split
  · rename_i h
    rw [tripStand_state, h]
  · exact setStandState_state k j st s

@[simp] theorem evalFrozen_keeps (k : Stand) (s : State) :
    (evalFrozen k s).hlk.tx = s.hlk.tx ∧ (evalFrozen k s).hlk.slot = s.hlk.slot ∧
    (evalFrozen k s).hlk.held = s.hlk.held ∧ (evalFrozen k s).hlk.mask = s.hlk.mask ∧
    (evalFrozen k s).hlk.rx = s.hlk.rx ∧ (evalFrozen k s).hlk.straps = s.hlk.straps ∧
    (evalFrozen k s).hlk.streams = s.hlk.streams ∧ (evalFrozen k s).hlk.aux = s.hlk.aux ∧
    (evalFrozen k s).flc = s.flc ∧ (evalFrozen k s).mch = s.mch ∧ (evalFrozen k s).plu = s.plu ∧
    (evalFrozen k s).stk = s.stk ∧ (evalFrozen k s).gce = s.gce ∧ (evalFrozen k s).tmx = s.tmx ∧
    (evalFrozen k s).sch = s.sch ∧ (evalFrozen k s).ms = s.ms ∧ (evalFrozen k s).resets = s.resets ∧
    (evalFrozen k s).freeIx = s.freeIx ∧ (evalFrozen k s).pending = s.pending := by
  unfold evalFrozen
  split <;> simp

/-- After its evaluation the frozen attribute follows the FREEZE cover, and the rest of the record is as before (R115). -/
theorem evalFrozen_seq (k : Stand) (s : State) :
    (evalFrozen k s).seq k = { s.seq k with frozen := s.freezeCover k } := by
  unfold evalFrozen
  split
  · rename_i h
    rw [← h]
  · have e : ∀ t : State, (standNotice k t).seq k = t.seq k := fun t => by simp [State.seq]
    rw [e]
    simp

@[simp] theorem leaveHandover_keeps (k : Stand) (st : StandState) (s : State) :
    (leaveHandover k st s).hlk = s.hlk ∧ (leaveHandover k st s).mch = s.mch ∧ (leaveHandover k st s).plu = s.plu ∧
    (leaveHandover k st s).stk = s.stk ∧ (leaveHandover k st s).tmx = s.tmx ∧ (leaveHandover k st s).sch = s.sch ∧
    (leaveHandover k st s).ms = s.ms ∧ (leaveHandover k st s).resets = s.resets ∧
    (leaveHandover k st s).freeIx = s.freeIx ∧ (leaveHandover k st s).pending = s.pending := by
  simp [leaveHandover]

/-- A stand whose handover ends is in the state it is sent to (R131). -/
theorem leaveHandover_state (k j : Stand) (st : StandState) (s : State) :
    ((leaveHandover k st s).seq j).state = if j = k then st else (s.seq j).state := by
  unfold leaveHandover
  rw [enterState_state, modSeq_seq]
  split <;> rfl

@[simp] theorem endHandover_keeps (k : Stand) (dir : Direction) (st : StandState) (result : HandoverResult) (s : State) :
    (endHandover k dir st result s).hlk.tx = s.hlk.tx ∧ (endHandover k dir st result s).hlk.slot = s.hlk.slot ∧
    (endHandover k dir st result s).hlk.held = s.hlk.held ∧ (endHandover k dir st result s).hlk.mask = s.hlk.mask ∧
    (endHandover k dir st result s).hlk.rx = s.hlk.rx ∧ (endHandover k dir st result s).hlk.straps = s.hlk.straps ∧
    (endHandover k dir st result s).hlk.streams = s.hlk.streams ∧
    (endHandover k dir st result s).hlk.aux = s.hlk.aux ∧ (endHandover k dir st result s).mch = s.mch ∧
    (endHandover k dir st result s).plu = s.plu ∧ (endHandover k dir st result s).stk = s.stk ∧
    (endHandover k dir st result s).tmx = s.tmx ∧ (endHandover k dir st result s).sch = s.sch ∧
    (endHandover k dir st result s).ms = s.ms ∧ (endHandover k dir st result s).resets = s.resets ∧
    (endHandover k dir st result s).freeIx = s.freeIx ∧ (endHandover k dir st result s).pending = s.pending := by
  simp [endHandover]

@[simp] theorem abortHandover_keeps (k : Stand) (s : State) :
    (abortHandover k s).hlk.tx = s.hlk.tx ∧ (abortHandover k s).hlk.slot = s.hlk.slot ∧
    (abortHandover k s).hlk.held = s.hlk.held ∧ (abortHandover k s).hlk.mask = s.hlk.mask ∧
    (abortHandover k s).hlk.rx = s.hlk.rx ∧ (abortHandover k s).hlk.straps = s.hlk.straps ∧
    (abortHandover k s).hlk.streams = s.hlk.streams ∧ (abortHandover k s).hlk.aux = s.hlk.aux ∧
    (abortHandover k s).mch = s.mch ∧ (abortHandover k s).plu = s.plu ∧ (abortHandover k s).stk = s.stk ∧
    (abortHandover k s).tmx = s.tmx ∧ (abortHandover k s).sch = s.sch ∧ (abortHandover k s).ms = s.ms ∧
    (abortHandover k s).resets = s.resets ∧ (abortHandover k s).freeIx = s.freeIx ∧
    (abortHandover k s).pending = s.pending := by
  unfold abortHandover
  split <;> simp

@[simp] theorem openCreationAt_keeps (k : Stand) (s : State) :
    (openCreationAt k s).hlk.tx = s.hlk.tx ∧ (openCreationAt k s).hlk.slot = s.hlk.slot ∧
    (openCreationAt k s).hlk.held = s.hlk.held ∧ (openCreationAt k s).hlk.mask = s.hlk.mask ∧
    (openCreationAt k s).hlk.rx = s.hlk.rx ∧ (openCreationAt k s).hlk.straps = s.hlk.straps ∧
    (openCreationAt k s).hlk.streams = s.hlk.streams ∧ (openCreationAt k s).hlk.aux = s.hlk.aux ∧
    (openCreationAt k s).mch = s.mch ∧ (openCreationAt k s).plu = s.plu ∧ (openCreationAt k s).stk = s.stk ∧
    (openCreationAt k s).tmx = s.tmx ∧ (openCreationAt k s).sch = s.sch ∧ (openCreationAt k s).ms = s.ms ∧
    (openCreationAt k s).resets = s.resets ∧ (openCreationAt k s).freeIx = s.freeIx ∧
    (openCreationAt k s).pending = s.pending := by
  unfold openCreationAt
  split <;> simp

@[simp] theorem windowTest_keeps (k : Stand) (s : State) :
    (windowTest k s).hlk.tx = s.hlk.tx ∧ (windowTest k s).hlk.slot = s.hlk.slot ∧
    (windowTest k s).hlk.held = s.hlk.held ∧ (windowTest k s).hlk.mask = s.hlk.mask ∧
    (windowTest k s).hlk.rx = s.hlk.rx ∧ (windowTest k s).hlk.straps = s.hlk.straps ∧
    (windowTest k s).hlk.streams = s.hlk.streams ∧ (windowTest k s).hlk.aux = s.hlk.aux ∧
    (windowTest k s).flc = s.flc ∧ (windowTest k s).mch = s.mch ∧ (windowTest k s).plu = s.plu ∧
    (windowTest k s).stk = s.stk ∧ (windowTest k s).gce = s.gce ∧ (windowTest k s).tmx = s.tmx ∧
    (windowTest k s).sch = s.sch ∧ (windowTest k s).ms = s.ms ∧ (windowTest k s).resets = s.resets ∧
    (windowTest k s).freeIx = s.freeIx ∧ (windowTest k s).pending = s.pending := by
  unfold windowTest
  split <;> simp

/-- What the window test can do (R120). -/
theorem windowTest_cases (k : Stand) (s : State) :
    ((s.seq k).state = .setup ∧ windowTestPasses k s = true ∧ windowTest k s = placeStand k .ready s) ∨
    (¬((s.seq k).state = .setup ∧ windowTestPasses k s = true) ∧ windowTest k s = s) := by
  unfold windowTest
  split
  · rename_i h
    exact Or.inl ⟨h.1, h.2, rfl⟩
  · rename_i h
    exact Or.inr ⟨h, rfl⟩

/-! ## The trip table -/

@[simp] theorem eachStand_evalDemand_keeps (s : State) :
    (eachStand evalDemand s).hlk = s.hlk ∧ (eachStand evalDemand s).flc = s.flc ∧
    (eachStand evalDemand s).mch = s.mch ∧ (eachStand evalDemand s).plu = s.plu ∧
    (eachStand evalDemand s).stk = s.stk ∧ (eachStand evalDemand s).gce = s.gce ∧
    (eachStand evalDemand s).tmx = s.tmx ∧ (eachStand evalDemand s).sch = s.sch ∧
    (eachStand evalDemand s).ms = s.ms ∧ (eachStand evalDemand s).resets = s.resets ∧
    (eachStand evalDemand s).freeIx = s.freeIx ∧ (eachStand evalDemand s).pending = s.pending := 
  ⟨eachStand_keeps (fun s => s.hlk) _ (by simp) s,
    eachStand_keeps (fun s => s.flc) _ (by simp) s,
    eachStand_keeps (fun s => s.mch) _ (by simp) s,
    eachStand_keeps (fun s => s.plu) _ (by simp) s,
    eachStand_keeps (fun s => s.stk) _ (by simp) s,
    eachStand_keeps (fun s => s.gce) _ (by simp) s,
    eachStand_keeps (fun s => s.tmx) _ (by simp) s,
    eachStand_keeps (fun s => s.sch) _ (by simp) s,
    eachStand_keeps (fun s => s.ms) _ (by simp) s,
    eachStand_keeps (fun s => s.resets) _ (by simp) s,
    eachStand_keeps (fun s => s.freeIx) _ (by simp) s,
    eachStand_keeps (fun s => s.pending) _ (by simp) s⟩

@[simp] theorem eachStand_evalFrozen_keeps (s : State) :
    (eachStand evalFrozen s).hlk.tx = s.hlk.tx ∧ (eachStand evalFrozen s).hlk.slot = s.hlk.slot ∧
    (eachStand evalFrozen s).hlk.held = s.hlk.held ∧ (eachStand evalFrozen s).hlk.mask = s.hlk.mask ∧
    (eachStand evalFrozen s).hlk.rx = s.hlk.rx ∧ (eachStand evalFrozen s).hlk.straps = s.hlk.straps ∧
    (eachStand evalFrozen s).hlk.streams = s.hlk.streams ∧ (eachStand evalFrozen s).hlk.aux = s.hlk.aux ∧
    (eachStand evalFrozen s).flc = s.flc ∧ (eachStand evalFrozen s).mch = s.mch ∧
    (eachStand evalFrozen s).plu = s.plu ∧ (eachStand evalFrozen s).stk = s.stk ∧
    (eachStand evalFrozen s).gce = s.gce ∧ (eachStand evalFrozen s).tmx = s.tmx ∧
    (eachStand evalFrozen s).sch = s.sch ∧ (eachStand evalFrozen s).ms = s.ms ∧
    (eachStand evalFrozen s).resets = s.resets ∧ (eachStand evalFrozen s).freeIx = s.freeIx ∧
    (eachStand evalFrozen s).pending = s.pending := 
  ⟨eachStand_keeps (fun s => s.hlk.tx) _ (by simp) s,
    eachStand_keeps (fun s => s.hlk.slot) _ (by simp) s,
    eachStand_keeps (fun s => s.hlk.held) _ (by simp) s,
    eachStand_keeps (fun s => s.hlk.mask) _ (by simp) s,
    eachStand_keeps (fun s => s.hlk.rx) _ (by simp) s,
    eachStand_keeps (fun s => s.hlk.straps) _ (by simp) s,
    eachStand_keeps (fun s => s.hlk.streams) _ (by simp) s,
    eachStand_keeps (fun s => s.hlk.aux) _ (by simp) s,
    eachStand_keeps (fun s => s.flc) _ (by simp) s,
    eachStand_keeps (fun s => s.mch) _ (by simp) s,
    eachStand_keeps (fun s => s.plu) _ (by simp) s,
    eachStand_keeps (fun s => s.stk) _ (by simp) s,
    eachStand_keeps (fun s => s.gce) _ (by simp) s,
    eachStand_keeps (fun s => s.tmx) _ (by simp) s,
    eachStand_keeps (fun s => s.sch) _ (by simp) s,
    eachStand_keeps (fun s => s.ms) _ (by simp) s,
    eachStand_keeps (fun s => s.resets) _ (by simp) s,
    eachStand_keeps (fun s => s.freeIx) _ (by simp) s,
    eachStand_keeps (fun s => s.pending) _ (by simp) s⟩

@[simp] theorem eachStand_standNotice_keeps (s : State) :
    (eachStand standNotice s).hlk.tx = s.hlk.tx ∧ (eachStand standNotice s).hlk.slot = s.hlk.slot ∧
    (eachStand standNotice s).hlk.held = s.hlk.held ∧ (eachStand standNotice s).hlk.mask = s.hlk.mask ∧
    (eachStand standNotice s).hlk.rx = s.hlk.rx ∧ (eachStand standNotice s).hlk.straps = s.hlk.straps ∧
    (eachStand standNotice s).hlk.streams = s.hlk.streams ∧ (eachStand standNotice s).hlk.aux = s.hlk.aux ∧
    (eachStand standNotice s).flc = s.flc ∧ (eachStand standNotice s).mch = s.mch ∧
    (eachStand standNotice s).plu = s.plu ∧ (eachStand standNotice s).stk = s.stk ∧
    (eachStand standNotice s).gce = s.gce ∧ (eachStand standNotice s).ssq = s.ssq ∧
    (eachStand standNotice s).tmx = s.tmx ∧ (eachStand standNotice s).sch = s.sch ∧
    (eachStand standNotice s).ms = s.ms ∧ (eachStand standNotice s).resets = s.resets ∧
    (eachStand standNotice s).freeIx = s.freeIx ∧ (eachStand standNotice s).pending = s.pending := 
  ⟨eachStand_keeps (fun s => s.hlk.tx) _ (by simp) s,
    eachStand_keeps (fun s => s.hlk.slot) _ (by simp) s,
    eachStand_keeps (fun s => s.hlk.held) _ (by simp) s,
    eachStand_keeps (fun s => s.hlk.mask) _ (by simp) s,
    eachStand_keeps (fun s => s.hlk.rx) _ (by simp) s,
    eachStand_keeps (fun s => s.hlk.straps) _ (by simp) s,
    eachStand_keeps (fun s => s.hlk.streams) _ (by simp) s,
    eachStand_keeps (fun s => s.hlk.aux) _ (by simp) s,
    eachStand_keeps (fun s => s.flc) _ (by simp) s,
    eachStand_keeps (fun s => s.mch) _ (by simp) s,
    eachStand_keeps (fun s => s.plu) _ (by simp) s,
    eachStand_keeps (fun s => s.stk) _ (by simp) s,
    eachStand_keeps (fun s => s.gce) _ (by simp) s,
    eachStand_keeps (fun s => s.ssq) _ (by simp) s,
    eachStand_keeps (fun s => s.tmx) _ (by simp) s,
    eachStand_keeps (fun s => s.sch) _ (by simp) s,
    eachStand_keeps (fun s => s.ms) _ (by simp) s,
    eachStand_keeps (fun s => s.resets) _ (by simp) s,
    eachStand_keeps (fun s => s.freeIx) _ (by simp) s,
    eachStand_keeps (fun s => s.pending) _ (by simp) s⟩

@[simp] theorem tripNotice_keeps (key : Key) (s : State) :
    (tripNotice key s).hlk.tx = s.hlk.tx ∧ (tripNotice key s).hlk.slot = s.hlk.slot ∧
    (tripNotice key s).hlk.held = s.hlk.held ∧ (tripNotice key s).hlk.mask = s.hlk.mask ∧
    (tripNotice key s).hlk.rx = s.hlk.rx ∧ (tripNotice key s).hlk.straps = s.hlk.straps ∧
    (tripNotice key s).hlk.streams = s.hlk.streams ∧ (tripNotice key s).hlk.aux = s.hlk.aux ∧
    (tripNotice key s).flc = s.flc ∧ (tripNotice key s).mch = s.mch ∧ (tripNotice key s).plu = s.plu ∧
    (tripNotice key s).stk = s.stk ∧ (tripNotice key s).gce = s.gce ∧ (tripNotice key s).ssq = s.ssq ∧
    (tripNotice key s).tmx = s.tmx ∧ (tripNotice key s).sch = s.sch ∧ (tripNotice key s).ms = s.ms ∧
    (tripNotice key s).resets = s.resets ∧ (tripNotice key s).freeIx = s.freeIx ∧
    (tripNotice key s).pending = s.pending := by
  unfold tripNotice
  split <;> simp

@[simp] theorem evalStopLine_keeps (s : State) :
    (evalStopLine s).hlk = s.hlk ∧ (evalStopLine s).flc = s.flc ∧ (evalStopLine s).mch = s.mch ∧
    (evalStopLine s).plu = s.plu ∧ (evalStopLine s).stk = s.stk ∧ (evalStopLine s).gce = s.gce ∧
    (evalStopLine s).ssq = s.ssq ∧ (evalStopLine s).sch = s.sch ∧ (evalStopLine s).ms = s.ms ∧
    (evalStopLine s).resets = s.resets ∧ (evalStopLine s).freeIx = s.freeIx ∧ (evalStopLine s).pending = s.pending := by
  simp [evalStopLine]

/-- The stop line follows the MILL_STOP records, and the table is as before (R162). -/
@[simp] theorem evalStopLine_line (s : State) :
    (evalStopLine s).tmx = { s.tmx with stopLine := s.millStopExists } := rfl

/-- A removal changes the trip matrix, the sequencer and the report queue alone (R157). -/
@[simp] theorem removeRecord_keeps (r : TripRecord) (s : State) :
    (removeRecord r s).hlk.tx = s.hlk.tx ∧ (removeRecord r s).hlk.slot = s.hlk.slot ∧
    (removeRecord r s).hlk.held = s.hlk.held ∧ (removeRecord r s).hlk.mask = s.hlk.mask ∧
    (removeRecord r s).hlk.rx = s.hlk.rx ∧ (removeRecord r s).hlk.straps = s.hlk.straps ∧
    (removeRecord r s).hlk.streams = s.hlk.streams ∧ (removeRecord r s).hlk.aux = s.hlk.aux ∧
    (removeRecord r s).flc = s.flc ∧ (removeRecord r s).mch = s.mch ∧ (removeRecord r s).plu = s.plu ∧
    (removeRecord r s).stk = s.stk ∧ (removeRecord r s).gce = s.gce ∧ (removeRecord r s).sch = s.sch ∧
    (removeRecord r s).ms = s.ms ∧ (removeRecord r s).resets = s.resets ∧ (removeRecord r s).freeIx = s.freeIx ∧
    (removeRecord r s).pending = s.pending := by
  simp [removeRecord]

@[simp] theorem goneKey_keeps (key : Key) (s : State) :
    (goneKey key s).hlk.tx = s.hlk.tx ∧ (goneKey key s).hlk.slot = s.hlk.slot ∧
    (goneKey key s).hlk.held = s.hlk.held ∧ (goneKey key s).hlk.mask = s.hlk.mask ∧
    (goneKey key s).hlk.rx = s.hlk.rx ∧ (goneKey key s).hlk.straps = s.hlk.straps ∧
    (goneKey key s).hlk.streams = s.hlk.streams ∧ (goneKey key s).hlk.aux = s.hlk.aux ∧
    (goneKey key s).flc = s.flc ∧ (goneKey key s).mch = s.mch ∧ (goneKey key s).plu = s.plu ∧
    (goneKey key s).stk = s.stk ∧ (goneKey key s).gce = s.gce ∧ (goneKey key s).sch = s.sch ∧
    (goneKey key s).ms = s.ms ∧ (goneKey key s).resets = s.resets ∧ (goneKey key s).freeIx = s.freeIx ∧
    (goneKey key s).pending = s.pending := by
  unfold goneKey
  split
  · split <;> simp
  · simp

/-- What the gone of a key can do (R155). -/
theorem goneKey_cases (key : Key) (s : State) :
    (s.recordOf key = none ∧ goneKey key s = s) ∨
    ∃ r, s.recordOf key = some r ∧
      ((r.state = .raised ∧
          goneKey key s = tripNotice key (s.modRecord key fun r => { r with state := .held })) ∨
        (r.state = .acked ∧ goneKey key s = removeRecord r s) ∨ r.state = .held ∧ goneKey key s = s) := by
  unfold goneKey
  cases h : s.recordOf key with
  | none => exact Or.inl ⟨rfl, rfl⟩
  | some r =>
    refine Or.inr ⟨r, rfl, ?_⟩
    cases hs : r.state <;> simp [hs]

@[simp] theorem clearCounters_keeps (s : State) :
    (clearCounters s).hlk = s.hlk ∧ (clearCounters s).flc = s.flc ∧ (clearCounters s).mch = s.mch ∧
    (clearCounters s).plu = s.plu ∧ (clearCounters s).stk = s.stk ∧ (clearCounters s).gce = s.gce ∧
    (clearCounters s).ssq = s.ssq ∧ (clearCounters s).sch = s.sch ∧ (clearCounters s).ms = s.ms ∧
    (clearCounters s).resets = s.resets ∧ (clearCounters s).freeIx = s.freeIx ∧
    (clearCounters s).pending = s.pending := by
  simp [clearCounters]

@[simp] theorem goneOutOfScope_keeps (key : Key) (s : State) :
    (goneOutOfScope key s).hlk.tx = s.hlk.tx ∧ (goneOutOfScope key s).hlk.slot = s.hlk.slot ∧
    (goneOutOfScope key s).hlk.held = s.hlk.held ∧ (goneOutOfScope key s).hlk.mask = s.hlk.mask ∧
    (goneOutOfScope key s).hlk.rx = s.hlk.rx ∧ (goneOutOfScope key s).hlk.straps = s.hlk.straps ∧
    (goneOutOfScope key s).hlk.streams = s.hlk.streams ∧ (goneOutOfScope key s).hlk.aux = s.hlk.aux ∧
    (goneOutOfScope key s).flc = s.flc ∧ (goneOutOfScope key s).mch = s.mch ∧ (goneOutOfScope key s).plu = s.plu ∧
    (goneOutOfScope key s).stk = s.stk ∧ (goneOutOfScope key s).gce = s.gce ∧ (goneOutOfScope key s).sch = s.sch ∧
    (goneOutOfScope key s).ms = s.ms ∧ (goneOutOfScope key s).resets = s.resets ∧
    (goneOutOfScope key s).freeIx = s.freeIx ∧ (goneOutOfScope key s).pending = s.pending := by
  unfold goneOutOfScope
  split <;> simp

/-- The evaluation of the scopes changes the trip matrix, the sequencer and the report queue alone (R139). -/
@[simp] theorem evalScopes_keeps (s : State) :
    (evalScopes s).hlk.tx = s.hlk.tx ∧ (evalScopes s).hlk.slot = s.hlk.slot ∧ (evalScopes s).hlk.held = s.hlk.held ∧
    (evalScopes s).hlk.mask = s.hlk.mask ∧ (evalScopes s).hlk.rx = s.hlk.rx ∧
    (evalScopes s).hlk.straps = s.hlk.straps ∧ (evalScopes s).hlk.streams = s.hlk.streams ∧
    (evalScopes s).hlk.aux = s.hlk.aux ∧ (evalScopes s).flc = s.flc ∧ (evalScopes s).mch = s.mch ∧
    (evalScopes s).plu = s.plu ∧ (evalScopes s).stk = s.stk ∧ (evalScopes s).gce = s.gce ∧
    (evalScopes s).sch = s.sch ∧ (evalScopes s).ms = s.ms ∧ (evalScopes s).resets = s.resets ∧
    (evalScopes s).freeIx = s.freeIx ∧ (evalScopes s).pending = s.pending :=
  ⟨foldl_keeps (fun s => s.hlk.tx) _ (by simp) _ _,
    foldl_keeps (fun s => s.hlk.slot) _ (by simp) _ _,
    foldl_keeps (fun s => s.hlk.held) _ (by simp) _ _,
    foldl_keeps (fun s => s.hlk.mask) _ (by simp) _ _,
    foldl_keeps (fun s => s.hlk.rx) _ (by simp) _ _,
    foldl_keeps (fun s => s.hlk.straps) _ (by simp) _ _,
    foldl_keeps (fun s => s.hlk.streams) _ (by simp) _ _,
    foldl_keeps (fun s => s.hlk.aux) _ (by simp) _ _,
    foldl_keeps (fun s => s.flc) _ (by simp) _ _,
    foldl_keeps (fun s => s.mch) _ (by simp) _ _,
    foldl_keeps (fun s => s.plu) _ (by simp) _ _,
    foldl_keeps (fun s => s.stk) _ (by simp) _ _,
    foldl_keeps (fun s => s.gce) _ (by simp) _ _,
    foldl_keeps (fun s => s.sch) _ (by simp) _ _,
    foldl_keeps (fun s => s.ms) _ (by simp) _ _,
    foldl_keeps (fun s => s.resets) _ (by simp) _ _,
    foldl_keeps (fun s => s.freeIx) _ (by simp) _ _,
    foldl_keeps (fun s => s.pending) _ (by simp) _ _⟩

/-- An evaluation of the scopes without a present key out of scope is that of the counters alone (R139, R141). -/
theorem evalScopes_of_present (s : State) (h : ∀ key, s.present key = true → scopeHolds (clearCounters s) key = true) :
    evalScopes s = clearCounters s := by
  have same : ∀ key, (clearCounters s).present key = s.present key := fun key => rfl
  have step : ∀ key, goneOutOfScope key (clearCounters s) = clearCounters s := by
    intro key
    unfold goneOutOfScope
    cases hp : s.present key with
    | false => simp [same, hp]
    | true => simp [h key hp]
  simp only [evalScopes]
  generalize ((clearCounters s).tmx.table.map fun r => r.key) = l
  induction l with
  | nil => rfl
  | cons key l ih => rw [List.foldl_cons, step, ih]

@[simp] theorem coveredStands_keeps (r : TripRecord) (s : State) :
    (eachStand (fun k s => if r.covers k then openCreationAt k s else s) s).hlk.tx = s.hlk.tx ∧
    (eachStand (fun k s => if r.covers k then openCreationAt k s else s) s).hlk.slot = s.hlk.slot ∧
    (eachStand (fun k s => if r.covers k then openCreationAt k s else s) s).hlk.held = s.hlk.held ∧
    (eachStand (fun k s => if r.covers k then openCreationAt k s else s) s).hlk.mask = s.hlk.mask ∧
    (eachStand (fun k s => if r.covers k then openCreationAt k s else s) s).hlk.rx = s.hlk.rx ∧
    (eachStand (fun k s => if r.covers k then openCreationAt k s else s) s).hlk.straps = s.hlk.straps ∧
    (eachStand (fun k s => if r.covers k then openCreationAt k s else s) s).hlk.streams = s.hlk.streams ∧
    (eachStand (fun k s => if r.covers k then openCreationAt k s else s) s).hlk.aux = s.hlk.aux ∧
    (eachStand (fun k s => if r.covers k then openCreationAt k s else s) s).mch = s.mch ∧
    (eachStand (fun k s => if r.covers k then openCreationAt k s else s) s).plu = s.plu ∧
    (eachStand (fun k s => if r.covers k then openCreationAt k s else s) s).stk = s.stk ∧
    (eachStand (fun k s => if r.covers k then openCreationAt k s else s) s).tmx = s.tmx ∧
    (eachStand (fun k s => if r.covers k then openCreationAt k s else s) s).sch = s.sch ∧
    (eachStand (fun k s => if r.covers k then openCreationAt k s else s) s).ms = s.ms ∧
    (eachStand (fun k s => if r.covers k then openCreationAt k s else s) s).resets = s.resets ∧
    (eachStand (fun k s => if r.covers k then openCreationAt k s else s) s).freeIx = s.freeIx ∧
    (eachStand (fun k s => if r.covers k then openCreationAt k s else s) s).pending = s.pending :=
  ⟨eachStand_keeps (fun s => s.hlk.tx) _ (by intro k s; split <;> simp) s,
    eachStand_keeps (fun s => s.hlk.slot) _ (by intro k s; split <;> simp) s,
    eachStand_keeps (fun s => s.hlk.held) _ (by intro k s; split <;> simp) s,
    eachStand_keeps (fun s => s.hlk.mask) _ (by intro k s; split <;> simp) s,
    eachStand_keeps (fun s => s.hlk.rx) _ (by intro k s; split <;> simp) s,
    eachStand_keeps (fun s => s.hlk.straps) _ (by intro k s; split <;> simp) s,
    eachStand_keeps (fun s => s.hlk.streams) _ (by intro k s; split <;> simp) s,
    eachStand_keeps (fun s => s.hlk.aux) _ (by intro k s; split <;> simp) s,
    eachStand_keeps (fun s => s.mch) _ (by intro k s; split <;> simp) s,
    eachStand_keeps (fun s => s.plu) _ (by intro k s; split <;> simp) s,
    eachStand_keeps (fun s => s.stk) _ (by intro k s; split <;> simp) s,
    eachStand_keeps (fun s => s.tmx) _ (by intro k s; split <;> simp) s,
    eachStand_keeps (fun s => s.sch) _ (by intro k s; split <;> simp) s,
    eachStand_keeps (fun s => s.ms) _ (by intro k s; split <;> simp) s,
    eachStand_keeps (fun s => s.resets) _ (by intro k s; split <;> simp) s,
    eachStand_keeps (fun s => s.freeIx) _ (by intro k s; split <;> simp) s,
    eachStand_keeps (fun s => s.pending) _ (by intro k s; split <;> simp) s⟩

/-- The hand-over of a creation changes the trip matrix, the sequencer, the field line controller, the gap records and the
report queue alone (R157). -/
@[simp] theorem handCreation_keeps (r : TripRecord) (s : State) :
    (handCreation r s).hlk.tx = s.hlk.tx ∧ (handCreation r s).hlk.slot = s.hlk.slot ∧
    (handCreation r s).hlk.held = s.hlk.held ∧ (handCreation r s).hlk.mask = s.hlk.mask ∧
    (handCreation r s).hlk.rx = s.hlk.rx ∧ (handCreation r s).hlk.straps = s.hlk.straps ∧
    (handCreation r s).hlk.streams = s.hlk.streams ∧ (handCreation r s).hlk.aux = s.hlk.aux ∧
    (handCreation r s).mch = s.mch ∧ (handCreation r s).plu = s.plu ∧ (handCreation r s).stk = s.stk ∧
    (handCreation r s).sch = s.sch ∧ (handCreation r s).ms = s.ms ∧ (handCreation r s).resets = s.resets ∧
    (handCreation r s).freeIx = s.freeIx ∧ (handCreation r s).pending = s.pending := by
  simp only [handCreation]
  split <;> simp


end Sys2Proof.Machine
end

