-- ==== Sys2Proof/Laws/Raise.lean ====
section
/-! SUPPORT. The bank swap, the mill-empty event, and raising a key: what each leaves alone, and what it can do. -/

namespace Sys2Proof.Machine

/-! ## The bank swap and the mill state -/

@[simp] theorem placeIfChanged_keeps (k : Stand) (st : StandState) (s : State) :
    (placeIfChanged k st s).hlk = s.hlk ∧ (placeIfChanged k st s).mch = s.mch ∧
    (placeIfChanged k st s).plu = s.plu ∧ (placeIfChanged k st s).stk = s.stk ∧
    (placeIfChanged k st s).tmx = s.tmx ∧ (placeIfChanged k st s).sch = s.sch ∧ (placeIfChanged k st s).ms = s.ms ∧
    (placeIfChanged k st s).resets = s.resets ∧ (placeIfChanged k st s).freeIx = s.freeIx ∧
    (placeIfChanged k st s).pending = s.pending := by
  unfold placeIfChanged
  split <;> simp

@[simp] theorem placeAtSwap_keeps (k : Stand) (s : State) :
    (placeAtSwap k s).hlk.tx = s.hlk.tx ∧ (placeAtSwap k s).hlk.slot = s.hlk.slot ∧
    (placeAtSwap k s).hlk.held = s.hlk.held ∧ (placeAtSwap k s).hlk.mask = s.hlk.mask ∧
    (placeAtSwap k s).hlk.rx = s.hlk.rx ∧ (placeAtSwap k s).hlk.straps = s.hlk.straps ∧
    (placeAtSwap k s).hlk.streams = s.hlk.streams ∧ (placeAtSwap k s).hlk.aux = s.hlk.aux ∧
    (placeAtSwap k s).mch = s.mch ∧ (placeAtSwap k s).plu = s.plu ∧ (placeAtSwap k s).stk = s.stk ∧
    (placeAtSwap k s).tmx = s.tmx ∧ (placeAtSwap k s).sch = s.sch ∧ (placeAtSwap k s).ms = s.ms ∧
    (placeAtSwap k s).resets = s.resets ∧ (placeAtSwap k s).freeIx = s.freeIx ∧
    (placeAtSwap k s).pending = s.pending := by
  unfold placeAtSwap
  split
  · simp
  · simp
  · simp
  · dsimp only
    split <;> simp

@[simp] theorem eachStand_placeAtSwap_keeps (s : State) :
    (eachStand placeAtSwap s).hlk.tx = s.hlk.tx ∧ (eachStand placeAtSwap s).hlk.slot = s.hlk.slot ∧
    (eachStand placeAtSwap s).hlk.held = s.hlk.held ∧ (eachStand placeAtSwap s).hlk.mask = s.hlk.mask ∧
    (eachStand placeAtSwap s).hlk.rx = s.hlk.rx ∧ (eachStand placeAtSwap s).hlk.straps = s.hlk.straps ∧
    (eachStand placeAtSwap s).hlk.streams = s.hlk.streams ∧ (eachStand placeAtSwap s).hlk.aux = s.hlk.aux ∧
    (eachStand placeAtSwap s).mch = s.mch ∧ (eachStand placeAtSwap s).plu = s.plu ∧
    (eachStand placeAtSwap s).stk = s.stk ∧ (eachStand placeAtSwap s).tmx = s.tmx ∧
    (eachStand placeAtSwap s).sch = s.sch ∧ (eachStand placeAtSwap s).ms = s.ms ∧
    (eachStand placeAtSwap s).resets = s.resets ∧ (eachStand placeAtSwap s).freeIx = s.freeIx ∧
    (eachStand placeAtSwap s).pending = s.pending := 
  ⟨eachStand_keeps (fun s => s.hlk.tx) _ (by simp) s,
    eachStand_keeps (fun s => s.hlk.slot) _ (by simp) s,
    eachStand_keeps (fun s => s.hlk.held) _ (by simp) s,
    eachStand_keeps (fun s => s.hlk.mask) _ (by simp) s,
    eachStand_keeps (fun s => s.hlk.rx) _ (by simp) s,
    eachStand_keeps (fun s => s.hlk.straps) _ (by simp) s,
    eachStand_keeps (fun s => s.hlk.streams) _ (by simp) s,
    eachStand_keeps (fun s => s.hlk.aux) _ (by simp) s,
    eachStand_keeps (fun s => s.mch) _ (by simp) s,
    eachStand_keeps (fun s => s.plu) _ (by simp) s,
    eachStand_keeps (fun s => s.stk) _ (by simp) s,
    eachStand_keeps (fun s => s.tmx) _ (by simp) s,
    eachStand_keeps (fun s => s.sch) _ (by simp) s,
    eachStand_keeps (fun s => s.ms) _ (by simp) s,
    eachStand_keeps (fun s => s.resets) _ (by simp) s,
    eachStand_keeps (fun s => s.freeIx) _ (by simp) s,
    eachStand_keeps (fun s => s.pending) _ (by simp) s⟩

/-- What a bank swap leaves alone (R15). -/
@[simp] theorem swapBank_keeps (s : State) :
    (swapBank s).sch.config = s.sch.config ∧ (swapBank s).stk.mill = s.stk.mill ∧
    (swapBank s).stk.coil = s.stk.coil ∧ (swapBank s).stk.allocated = s.stk.allocated ∧
    (swapBank s).stk.retired = s.stk.retired ∧ (swapBank s).stk.nextSeg = s.stk.nextSeg ∧
    (swapBank s).stk.lastAlloc = s.stk.lastAlloc ∧ (swapBank s).stk.bites = s.stk.bites ∧
    (swapBank s).stk.spans = s.stk.spans ∧ (swapBank s).stk.ring = s.stk.ring ∧
    (swapBank s).stk.tailMarks = s.stk.tailMarks ∧ (swapBank s).plu.settled = s.plu.settled ∧
    (swapBank s).plu.pins = s.plu.pins ∧ (swapBank s).plu.hmd = s.plu.hmd ∧ (swapBank s).plu.stop = s.plu.stop ∧
    (swapBank s).plu.panel = s.plu.panel ∧ (swapBank s).plu.pres = s.plu.pres ∧ (swapBank s).hlk.tx = s.hlk.tx ∧
    (swapBank s).hlk.slot = s.hlk.slot ∧ (swapBank s).hlk.held = s.hlk.held ∧ (swapBank s).hlk.mask = s.hlk.mask ∧
    (swapBank s).hlk.rx = s.hlk.rx ∧ (swapBank s).hlk.straps = s.hlk.straps ∧
    (swapBank s).hlk.streams = s.hlk.streams ∧ (swapBank s).hlk.aux = s.hlk.aux ∧ (swapBank s).mch = s.mch ∧
    (swapBank s).ms = s.ms ∧ (swapBank s).resets = s.resets ∧ (swapBank s).freeIx = s.freeIx ∧
    (swapBank s).pending = s.pending := by
  simp [swapBank]

/-- The active bank after a swap is the one that was pending, and the pending bank is EMPTY (R15). -/
@[simp] theorem swapBank_banks (s : State) :
    (swapBank s).sch.active =
      { state := .valid, bank := s.sch.pendingBank.bank, serial := s.sch.pendingBank.serial } ∧
    (swapBank s).sch.pendingBank = PendingBank.none ∧ (swapBank s).sch.counter = s.sch.counter ∧
    (swapBank s).stk.hold = 0 ∧ (swapBank s).plu.acc = Vector.replicate 8 0 := by
  simp [swapBank]

/-- A change of the mill state (R65). -/
@[simp] theorem setMill_keeps (m : MillState) (s : State) :
    (setMill m s).stk.coil = s.stk.coil ∧ (setMill m s).stk.allocated = s.stk.allocated ∧
    (setMill m s).stk.retired = s.stk.retired ∧ (setMill m s).stk.nextSeg = s.stk.nextSeg ∧
    (setMill m s).stk.lastAlloc = s.stk.lastAlloc ∧ (setMill m s).stk.bites = s.stk.bites ∧
    (setMill m s).stk.spans = s.stk.spans ∧ (setMill m s).stk.ring = s.stk.ring ∧
    (setMill m s).stk.tailMarks = s.stk.tailMarks ∧ (setMill m s).stk.hold = s.stk.hold ∧
    (setMill m s).hlk.tx = s.hlk.tx ∧ (setMill m s).hlk.slot = s.hlk.slot ∧ (setMill m s).hlk.held = s.hlk.held ∧
    (setMill m s).hlk.mask = s.hlk.mask ∧ (setMill m s).hlk.rx = s.hlk.rx ∧
    (setMill m s).hlk.straps = s.hlk.straps ∧ (setMill m s).hlk.streams = s.hlk.streams ∧
    (setMill m s).hlk.aux = s.hlk.aux ∧ (setMill m s).flc = s.flc ∧ (setMill m s).mch = s.mch ∧
    (setMill m s).plu = s.plu ∧ (setMill m s).gce = s.gce ∧ (setMill m s).sch = s.sch ∧ (setMill m s).ms = s.ms ∧
    (setMill m s).resets = s.resets ∧ (setMill m s).freeIx = s.freeIx ∧ (setMill m s).pending = s.pending := by
  simp [setMill]

/-- The mill is in the state it takes. -/
@[simp] theorem setMill_mill (m : MillState) (s : State) : (setMill m s).stk = { s.stk with mill := m } := by
  simp [setMill]

@[simp] theorem tailToSetup_keeps (k : Stand) (s : State) :
    (tailToSetup k s).hlk.tx = s.hlk.tx ∧ (tailToSetup k s).hlk.slot = s.hlk.slot ∧
    (tailToSetup k s).hlk.held = s.hlk.held ∧ (tailToSetup k s).hlk.mask = s.hlk.mask ∧
    (tailToSetup k s).hlk.rx = s.hlk.rx ∧ (tailToSetup k s).hlk.straps = s.hlk.straps ∧
    (tailToSetup k s).hlk.streams = s.hlk.streams ∧ (tailToSetup k s).hlk.aux = s.hlk.aux ∧
    (tailToSetup k s).flc = s.flc ∧ (tailToSetup k s).mch = s.mch ∧ (tailToSetup k s).plu = s.plu ∧
    (tailToSetup k s).stk = s.stk ∧ (tailToSetup k s).gce = s.gce ∧ (tailToSetup k s).tmx = s.tmx ∧
    (tailToSetup k s).sch = s.sch ∧ (tailToSetup k s).ms = s.ms ∧ (tailToSetup k s).resets = s.resets ∧
    (tailToSetup k s).freeIx = s.freeIx ∧ (tailToSetup k s).pending = s.pending := by
  unfold tailToSetup
  split <;> simp

@[simp] theorem eachStand_tailToSetup_keeps (s : State) :
    (eachStand tailToSetup s).hlk.tx = s.hlk.tx ∧ (eachStand tailToSetup s).hlk.slot = s.hlk.slot ∧
    (eachStand tailToSetup s).hlk.held = s.hlk.held ∧ (eachStand tailToSetup s).hlk.mask = s.hlk.mask ∧
    (eachStand tailToSetup s).hlk.rx = s.hlk.rx ∧ (eachStand tailToSetup s).hlk.straps = s.hlk.straps ∧
    (eachStand tailToSetup s).hlk.streams = s.hlk.streams ∧ (eachStand tailToSetup s).hlk.aux = s.hlk.aux ∧
    (eachStand tailToSetup s).flc = s.flc ∧ (eachStand tailToSetup s).mch = s.mch ∧
    (eachStand tailToSetup s).plu = s.plu ∧ (eachStand tailToSetup s).stk = s.stk ∧
    (eachStand tailToSetup s).gce = s.gce ∧ (eachStand tailToSetup s).tmx = s.tmx ∧
    (eachStand tailToSetup s).sch = s.sch ∧ (eachStand tailToSetup s).ms = s.ms ∧
    (eachStand tailToSetup s).resets = s.resets ∧ (eachStand tailToSetup s).freeIx = s.freeIx ∧
    (eachStand tailToSetup s).pending = s.pending := 
  ⟨eachStand_keeps (fun s => s.hlk.tx) _ (by simp) s,
    eachStand_keeps (fun s => s.hlk.slot) _ (by simp) s,
    eachStand_keeps (fun s => s.hlk.held) _ (by simp) s,
    eachStand_keeps (fun s => s.hlk.mask) _ (by simp) s,
    eachStand_keeps (fun s => s.hlk.rx) _ (by simp) s,
    eachStand_keeps (fun s => s.hlk.straps) _ (by simp) s,
    eachStand_keeps (fun s => s.hlk.streams) _ (by simp) s,
    eachStand_keeps (fun s => s.hlk.aux) _ (by simp) s,
    eachStand_keeps (fun s => s.flc) _ (by simp) s,
    eachStand_keeps (fun s => s.mch) _ (by simp) s,
    eachStand_keeps (fun s => s.plu) _ (by simp) s,
    eachStand_keeps (fun s => s.stk) _ (by simp) s,
    eachStand_keeps (fun s => s.gce) _ (by simp) s,
    eachStand_keeps (fun s => s.tmx) _ (by simp) s,
    eachStand_keeps (fun s => s.sch) _ (by simp) s,
    eachStand_keeps (fun s => s.ms) _ (by simp) s,
    eachStand_keeps (fun s => s.resets) _ (by simp) s,
    eachStand_keeps (fun s => s.freeIx) _ (by simp) s,
    eachStand_keeps (fun s => s.pending) _ (by simp) s⟩

/-- What a mill-empty event leaves alone (R80). -/
@[simp] theorem millEmpty_keeps (s : State) :
    (millEmpty s).sch.config = s.sch.config ∧ (millEmpty s).stk.coil = s.stk.coil ∧
    (millEmpty s).stk.allocated = s.stk.allocated ∧ (millEmpty s).stk.retired = s.stk.retired ∧
    (millEmpty s).stk.nextSeg = s.stk.nextSeg ∧ (millEmpty s).stk.lastAlloc = s.stk.lastAlloc ∧
    (millEmpty s).stk.bites = s.stk.bites ∧ (millEmpty s).stk.spans = s.stk.spans ∧
    (millEmpty s).stk.ring = s.stk.ring ∧ (millEmpty s).plu.settled = s.plu.settled ∧
    (millEmpty s).plu.pins = s.plu.pins ∧ (millEmpty s).plu.hmd = s.plu.hmd ∧ (millEmpty s).plu.stop = s.plu.stop ∧
    (millEmpty s).plu.panel = s.plu.panel ∧ (millEmpty s).plu.pres = s.plu.pres ∧ (millEmpty s).hlk.tx = s.hlk.tx ∧
    (millEmpty s).hlk.slot = s.hlk.slot ∧ (millEmpty s).hlk.held = s.hlk.held ∧
    (millEmpty s).hlk.mask = s.hlk.mask ∧ (millEmpty s).hlk.rx = s.hlk.rx ∧
    (millEmpty s).hlk.straps = s.hlk.straps ∧ (millEmpty s).hlk.streams = s.hlk.streams ∧
    (millEmpty s).hlk.aux = s.hlk.aux ∧ (millEmpty s).mch = s.mch ∧ (millEmpty s).ms = s.ms ∧
    (millEmpty s).resets = s.resets ∧ (millEmpty s).freeIx = s.freeIx ∧ (millEmpty s).pending = s.pending := by
  simp only [millEmpty]
  split <;> simp

@[simp] theorem millEmptyTest_keeps (s : State) :
    (millEmptyTest s).sch.config = s.sch.config ∧ (millEmptyTest s).stk.coil = s.stk.coil ∧
    (millEmptyTest s).stk.allocated = s.stk.allocated ∧ (millEmptyTest s).stk.retired = s.stk.retired ∧
    (millEmptyTest s).stk.nextSeg = s.stk.nextSeg ∧ (millEmptyTest s).stk.lastAlloc = s.stk.lastAlloc ∧
    (millEmptyTest s).stk.bites = s.stk.bites ∧ (millEmptyTest s).stk.spans = s.stk.spans ∧
    (millEmptyTest s).stk.ring = s.stk.ring ∧ (millEmptyTest s).plu.settled = s.plu.settled ∧
    (millEmptyTest s).plu.pins = s.plu.pins ∧ (millEmptyTest s).plu.hmd = s.plu.hmd ∧
    (millEmptyTest s).plu.stop = s.plu.stop ∧ (millEmptyTest s).plu.panel = s.plu.panel ∧
    (millEmptyTest s).plu.pres = s.plu.pres ∧ (millEmptyTest s).hlk.tx = s.hlk.tx ∧
    (millEmptyTest s).hlk.slot = s.hlk.slot ∧ (millEmptyTest s).hlk.held = s.hlk.held ∧
    (millEmptyTest s).hlk.mask = s.hlk.mask ∧ (millEmptyTest s).hlk.rx = s.hlk.rx ∧
    (millEmptyTest s).hlk.straps = s.hlk.straps ∧ (millEmptyTest s).hlk.streams = s.hlk.streams ∧
    (millEmptyTest s).hlk.aux = s.hlk.aux ∧ (millEmptyTest s).mch = s.mch ∧ (millEmptyTest s).ms = s.ms ∧
    (millEmptyTest s).resets = s.resets ∧ (millEmptyTest s).freeIx = s.freeIx ∧
    (millEmptyTest s).pending = s.pending := by
  unfold millEmptyTest
  split <;> simp

/-- A mill-empty event ends in a change of the mill state, the tail marks being clear (R80). -/
theorem millEmpty_eq (s : State) :
    ∃ v : State, millEmpty s =
      setMill (stateAfterEmpty (v.withStk { v.stk with tailMarks := Vector.replicate 8 false }))
        (v.withStk { v.stk with tailMarks := Vector.replicate 8 false }) := ⟨_, rfl⟩

theorem stateAfterEmpty_cases (s : State) : stateAfterEmpty s = .armed ∨ stateAfterEmpty s = .idle := by
  unfold stateAfterEmpty
  split
  · exact Or.inr rfl
  · exact Or.inl rfl

/-- The mill-empty event leaves the mill ARMED or IDLE, with the tail marks clear (R80). -/
theorem millEmpty_mill (s : State) :
    ((millEmpty s).stk.mill = .armed ∨ (millEmpty s).stk.mill = .idle) ∧
      (millEmpty s).stk.tailMarks = Vector.replicate 8 false := by
  obtain ⟨v, e⟩ := millEmpty_eq s
  rw [e, setMill_mill]
  exact ⟨stateAfterEmpty_cases _, by rw [withStk_stk]⟩

/-! ## Raising a key -/

/-- What the creation of a record leaves alone (R157). -/
@[simp] theorem createRecord_keeps (inTracker : Bool) (key : Key) (s : State) :
    (createRecord inTracker key s).sch.config = s.sch.config ∧
    (createRecord inTracker key s).stk.coil = s.stk.coil ∧
    (createRecord inTracker key s).stk.allocated = s.stk.allocated ∧
    (createRecord inTracker key s).stk.retired = s.stk.retired ∧
    (createRecord inTracker key s).stk.nextSeg = s.stk.nextSeg ∧
    (createRecord inTracker key s).stk.lastAlloc = s.stk.lastAlloc ∧
    (createRecord inTracker key s).stk.bites = s.stk.bites ∧
    (createRecord inTracker key s).stk.spans = s.stk.spans ∧ (createRecord inTracker key s).stk.ring = s.stk.ring ∧
    (createRecord inTracker key s).plu.settled = s.plu.settled ∧
    (createRecord inTracker key s).plu.pins = s.plu.pins ∧ (createRecord inTracker key s).plu.hmd = s.plu.hmd ∧
    (createRecord inTracker key s).plu.stop = s.plu.stop ∧ (createRecord inTracker key s).plu.panel = s.plu.panel ∧
    (createRecord inTracker key s).plu.pres = s.plu.pres ∧ (createRecord inTracker key s).hlk.tx = s.hlk.tx ∧
    (createRecord inTracker key s).hlk.slot = s.hlk.slot ∧ (createRecord inTracker key s).hlk.held = s.hlk.held ∧
    (createRecord inTracker key s).hlk.mask = s.hlk.mask ∧ (createRecord inTracker key s).hlk.rx = s.hlk.rx ∧
    (createRecord inTracker key s).hlk.straps = s.hlk.straps ∧
    (createRecord inTracker key s).hlk.streams = s.hlk.streams ∧
    (createRecord inTracker key s).hlk.aux = s.hlk.aux ∧ (createRecord inTracker key s).mch = s.mch ∧
    (createRecord inTracker key s).ms = s.ms ∧ (createRecord inTracker key s).resets = s.resets ∧
    (createRecord inTracker key s).freeIx = s.freeIx ∧ (createRecord inTracker key s).pending = s.pending := by
  simp only [createRecord]
  split <;> simp

@[simp] theorem raiseKey_keeps (inTracker : Bool) (key : Key) (s : State) :
    (raiseKey inTracker key s).sch.config = s.sch.config ∧ (raiseKey inTracker key s).stk.coil = s.stk.coil ∧
    (raiseKey inTracker key s).stk.allocated = s.stk.allocated ∧
    (raiseKey inTracker key s).stk.retired = s.stk.retired ∧
    (raiseKey inTracker key s).stk.nextSeg = s.stk.nextSeg ∧
    (raiseKey inTracker key s).stk.lastAlloc = s.stk.lastAlloc ∧
    (raiseKey inTracker key s).stk.bites = s.stk.bites ∧ (raiseKey inTracker key s).stk.spans = s.stk.spans ∧
    (raiseKey inTracker key s).stk.ring = s.stk.ring ∧ (raiseKey inTracker key s).plu.settled = s.plu.settled ∧
    (raiseKey inTracker key s).plu.pins = s.plu.pins ∧ (raiseKey inTracker key s).plu.hmd = s.plu.hmd ∧
    (raiseKey inTracker key s).plu.stop = s.plu.stop ∧ (raiseKey inTracker key s).plu.panel = s.plu.panel ∧
    (raiseKey inTracker key s).plu.pres = s.plu.pres ∧ (raiseKey inTracker key s).hlk.tx = s.hlk.tx ∧
    (raiseKey inTracker key s).hlk.slot = s.hlk.slot ∧ (raiseKey inTracker key s).hlk.held = s.hlk.held ∧
    (raiseKey inTracker key s).hlk.mask = s.hlk.mask ∧ (raiseKey inTracker key s).hlk.rx = s.hlk.rx ∧
    (raiseKey inTracker key s).hlk.straps = s.hlk.straps ∧ (raiseKey inTracker key s).hlk.streams = s.hlk.streams ∧
    (raiseKey inTracker key s).hlk.aux = s.hlk.aux ∧ (raiseKey inTracker key s).mch = s.mch ∧
    (raiseKey inTracker key s).ms = s.ms ∧ (raiseKey inTracker key s).resets = s.resets ∧
    (raiseKey inTracker key s).freeIx = s.freeIx ∧ (raiseKey inTracker key s).pending = s.pending := by
  unfold raiseKey
  split
  · simp
  · split <;> simp

/-- What a raise can do (R154). -/
theorem raiseKey_cases (inTracker : Bool) (key : Key) (s : State) :
    (s.recordOf key = none ∧ raiseKey inTracker key s = createRecord inTracker key s) ∨
    ∃ r, s.recordOf key = some r ∧
      ((r.state = .held ∧ raiseKey inTracker key s =
          tripNotice key (s.modRecord key fun r => { r with state := .raised, occ := satSucc 255 r.occ })) ∨
        r.state ≠ .held ∧ raiseKey inTracker key s = s) := by
  unfold raiseKey
  cases h : s.recordOf key with
  | none => exact Or.inl ⟨rfl, rfl⟩
  | some r =>
    refine Or.inr ⟨r, rfl, ?_⟩
    cases hs : r.state <;> simp [hs]

@[simp] theorem pulseKey_keeps (key : Key) (s : State) :
    (pulseKey key s).sch.config = s.sch.config ∧ (pulseKey key s).stk.coil = s.stk.coil ∧
    (pulseKey key s).stk.allocated = s.stk.allocated ∧ (pulseKey key s).stk.retired = s.stk.retired ∧
    (pulseKey key s).stk.nextSeg = s.stk.nextSeg ∧ (pulseKey key s).stk.lastAlloc = s.stk.lastAlloc ∧
    (pulseKey key s).stk.bites = s.stk.bites ∧ (pulseKey key s).stk.spans = s.stk.spans ∧
    (pulseKey key s).stk.ring = s.stk.ring ∧ (pulseKey key s).plu.settled = s.plu.settled ∧
    (pulseKey key s).plu.pins = s.plu.pins ∧ (pulseKey key s).plu.hmd = s.plu.hmd ∧
    (pulseKey key s).plu.stop = s.plu.stop ∧ (pulseKey key s).plu.panel = s.plu.panel ∧
    (pulseKey key s).plu.pres = s.plu.pres ∧ (pulseKey key s).hlk.tx = s.hlk.tx ∧
    (pulseKey key s).hlk.slot = s.hlk.slot ∧ (pulseKey key s).hlk.held = s.hlk.held ∧
    (pulseKey key s).hlk.mask = s.hlk.mask ∧ (pulseKey key s).hlk.rx = s.hlk.rx ∧
    (pulseKey key s).hlk.straps = s.hlk.straps ∧ (pulseKey key s).hlk.streams = s.hlk.streams ∧
    (pulseKey key s).hlk.aux = s.hlk.aux ∧ (pulseKey key s).mch = s.mch ∧ (pulseKey key s).ms = s.ms ∧
    (pulseKey key s).resets = s.resets ∧ (pulseKey key s).freeIx = s.freeIx ∧ (pulseKey key s).pending = s.pending := by
  simp [pulseKey]

@[simp] theorem levelKey_keeps (key : Key) (holds : Bool) (s : State) :
    (levelKey key holds s).sch.config = s.sch.config ∧ (levelKey key holds s).stk.coil = s.stk.coil ∧
    (levelKey key holds s).stk.allocated = s.stk.allocated ∧ (levelKey key holds s).stk.retired = s.stk.retired ∧
    (levelKey key holds s).stk.nextSeg = s.stk.nextSeg ∧ (levelKey key holds s).stk.lastAlloc = s.stk.lastAlloc ∧
    (levelKey key holds s).stk.bites = s.stk.bites ∧ (levelKey key holds s).stk.spans = s.stk.spans ∧
    (levelKey key holds s).stk.ring = s.stk.ring ∧ (levelKey key holds s).plu.settled = s.plu.settled ∧
    (levelKey key holds s).plu.pins = s.plu.pins ∧ (levelKey key holds s).plu.hmd = s.plu.hmd ∧
    (levelKey key holds s).plu.stop = s.plu.stop ∧ (levelKey key holds s).plu.panel = s.plu.panel ∧
    (levelKey key holds s).plu.pres = s.plu.pres ∧ (levelKey key holds s).hlk.tx = s.hlk.tx ∧
    (levelKey key holds s).hlk.slot = s.hlk.slot ∧ (levelKey key holds s).hlk.held = s.hlk.held ∧
    (levelKey key holds s).hlk.mask = s.hlk.mask ∧ (levelKey key holds s).hlk.rx = s.hlk.rx ∧
    (levelKey key holds s).hlk.straps = s.hlk.straps ∧ (levelKey key holds s).hlk.streams = s.hlk.streams ∧
    (levelKey key holds s).hlk.aux = s.hlk.aux ∧ (levelKey key holds s).mch = s.mch ∧
    (levelKey key holds s).ms = s.ms ∧ (levelKey key holds s).resets = s.resets ∧
    (levelKey key holds s).freeIx = s.freeIx ∧ (levelKey key holds s).pending = s.pending := by
  unfold levelKey
  split <;> simp


end Sys2Proof.Machine
end

