-- ==== Sys2Proof/Laws/Tracking.lean ====
section
/-! SUPPORT. The strip tracker's events: what each leaves alone, and what retirements leave. -/

namespace Sys2Proof.Machine

/-! ## Records -/

/-- The ring never holds more than its places (R64). -/
theorem enterRing_length (ring : List Segment) (g : Segment) (h : ring.length ≤ 32) :
    (enterRing ring g).length ≤ 32 := by
  unfold enterRing
  rw [List.length_append, List.length_singleton]
  have places : Config.ringPlaces = 32 := rfl
  split
  · omega
  · rw [List.length_drop]
    omega

/-- A retirement changes the ring, the retired count and the report queue alone (R64). -/
@[simp] theorem retire_keeps (g : Segment) (s : State) :
    (retire g s).stk.mill = s.stk.mill ∧ (retire g s).stk.coil = s.stk.coil ∧
    (retire g s).stk.allocated = s.stk.allocated ∧ (retire g s).stk.nextSeg = s.stk.nextSeg ∧
    (retire g s).stk.lastAlloc = s.stk.lastAlloc ∧ (retire g s).stk.bites = s.stk.bites ∧
    (retire g s).stk.spans = s.stk.spans ∧ (retire g s).stk.tailMarks = s.stk.tailMarks ∧
    (retire g s).stk.hold = s.stk.hold ∧ (retire g s).hlk.tx = s.hlk.tx ∧ (retire g s).hlk.slot = s.hlk.slot ∧
    (retire g s).hlk.held = s.hlk.held ∧ (retire g s).hlk.mask = s.hlk.mask ∧ (retire g s).hlk.rx = s.hlk.rx ∧
    (retire g s).hlk.straps = s.hlk.straps ∧ (retire g s).hlk.streams = s.hlk.streams ∧
    (retire g s).hlk.aux = s.hlk.aux ∧ (retire g s).flc = s.flc ∧ (retire g s).mch = s.mch ∧
    (retire g s).plu = s.plu ∧ (retire g s).gce = s.gce ∧ (retire g s).ssq = s.ssq ∧ (retire g s).tmx = s.tmx ∧
    (retire g s).sch = s.sch ∧ (retire g s).ms = s.ms ∧ (retire g s).resets = s.resets ∧
    (retire g s).freeIx = s.freeIx ∧ (retire g s).pending = s.pending := by
  simp [retire]

/-- An allocation changes one bite, the numbering and the allocated count alone (R70). -/
@[simp] theorem allocate_keeps (k : Stand) (s : State) :
    (allocate k s).stk.mill = s.stk.mill ∧ (allocate k s).stk.coil = s.stk.coil ∧
    (allocate k s).stk.retired = s.stk.retired ∧ (allocate k s).stk.spans = s.stk.spans ∧
    (allocate k s).stk.tailMarks = s.stk.tailMarks ∧ (allocate k s).stk.hold = s.stk.hold ∧
    (allocate k s).stk.ring = s.stk.ring ∧ (allocate k s).hlk = s.hlk ∧ (allocate k s).flc = s.flc ∧
    (allocate k s).mch = s.mch ∧ (allocate k s).plu = s.plu ∧ (allocate k s).gce = s.gce ∧
    (allocate k s).ssq = s.ssq ∧ (allocate k s).tmx = s.tmx ∧ (allocate k s).sch = s.sch ∧
    (allocate k s).ms = s.ms ∧ (allocate k s).resets = s.resets ∧ (allocate k s).freeIx = s.freeIx ∧
    (allocate k s).pending = s.pending := by
  simp [allocate]

@[simp] theorem stepIntegrators_keeps (eX : Int) (km : Nat) (s : State) :
    (stepIntegrators eX km s).hlk = s.hlk ∧ (stepIntegrators eX km s).flc = s.flc ∧
    (stepIntegrators eX km s).mch = s.mch ∧ (stepIntegrators eX km s).plu = s.plu ∧
    (stepIntegrators eX km s).stk = s.stk ∧ (stepIntegrators eX km s).ssq = s.ssq ∧
    (stepIntegrators eX km s).tmx = s.tmx ∧ (stepIntegrators eX km s).sch = s.sch ∧
    (stepIntegrators eX km s).ms = s.ms ∧ (stepIntegrators eX km s).resets = s.resets ∧
    (stepIntegrators eX km s).freeIx = s.freeIx ∧ (stepIntegrators eX km s).pending = s.pending := by
  simp [stepIntegrators]

/-- An offer to the monitor changes the integrators and the hold count alone (R78, R108). -/
@[simp] theorem offerMonitor_keeps (meas : Option Nat) (s : State) :
    (offerMonitor meas s).stk.mill = s.stk.mill ∧ (offerMonitor meas s).stk.coil = s.stk.coil ∧
    (offerMonitor meas s).stk.allocated = s.stk.allocated ∧ (offerMonitor meas s).stk.retired = s.stk.retired ∧
    (offerMonitor meas s).stk.nextSeg = s.stk.nextSeg ∧ (offerMonitor meas s).stk.lastAlloc = s.stk.lastAlloc ∧
    (offerMonitor meas s).stk.bites = s.stk.bites ∧ (offerMonitor meas s).stk.spans = s.stk.spans ∧
    (offerMonitor meas s).stk.ring = s.stk.ring ∧ (offerMonitor meas s).stk.tailMarks = s.stk.tailMarks ∧
    (offerMonitor meas s).hlk = s.hlk ∧ (offerMonitor meas s).flc = s.flc ∧ (offerMonitor meas s).mch = s.mch ∧
    (offerMonitor meas s).plu = s.plu ∧ (offerMonitor meas s).ssq = s.ssq ∧ (offerMonitor meas s).tmx = s.tmx ∧
    (offerMonitor meas s).sch = s.sch ∧ (offerMonitor meas s).ms = s.ms ∧ (offerMonitor meas s).resets = s.resets ∧
    (offerMonitor meas s).freeIx = s.freeIx ∧ (offerMonitor meas s).pending = s.pending := by
  unfold offerMonitor
  split
  · split
    · dsimp only
      split <;> simp
    · simp
  · simp

@[simp] theorem takeExitStale_keeps (fresh : Bool) (s : State) :
    (takeExitStale fresh s).sch.config = s.sch.config ∧ (takeExitStale fresh s).plu.settled = s.plu.settled ∧
    (takeExitStale fresh s).plu.pins = s.plu.pins ∧ (takeExitStale fresh s).plu.hmd = s.plu.hmd ∧
    (takeExitStale fresh s).plu.stop = s.plu.stop ∧ (takeExitStale fresh s).plu.panel = s.plu.panel ∧
    (takeExitStale fresh s).plu.pres = s.plu.pres ∧ (takeExitStale fresh s).hlk.tx = s.hlk.tx ∧
    (takeExitStale fresh s).hlk.slot = s.hlk.slot ∧ (takeExitStale fresh s).hlk.held = s.hlk.held ∧
    (takeExitStale fresh s).hlk.mask = s.hlk.mask ∧ (takeExitStale fresh s).hlk.rx = s.hlk.rx ∧
    (takeExitStale fresh s).hlk.straps = s.hlk.straps ∧ (takeExitStale fresh s).hlk.streams = s.hlk.streams ∧
    (takeExitStale fresh s).hlk.aux = s.hlk.aux ∧ (takeExitStale fresh s).mch = s.mch ∧
    (takeExitStale fresh s).ms = s.ms ∧ (takeExitStale fresh s).resets = s.resets ∧
    (takeExitStale fresh s).freeIx = s.freeIx ∧ (takeExitStale fresh s).pending = s.pending := by
  unfold takeExitStale
  split
  · simp
  · split <;> simp

@[simp] theorem arrive_keeps (g : Segment) (s : State) :
    (arrive g s).sch.config = s.sch.config ∧ (arrive g s).plu.settled = s.plu.settled ∧
    (arrive g s).plu.pins = s.plu.pins ∧ (arrive g s).plu.hmd = s.plu.hmd ∧ (arrive g s).plu.stop = s.plu.stop ∧
    (arrive g s).plu.panel = s.plu.panel ∧ (arrive g s).plu.pres = s.plu.pres ∧ (arrive g s).hlk.tx = s.hlk.tx ∧
    (arrive g s).hlk.slot = s.hlk.slot ∧ (arrive g s).hlk.held = s.hlk.held ∧ (arrive g s).hlk.mask = s.hlk.mask ∧
    (arrive g s).hlk.rx = s.hlk.rx ∧ (arrive g s).hlk.straps = s.hlk.straps ∧
    (arrive g s).hlk.streams = s.hlk.streams ∧ (arrive g s).hlk.aux = s.hlk.aux ∧ (arrive g s).mch = s.mch ∧
    (arrive g s).ms = s.ms ∧ (arrive g s).resets = s.resets ∧ (arrive g s).freeIx = s.freeIx ∧
    (arrive g s).pending = s.pending := by
  simp [arrive]

@[simp] theorem popExit_keeps (s : State) :
    (popExit s).sch.config = s.sch.config ∧ (popExit s).plu.settled = s.plu.settled ∧
    (popExit s).plu.pins = s.plu.pins ∧ (popExit s).plu.hmd = s.plu.hmd ∧ (popExit s).plu.stop = s.plu.stop ∧
    (popExit s).plu.panel = s.plu.panel ∧ (popExit s).plu.pres = s.plu.pres ∧ (popExit s).hlk.tx = s.hlk.tx ∧
    (popExit s).hlk.slot = s.hlk.slot ∧ (popExit s).hlk.held = s.hlk.held ∧ (popExit s).hlk.mask = s.hlk.mask ∧
    (popExit s).hlk.rx = s.hlk.rx ∧ (popExit s).hlk.straps = s.hlk.straps ∧
    (popExit s).hlk.streams = s.hlk.streams ∧ (popExit s).hlk.aux = s.hlk.aux ∧ (popExit s).mch = s.mch ∧
    (popExit s).ms = s.ms ∧ (popExit s).resets = s.resets ∧ (popExit s).freeIx = s.freeIx ∧
    (popExit s).pending = s.pending := by
  unfold popExit
  split <;> simp

@[simp] theorem pushSpan_keeps (j : SpanId) (g : Segment) (s : State) :
    (pushSpan j g s).stk.mill = s.stk.mill ∧ (pushSpan j g s).stk.coil = s.stk.coil ∧
    (pushSpan j g s).stk.allocated = s.stk.allocated ∧ (pushSpan j g s).stk.nextSeg = s.stk.nextSeg ∧
    (pushSpan j g s).stk.lastAlloc = s.stk.lastAlloc ∧ (pushSpan j g s).stk.bites = s.stk.bites ∧
    (pushSpan j g s).stk.tailMarks = s.stk.tailMarks ∧ (pushSpan j g s).stk.hold = s.stk.hold ∧
    (pushSpan j g s).hlk.tx = s.hlk.tx ∧ (pushSpan j g s).hlk.slot = s.hlk.slot ∧
    (pushSpan j g s).hlk.held = s.hlk.held ∧ (pushSpan j g s).hlk.mask = s.hlk.mask ∧
    (pushSpan j g s).hlk.rx = s.hlk.rx ∧ (pushSpan j g s).hlk.straps = s.hlk.straps ∧
    (pushSpan j g s).hlk.streams = s.hlk.streams ∧ (pushSpan j g s).hlk.aux = s.hlk.aux ∧
    (pushSpan j g s).flc = s.flc ∧ (pushSpan j g s).mch = s.mch ∧ (pushSpan j g s).plu = s.plu ∧
    (pushSpan j g s).gce = s.gce ∧ (pushSpan j g s).ssq = s.ssq ∧ (pushSpan j g s).tmx = s.tmx ∧
    (pushSpan j g s).sch = s.sch ∧ (pushSpan j g s).ms = s.ms ∧ (pushSpan j g s).resets = s.resets ∧
    (pushSpan j g s).freeIx = s.freeIx ∧ (pushSpan j g s).pending = s.pending := by
  unfold pushSpan
  dsimp only
  split
  · split <;> simp [State.setSpan]
  · simp [State.setSpan]

@[simp] theorem pushOut_keeps (k : Stand) (g : Segment) (s : State) :
    (pushOut k g s).sch.config = s.sch.config ∧ (pushOut k g s).plu.settled = s.plu.settled ∧
    (pushOut k g s).plu.pins = s.plu.pins ∧ (pushOut k g s).plu.hmd = s.plu.hmd ∧
    (pushOut k g s).plu.stop = s.plu.stop ∧ (pushOut k g s).plu.panel = s.plu.panel ∧
    (pushOut k g s).plu.pres = s.plu.pres ∧ (pushOut k g s).hlk.tx = s.hlk.tx ∧
    (pushOut k g s).hlk.slot = s.hlk.slot ∧ (pushOut k g s).hlk.held = s.hlk.held ∧
    (pushOut k g s).hlk.mask = s.hlk.mask ∧ (pushOut k g s).hlk.rx = s.hlk.rx ∧
    (pushOut k g s).hlk.straps = s.hlk.straps ∧ (pushOut k g s).hlk.streams = s.hlk.streams ∧
    (pushOut k g s).hlk.aux = s.hlk.aux ∧ (pushOut k g s).mch = s.mch ∧ (pushOut k g s).ms = s.ms ∧
    (pushOut k g s).resets = s.resets ∧ (pushOut k g s).freeIx = s.freeIx ∧ (pushOut k g s).pending = s.pending := by
  unfold pushOut
  split
  · split <;> simp
  · dsimp only
    split <;> simp

@[simp] theorem pushBite_keeps (k : Stand) (s : State) :
    (pushBite k s).sch.config = s.sch.config ∧ (pushBite k s).plu.settled = s.plu.settled ∧
    (pushBite k s).plu.pins = s.plu.pins ∧ (pushBite k s).plu.hmd = s.plu.hmd ∧
    (pushBite k s).plu.stop = s.plu.stop ∧ (pushBite k s).plu.panel = s.plu.panel ∧
    (pushBite k s).plu.pres = s.plu.pres ∧ (pushBite k s).hlk.tx = s.hlk.tx ∧ (pushBite k s).hlk.slot = s.hlk.slot ∧
    (pushBite k s).hlk.held = s.hlk.held ∧ (pushBite k s).hlk.mask = s.hlk.mask ∧ (pushBite k s).hlk.rx = s.hlk.rx ∧
    (pushBite k s).hlk.straps = s.hlk.straps ∧ (pushBite k s).hlk.streams = s.hlk.streams ∧
    (pushBite k s).hlk.aux = s.hlk.aux ∧ (pushBite k s).mch = s.mch ∧ (pushBite k s).ms = s.ms ∧
    (pushBite k s).resets = s.resets ∧ (pushBite k s).freeIx = s.freeIx ∧ (pushBite k s).pending = s.pending := by
  unfold pushBite
  split <;> simp

@[simp] theorem takeIntoBite_keeps (k : Stand) (s : State) :
    (takeIntoBite k s).hlk = s.hlk ∧ (takeIntoBite k s).flc = s.flc ∧ (takeIntoBite k s).mch = s.mch ∧
    (takeIntoBite k s).plu = s.plu ∧ (takeIntoBite k s).gce = s.gce ∧ (takeIntoBite k s).ssq = s.ssq ∧
    (takeIntoBite k s).tmx = s.tmx ∧ (takeIntoBite k s).sch = s.sch ∧ (takeIntoBite k s).ms = s.ms ∧
    (takeIntoBite k s).resets = s.resets ∧ (takeIntoBite k s).freeIx = s.freeIx ∧
    (takeIntoBite k s).pending = s.pending := by
  unfold takeIntoBite
  split <;> simp

@[simp] theorem refill_keeps (k : Stand) (s : State) :
    (refill k s).hlk = s.hlk ∧ (refill k s).flc = s.flc ∧ (refill k s).mch = s.mch ∧ (refill k s).plu = s.plu ∧
    (refill k s).gce = s.gce ∧ (refill k s).ssq = s.ssq ∧ (refill k s).tmx = s.tmx ∧ (refill k s).sch = s.sch ∧
    (refill k s).ms = s.ms ∧ (refill k s).resets = s.resets ∧ (refill k s).freeIx = s.freeIx ∧
    (refill k s).pending = s.pending := by
  unfold refill
  split
  · split <;> simp
  · simp

/-! ## Events of the tracker -/

@[simp] theorem takeCount_keeps (key : Key) (beyond : Bool) (s : State) :
    (takeCount key beyond s).sch.config = s.sch.config ∧ (takeCount key beyond s).plu.settled = s.plu.settled ∧
    (takeCount key beyond s).plu.pins = s.plu.pins ∧ (takeCount key beyond s).plu.hmd = s.plu.hmd ∧
    (takeCount key beyond s).plu.stop = s.plu.stop ∧ (takeCount key beyond s).plu.panel = s.plu.panel ∧
    (takeCount key beyond s).plu.pres = s.plu.pres ∧ (takeCount key beyond s).hlk.tx = s.hlk.tx ∧
    (takeCount key beyond s).hlk.slot = s.hlk.slot ∧ (takeCount key beyond s).hlk.held = s.hlk.held ∧
    (takeCount key beyond s).hlk.mask = s.hlk.mask ∧ (takeCount key beyond s).hlk.rx = s.hlk.rx ∧
    (takeCount key beyond s).hlk.straps = s.hlk.straps ∧ (takeCount key beyond s).hlk.streams = s.hlk.streams ∧
    (takeCount key beyond s).hlk.aux = s.hlk.aux ∧ (takeCount key beyond s).mch = s.mch ∧
    (takeCount key beyond s).ms = s.ms ∧ (takeCount key beyond s).resets = s.resets ∧
    (takeCount key beyond s).freeIx = s.freeIx ∧ (takeCount key beyond s).pending = s.pending := by
  unfold takeCount
  split
  · split <;> simp
  · simp

@[simp] theorem handCount_keeps (k : Stand) (count : Nat) (s : State) :
    (handCount k count s).sch.config = s.sch.config ∧ (handCount k count s).plu.settled = s.plu.settled ∧
    (handCount k count s).plu.pins = s.plu.pins ∧ (handCount k count s).plu.hmd = s.plu.hmd ∧
    (handCount k count s).plu.stop = s.plu.stop ∧ (handCount k count s).plu.panel = s.plu.panel ∧
    (handCount k count s).plu.pres = s.plu.pres ∧ (handCount k count s).hlk.tx = s.hlk.tx ∧
    (handCount k count s).hlk.slot = s.hlk.slot ∧ (handCount k count s).hlk.held = s.hlk.held ∧
    (handCount k count s).hlk.mask = s.hlk.mask ∧ (handCount k count s).hlk.rx = s.hlk.rx ∧
    (handCount k count s).hlk.straps = s.hlk.straps ∧ (handCount k count s).hlk.streams = s.hlk.streams ∧
    (handCount k count s).hlk.aux = s.hlk.aux ∧ (handCount k count s).mch = s.mch ∧
    (handCount k count s).ms = s.ms ∧ (handCount k count s).resets = s.resets ∧
    (handCount k count s).freeIx = s.freeIx ∧ (handCount k count s).pending = s.pending := by
  unfold handCount
  split <;> simp

@[simp] theorem handCounts_keeps (before : State) (s : State) :
    (handCounts before s).sch.config = s.sch.config ∧ (handCounts before s).plu.settled = s.plu.settled ∧
    (handCounts before s).plu.pins = s.plu.pins ∧ (handCounts before s).plu.hmd = s.plu.hmd ∧
    (handCounts before s).plu.stop = s.plu.stop ∧ (handCounts before s).plu.panel = s.plu.panel ∧
    (handCounts before s).plu.pres = s.plu.pres ∧ (handCounts before s).hlk.tx = s.hlk.tx ∧
    (handCounts before s).hlk.slot = s.hlk.slot ∧ (handCounts before s).hlk.held = s.hlk.held ∧
    (handCounts before s).hlk.mask = s.hlk.mask ∧ (handCounts before s).hlk.rx = s.hlk.rx ∧
    (handCounts before s).hlk.straps = s.hlk.straps ∧ (handCounts before s).hlk.streams = s.hlk.streams ∧
    (handCounts before s).hlk.aux = s.hlk.aux ∧ (handCounts before s).mch = s.mch ∧
    (handCounts before s).ms = s.ms ∧ (handCounts before s).resets = s.resets ∧
    (handCounts before s).freeIx = s.freeIx ∧ (handCounts before s).pending = s.pending :=
  ⟨(foldl_keeps (fun s => s.sch.config) _ (by simp) _ _),
    (foldl_keeps (fun s => s.plu.settled) _ (by simp) _ _),
    (foldl_keeps (fun s => s.plu.pins) _ (by simp) _ _),
    (foldl_keeps (fun s => s.plu.hmd) _ (by simp) _ _),
    (foldl_keeps (fun s => s.plu.stop) _ (by simp) _ _),
    (foldl_keeps (fun s => s.plu.panel) _ (by simp) _ _),
    (foldl_keeps (fun s => s.plu.pres) _ (by simp) _ _),
    (foldl_keeps (fun s => s.hlk.tx) _ (by simp) _ _),
    (foldl_keeps (fun s => s.hlk.slot) _ (by simp) _ _),
    (foldl_keeps (fun s => s.hlk.held) _ (by simp) _ _),
    (foldl_keeps (fun s => s.hlk.mask) _ (by simp) _ _),
    (foldl_keeps (fun s => s.hlk.rx) _ (by simp) _ _),
    (foldl_keeps (fun s => s.hlk.straps) _ (by simp) _ _),
    (foldl_keeps (fun s => s.hlk.streams) _ (by simp) _ _),
    (foldl_keeps (fun s => s.hlk.aux) _ (by simp) _ _),
    (foldl_keeps (fun s => s.mch) _ (by simp) _ _),
    (foldl_keeps (fun s => s.ms) _ (by simp) _ _),
    (foldl_keeps (fun s => s.resets) _ (by simp) _ _),
    (foldl_keeps (fun s => s.freeIx) _ (by simp) _ _),
    (foldl_keeps (fun s => s.pending) _ (by simp) _ _)⟩

/-- The end of a tracker event (R63, R79). -/
@[simp] theorem endTracker_keeps (before : State) (s : State) :
    (endTracker before s).sch.config = s.sch.config ∧ (endTracker before s).plu.settled = s.plu.settled ∧
    (endTracker before s).plu.pins = s.plu.pins ∧ (endTracker before s).plu.hmd = s.plu.hmd ∧
    (endTracker before s).plu.stop = s.plu.stop ∧ (endTracker before s).plu.panel = s.plu.panel ∧
    (endTracker before s).plu.pres = s.plu.pres ∧ (endTracker before s).hlk.tx = s.hlk.tx ∧
    (endTracker before s).hlk.slot = s.hlk.slot ∧ (endTracker before s).hlk.held = s.hlk.held ∧
    (endTracker before s).hlk.mask = s.hlk.mask ∧ (endTracker before s).hlk.rx = s.hlk.rx ∧
    (endTracker before s).hlk.straps = s.hlk.straps ∧ (endTracker before s).hlk.streams = s.hlk.streams ∧
    (endTracker before s).hlk.aux = s.hlk.aux ∧ (endTracker before s).mch = s.mch ∧
    (endTracker before s).ms = s.ms ∧ (endTracker before s).resets = s.resets ∧
    (endTracker before s).freeIx = s.freeIx ∧ (endTracker before s).pending = s.pending := by
  simp [endTracker]

@[simp] theorem threadEntry_keeps (k : Stand) (s : State) :
    (threadEntry k s).sch.config = s.sch.config ∧ (threadEntry k s).plu.settled = s.plu.settled ∧
    (threadEntry k s).plu.pins = s.plu.pins ∧ (threadEntry k s).plu.hmd = s.plu.hmd ∧
    (threadEntry k s).plu.stop = s.plu.stop ∧ (threadEntry k s).plu.panel = s.plu.panel ∧
    (threadEntry k s).plu.pres = s.plu.pres ∧ (threadEntry k s).hlk.tx = s.hlk.tx ∧
    (threadEntry k s).hlk.slot = s.hlk.slot ∧ (threadEntry k s).hlk.held = s.hlk.held ∧
    (threadEntry k s).hlk.mask = s.hlk.mask ∧ (threadEntry k s).hlk.rx = s.hlk.rx ∧
    (threadEntry k s).hlk.straps = s.hlk.straps ∧ (threadEntry k s).hlk.streams = s.hlk.streams ∧
    (threadEntry k s).hlk.aux = s.hlk.aux ∧ (threadEntry k s).mch = s.mch ∧ (threadEntry k s).ms = s.ms ∧
    (threadEntry k s).resets = s.resets ∧ (threadEntry k s).freeIx = s.freeIx ∧
    (threadEntry k s).pending = s.pending := by
  simp only [threadEntry]
  split <;> simp

@[simp] theorem trackHead_keeps (k : Stand) (s : State) :
    (trackHead k s).sch.config = s.sch.config ∧ (trackHead k s).plu.settled = s.plu.settled ∧
    (trackHead k s).plu.pins = s.plu.pins ∧ (trackHead k s).plu.hmd = s.plu.hmd ∧
    (trackHead k s).plu.stop = s.plu.stop ∧ (trackHead k s).plu.panel = s.plu.panel ∧
    (trackHead k s).plu.pres = s.plu.pres ∧ (trackHead k s).hlk.tx = s.hlk.tx ∧
    (trackHead k s).hlk.slot = s.hlk.slot ∧ (trackHead k s).hlk.held = s.hlk.held ∧
    (trackHead k s).hlk.mask = s.hlk.mask ∧ (trackHead k s).hlk.rx = s.hlk.rx ∧
    (trackHead k s).hlk.straps = s.hlk.straps ∧ (trackHead k s).hlk.streams = s.hlk.streams ∧
    (trackHead k s).hlk.aux = s.hlk.aux ∧ (trackHead k s).mch = s.mch ∧ (trackHead k s).ms = s.ms ∧
    (trackHead k s).resets = s.resets ∧ (trackHead k s).freeIx = s.freeIx ∧ (trackHead k s).pending = s.pending := by
  unfold trackHead
  split <;> simp

@[simp] theorem trackAdvance_keeps (k : Stand) (s : State) :
    (trackAdvance k s).sch.config = s.sch.config ∧ (trackAdvance k s).plu.settled = s.plu.settled ∧
    (trackAdvance k s).plu.pins = s.plu.pins ∧ (trackAdvance k s).plu.hmd = s.plu.hmd ∧
    (trackAdvance k s).plu.stop = s.plu.stop ∧ (trackAdvance k s).plu.panel = s.plu.panel ∧
    (trackAdvance k s).plu.pres = s.plu.pres ∧ (trackAdvance k s).hlk.tx = s.hlk.tx ∧
    (trackAdvance k s).hlk.slot = s.hlk.slot ∧ (trackAdvance k s).hlk.held = s.hlk.held ∧
    (trackAdvance k s).hlk.mask = s.hlk.mask ∧ (trackAdvance k s).hlk.rx = s.hlk.rx ∧
    (trackAdvance k s).hlk.straps = s.hlk.straps ∧ (trackAdvance k s).hlk.streams = s.hlk.streams ∧
    (trackAdvance k s).hlk.aux = s.hlk.aux ∧ (trackAdvance k s).mch = s.mch ∧ (trackAdvance k s).ms = s.ms ∧
    (trackAdvance k s).resets = s.resets ∧ (trackAdvance k s).freeIx = s.freeIx ∧
    (trackAdvance k s).pending = s.pending := by
  unfold trackAdvance
  split
  · simp
  · split
    · simp
    · split <;> simp

/-- The ring keeps the last 32 of its records and the new one (R64). -/
theorem enterRing_eq (ring : List Segment) (g : Segment) (h : ring.length ≤ 32) :
    enterRing ring g = (ring ++ [g]).drop ((ring ++ [g]).length - 32) := by
  unfold enterRing Config.ringPlaces
  split
  · rw [List.length_append, List.length_singleton, show ring.length + 1 - 32 = 0 by omega, List.drop_zero]
  · have : ring.length = 32 := by omega
    rw [List.length_append, List.length_singleton, this, List.drop_append_of_le_length (by omega)]

/-- A retirement changes the ring and the count of the tracker alone (R61, R64). -/
theorem retire_stk (g : Segment) (s : State) (hr : s.stk.ring.length ≤ 32) (hn : s.stk.retired ≤ 65535) :
    (retire g s).stk = retireAll [g] s.stk := by
  simp [retire, retireAll, enterRing_eq _ _ hr, satSucc_eq _ _ hn]

theorem retireAll_nil (t : Tracker) (hr : t.ring.length ≤ 32) (hn : t.retired ≤ 65535) : retireAll [] t = t := by
  simp [retireAll, hn, show t.ring.length - 32 = 0 by omega]

/-- The retirements of a list are made one after another. -/
theorem retireAll_cons (g : Segment) (gs : List Segment) (t : Tracker) (hn : t.retired ≤ 65535) :
    retireAll (g :: gs) t = retireAll gs (retireAll [g] t) := by
  have e : ∀ a b : List Segment, ((a.drop (a.length - 32)) ++ b).drop (((a.drop (a.length - 32)) ++ b).length - 32) =
      (a ++ b).drop ((a ++ b).length - 32) := by
    intro a b
    have h : ((a.drop (a.length - 32)) ++ b) = (a ++ b).drop (a.length - 32) :=
      (List.drop_append_of_le_length (by omega)).symm
    rw [h, List.drop_drop, List.length_drop, List.length_append]
    congr 1
    omega
  have r := e (t.ring ++ [g]) gs
  simp only [List.append_assoc, List.cons_append, List.nil_append] at r
  simp only [retireAll, List.length_cons, List.length_nil]
  rw [Tracker.mk.injEq]
  refine ⟨rfl, rfl, rfl, ?_, rfl, rfl, rfl, rfl, ?_, rfl, rfl⟩
  · omega
  · exact r.symm

/-- A tail's discard empties the span and retires its records DISCARDED, oldest first (R75). -/
theorem discardSpan_stk (j : SpanId) (s : State) (hr : s.stk.ring.length ≤ 32) (hn : s.stk.retired ≤ 65535) :
    (discardSpan j s).stk = retireAll (givenUp (s.span j)) { s.stk with spans := vset s.stk.spans j [] } := by
  have each : ∀ (l : List Segment) (u : State), u.stk.ring.length ≤ 32 → u.stk.retired ≤ 65535 →
      (l.foldl (fun t g => retire g.asDiscarded t) u).stk = retireAll (givenUp l) u.stk := by
    intro l
    induction l with
    | nil => intro u hr hn; exact (retireAll_nil _ hr hn).symm
    | cons g l ih =>
      intro u hr hn
      have one := retire_stk g.asDiscarded u hr hn
      rw [List.foldl_cons, ih _ (by rw [one]; simp [retireAll]; omega) (by rw [one]; simp [retireAll]), one]
      exact (retireAll_cons _ _ _ hn).symm
  exact each _ _ hr hn

@[simp] theorem discardSpan_keeps (j : SpanId) (s : State) :
    (discardSpan j s).hlk.tx = s.hlk.tx ∧ (discardSpan j s).hlk.slot = s.hlk.slot ∧
    (discardSpan j s).hlk.held = s.hlk.held ∧ (discardSpan j s).hlk.mask = s.hlk.mask ∧
    (discardSpan j s).hlk.rx = s.hlk.rx ∧ (discardSpan j s).hlk.straps = s.hlk.straps ∧
    (discardSpan j s).hlk.streams = s.hlk.streams ∧ (discardSpan j s).hlk.aux = s.hlk.aux ∧
    (discardSpan j s).flc = s.flc ∧ (discardSpan j s).mch = s.mch ∧ (discardSpan j s).plu = s.plu ∧
    (discardSpan j s).gce = s.gce ∧ (discardSpan j s).ssq = s.ssq ∧ (discardSpan j s).tmx = s.tmx ∧
    (discardSpan j s).sch = s.sch ∧ (discardSpan j s).ms = s.ms ∧ (discardSpan j s).resets = s.resets ∧
    (discardSpan j s).freeIx = s.freeIx ∧ (discardSpan j s).pending = s.pending :=
  ⟨(foldl_keeps (fun s => s.hlk.tx) _ (by simp) _ _),
    (foldl_keeps (fun s => s.hlk.slot) _ (by simp) _ _),
    (foldl_keeps (fun s => s.hlk.held) _ (by simp) _ _),
    (foldl_keeps (fun s => s.hlk.mask) _ (by simp) _ _),
    (foldl_keeps (fun s => s.hlk.rx) _ (by simp) _ _),
    (foldl_keeps (fun s => s.hlk.straps) _ (by simp) _ _),
    (foldl_keeps (fun s => s.hlk.streams) _ (by simp) _ _),
    (foldl_keeps (fun s => s.hlk.aux) _ (by simp) _ _),
    (foldl_keeps (fun s => s.flc) _ (by simp) _ _),
    (foldl_keeps (fun s => s.mch) _ (by simp) _ _),
    (foldl_keeps (fun s => s.plu) _ (by simp) _ _),
    (foldl_keeps (fun s => s.gce) _ (by simp) _ _),
    (foldl_keeps (fun s => s.ssq) _ (by simp) _ _),
    (foldl_keeps (fun s => s.tmx) _ (by simp) _ _),
    (foldl_keeps (fun s => s.sch) _ (by simp) _ _),
    (foldl_keeps (fun s => s.ms) _ (by simp) _ _),
    (foldl_keeps (fun s => s.resets) _ (by simp) _ _),
    (foldl_keeps (fun s => s.freeIx) _ (by simp) _ _),
    (foldl_keeps (fun s => s.pending) _ (by simp) _ _)⟩

@[simp] theorem trackTail_keeps (k : Stand) (s : State) :
    (trackTail k s).sch.config = s.sch.config ∧ (trackTail k s).plu.settled = s.plu.settled ∧
    (trackTail k s).plu.pins = s.plu.pins ∧ (trackTail k s).plu.hmd = s.plu.hmd ∧
    (trackTail k s).plu.stop = s.plu.stop ∧ (trackTail k s).plu.panel = s.plu.panel ∧
    (trackTail k s).plu.pres = s.plu.pres ∧ (trackTail k s).hlk.tx = s.hlk.tx ∧
    (trackTail k s).hlk.slot = s.hlk.slot ∧ (trackTail k s).hlk.held = s.hlk.held ∧
    (trackTail k s).hlk.mask = s.hlk.mask ∧ (trackTail k s).hlk.rx = s.hlk.rx ∧
    (trackTail k s).hlk.straps = s.hlk.straps ∧ (trackTail k s).hlk.streams = s.hlk.streams ∧
    (trackTail k s).hlk.aux = s.hlk.aux ∧ (trackTail k s).mch = s.mch ∧ (trackTail k s).ms = s.ms ∧
    (trackTail k s).resets = s.resets ∧ (trackTail k s).freeIx = s.freeIx ∧ (trackTail k s).pending = s.pending := by
  simp only [trackTail]
  split
  · split <;> split <;> simp
  · simp

@[simp] theorem lockOn_keeps (k : Stand) (s : State) :
    (lockOn k s).hlk.tx = s.hlk.tx ∧ (lockOn k s).hlk.slot = s.hlk.slot ∧ (lockOn k s).hlk.held = s.hlk.held ∧
    (lockOn k s).hlk.mask = s.hlk.mask ∧ (lockOn k s).hlk.rx = s.hlk.rx ∧ (lockOn k s).hlk.straps = s.hlk.straps ∧
    (lockOn k s).hlk.streams = s.hlk.streams ∧ (lockOn k s).hlk.aux = s.hlk.aux ∧ (lockOn k s).flc = s.flc ∧
    (lockOn k s).mch = s.mch ∧ (lockOn k s).plu = s.plu ∧ (lockOn k s).stk = s.stk ∧ (lockOn k s).sch = s.sch ∧
    (lockOn k s).ms = s.ms ∧ (lockOn k s).resets = s.resets ∧ (lockOn k s).freeIx = s.freeIx ∧
    (lockOn k s).pending = s.pending := by
  unfold lockOn
  split <;> simp

@[simp] theorem countAdvance_keeps (k : Stand) (s : State) :
    (countAdvance k s).hlk.tx = s.hlk.tx ∧ (countAdvance k s).hlk.slot = s.hlk.slot ∧
    (countAdvance k s).hlk.held = s.hlk.held ∧ (countAdvance k s).hlk.mask = s.hlk.mask ∧
    (countAdvance k s).hlk.rx = s.hlk.rx ∧ (countAdvance k s).hlk.straps = s.hlk.straps ∧
    (countAdvance k s).hlk.streams = s.hlk.streams ∧ (countAdvance k s).hlk.aux = s.hlk.aux ∧
    (countAdvance k s).flc = s.flc ∧ (countAdvance k s).mch = s.mch ∧ (countAdvance k s).plu = s.plu ∧
    (countAdvance k s).stk = s.stk ∧ (countAdvance k s).sch = s.sch ∧ (countAdvance k s).ms = s.ms ∧
    (countAdvance k s).resets = s.resets ∧ (countAdvance k s).freeIx = s.freeIx ∧
    (countAdvance k s).pending = s.pending := by
  unfold countAdvance
  split
  · split
    · dsimp only
      split <;> simp
    · simp
  · simp

/-- A bite advance (R45). -/
@[simp] theorem biteAdvance_keeps (k : Stand) (s : State) :
    (biteAdvance k s).sch.config = s.sch.config ∧ (biteAdvance k s).plu.settled = s.plu.settled ∧
    (biteAdvance k s).plu.pins = s.plu.pins ∧ (biteAdvance k s).plu.hmd = s.plu.hmd ∧
    (biteAdvance k s).plu.stop = s.plu.stop ∧ (biteAdvance k s).plu.panel = s.plu.panel ∧
    (biteAdvance k s).plu.pres = s.plu.pres ∧ (biteAdvance k s).hlk.tx = s.hlk.tx ∧
    (biteAdvance k s).hlk.slot = s.hlk.slot ∧ (biteAdvance k s).hlk.held = s.hlk.held ∧
    (biteAdvance k s).hlk.mask = s.hlk.mask ∧ (biteAdvance k s).hlk.rx = s.hlk.rx ∧
    (biteAdvance k s).hlk.straps = s.hlk.straps ∧ (biteAdvance k s).hlk.streams = s.hlk.streams ∧
    (biteAdvance k s).hlk.aux = s.hlk.aux ∧ (biteAdvance k s).mch = s.mch ∧ (biteAdvance k s).ms = s.ms ∧
    (biteAdvance k s).resets = s.resets ∧ (biteAdvance k s).freeIx = s.freeIx ∧
    (biteAdvance k s).pending = s.pending := by
  simp [biteAdvance]

@[simp] theorem discardBite_keeps (k : Stand) (s : State) :
    (discardBite k s).hlk.tx = s.hlk.tx ∧ (discardBite k s).hlk.slot = s.hlk.slot ∧
    (discardBite k s).hlk.held = s.hlk.held ∧ (discardBite k s).hlk.mask = s.hlk.mask ∧
    (discardBite k s).hlk.rx = s.hlk.rx ∧ (discardBite k s).hlk.straps = s.hlk.straps ∧
    (discardBite k s).hlk.streams = s.hlk.streams ∧ (discardBite k s).hlk.aux = s.hlk.aux ∧
    (discardBite k s).flc = s.flc ∧ (discardBite k s).mch = s.mch ∧ (discardBite k s).plu = s.plu ∧
    (discardBite k s).gce = s.gce ∧ (discardBite k s).ssq = s.ssq ∧ (discardBite k s).tmx = s.tmx ∧
    (discardBite k s).sch = s.sch ∧ (discardBite k s).ms = s.ms ∧ (discardBite k s).resets = s.resets ∧
    (discardBite k s).freeIx = s.freeIx ∧ (discardBite k s).pending = s.pending := by
  unfold discardBite
  split <;> simp

@[simp] theorem eachStand_discardBite_keeps (s : State) :
    (eachStand discardBite s).hlk.tx = s.hlk.tx ∧ (eachStand discardBite s).hlk.slot = s.hlk.slot ∧
    (eachStand discardBite s).hlk.held = s.hlk.held ∧ (eachStand discardBite s).hlk.mask = s.hlk.mask ∧
    (eachStand discardBite s).hlk.rx = s.hlk.rx ∧ (eachStand discardBite s).hlk.straps = s.hlk.straps ∧
    (eachStand discardBite s).hlk.streams = s.hlk.streams ∧ (eachStand discardBite s).hlk.aux = s.hlk.aux ∧
    (eachStand discardBite s).flc = s.flc ∧ (eachStand discardBite s).mch = s.mch ∧
    (eachStand discardBite s).plu = s.plu ∧ (eachStand discardBite s).gce = s.gce ∧
    (eachStand discardBite s).ssq = s.ssq ∧ (eachStand discardBite s).tmx = s.tmx ∧
    (eachStand discardBite s).sch = s.sch ∧ (eachStand discardBite s).ms = s.ms ∧
    (eachStand discardBite s).resets = s.resets ∧ (eachStand discardBite s).freeIx = s.freeIx ∧
    (eachStand discardBite s).pending = s.pending := 
  ⟨eachStand_keeps (fun s => s.hlk.tx) _ (by simp) s,
    eachStand_keeps (fun s => s.hlk.slot) _ (by simp) s,
    eachStand_keeps (fun s => s.hlk.held) _ (by simp) s,
    eachStand_keeps (fun s => s.hlk.mask) _ (by simp) s,
    eachStand_keeps (fun s => s.hlk.rx) _ (by simp) s,
    eachStand_keeps (fun s => s.hlk.straps) _ (by simp) s,
    eachStand_keeps (fun s => s.hlk.streams) _ (by simp) s,
    eachStand_keeps (fun s => s.hlk.aux) _ (by simp) s,
    eachStand_keeps (fun s => s.flc) _ (by simp) s,
    eachStand_keeps (fun s => s.mch) _ (by simp) s,
    eachStand_keeps (fun s => s.plu) _ (by simp) s,
    eachStand_keeps (fun s => s.gce) _ (by simp) s,
    eachStand_keeps (fun s => s.ssq) _ (by simp) s,
    eachStand_keeps (fun s => s.tmx) _ (by simp) s,
    eachStand_keeps (fun s => s.sch) _ (by simp) s,
    eachStand_keeps (fun s => s.ms) _ (by simp) s,
    eachStand_keeps (fun s => s.resets) _ (by simp) s,
    eachStand_keeps (fun s => s.freeIx) _ (by simp) s,
    eachStand_keeps (fun s => s.pending) _ (by simp) s⟩


end Sys2Proof.Machine
end

