-- ==== Sys2Proof/Laws/Events.lean ====
section
/-! SUPPORT. The events of the inputs, the field line and the timers, and the end of an event on the host line: what each
leaves alone, and what it can do. -/

namespace Sys2Proof.Machine

/-! ## Inputs -/

@[simp] theorem startCoil_keeps (s : State) :
    (startCoil s).hlk.tx = s.hlk.tx ∧ (startCoil s).hlk.slot = s.hlk.slot ∧ (startCoil s).hlk.held = s.hlk.held ∧
    (startCoil s).hlk.mask = s.hlk.mask ∧ (startCoil s).hlk.rx = s.hlk.rx ∧
    (startCoil s).hlk.straps = s.hlk.straps ∧ (startCoil s).hlk.streams = s.hlk.streams ∧
    (startCoil s).hlk.aux = s.hlk.aux ∧ (startCoil s).flc = s.flc ∧ (startCoil s).mch = s.mch ∧
    (startCoil s).plu = s.plu ∧ (startCoil s).sch = s.sch ∧ (startCoil s).ms = s.ms ∧
    (startCoil s).resets = s.resets ∧ (startCoil s).freeIx = s.freeIx ∧ (startCoil s).pending = s.pending := by
  simp [startCoil]

@[simp] theorem staleAtThread_keeps (k : Stand) (s : State) :
    (staleAtThread k s).sch.config = s.sch.config ∧ (staleAtThread k s).plu.settled = s.plu.settled ∧
    (staleAtThread k s).plu.pins = s.plu.pins ∧ (staleAtThread k s).plu.hmd = s.plu.hmd ∧
    (staleAtThread k s).plu.stop = s.plu.stop ∧ (staleAtThread k s).plu.panel = s.plu.panel ∧
    (staleAtThread k s).plu.pres = s.plu.pres ∧ (staleAtThread k s).hlk.tx = s.hlk.tx ∧
    (staleAtThread k s).hlk.slot = s.hlk.slot ∧ (staleAtThread k s).hlk.held = s.hlk.held ∧
    (staleAtThread k s).hlk.mask = s.hlk.mask ∧ (staleAtThread k s).hlk.rx = s.hlk.rx ∧
    (staleAtThread k s).hlk.straps = s.hlk.straps ∧ (staleAtThread k s).hlk.streams = s.hlk.streams ∧
    (staleAtThread k s).hlk.aux = s.hlk.aux ∧ (staleAtThread k s).mch = s.mch ∧ (staleAtThread k s).ms = s.ms ∧
    (staleAtThread k s).resets = s.resets ∧ (staleAtThread k s).freeIx = s.freeIx ∧
    (staleAtThread k s).pending = s.pending := by
  unfold staleAtThread
  split <;> simp

@[simp] theorem threadStand_keeps (k : Stand) (s : State) :
    (threadStand k s).sch.config = s.sch.config ∧ (threadStand k s).plu.settled = s.plu.settled ∧
    (threadStand k s).plu.pins = s.plu.pins ∧ (threadStand k s).plu.hmd = s.plu.hmd ∧
    (threadStand k s).plu.stop = s.plu.stop ∧ (threadStand k s).plu.panel = s.plu.panel ∧
    (threadStand k s).plu.pres = s.plu.pres ∧ (threadStand k s).hlk.tx = s.hlk.tx ∧
    (threadStand k s).hlk.slot = s.hlk.slot ∧ (threadStand k s).hlk.held = s.hlk.held ∧
    (threadStand k s).hlk.mask = s.hlk.mask ∧ (threadStand k s).hlk.rx = s.hlk.rx ∧
    (threadStand k s).hlk.straps = s.hlk.straps ∧ (threadStand k s).hlk.streams = s.hlk.streams ∧
    (threadStand k s).hlk.aux = s.hlk.aux ∧ (threadStand k s).mch = s.mch ∧ (threadStand k s).ms = s.ms ∧
    (threadStand k s).resets = s.resets ∧ (threadStand k s).freeIx = s.freeIx ∧
    (threadStand k s).pending = s.pending := by
  simp only [threadStand]
  split <;> simp

@[simp] theorem sequenceHead_keeps (k : Stand) (s : State) :
    (sequenceHead k s).sch.config = s.sch.config ∧ (sequenceHead k s).plu.settled = s.plu.settled ∧
    (sequenceHead k s).plu.pins = s.plu.pins ∧ (sequenceHead k s).plu.hmd = s.plu.hmd ∧
    (sequenceHead k s).plu.stop = s.plu.stop ∧ (sequenceHead k s).plu.panel = s.plu.panel ∧
    (sequenceHead k s).plu.pres = s.plu.pres ∧ (sequenceHead k s).hlk.tx = s.hlk.tx ∧
    (sequenceHead k s).hlk.slot = s.hlk.slot ∧ (sequenceHead k s).hlk.held = s.hlk.held ∧
    (sequenceHead k s).hlk.mask = s.hlk.mask ∧ (sequenceHead k s).hlk.rx = s.hlk.rx ∧
    (sequenceHead k s).hlk.straps = s.hlk.straps ∧ (sequenceHead k s).hlk.streams = s.hlk.streams ∧
    (sequenceHead k s).hlk.aux = s.hlk.aux ∧ (sequenceHead k s).mch = s.mch ∧ (sequenceHead k s).ms = s.ms ∧
    (sequenceHead k s).resets = s.resets ∧ (sequenceHead k s).freeIx = s.freeIx ∧
    (sequenceHead k s).pending = s.pending := by
  unfold sequenceHead
  split
  · split <;> simp
  all_goals simp

@[simp] theorem seqHead_keeps (k : Stand) (s : State) :
    (seqHead k s).sch.config = s.sch.config ∧ (seqHead k s).plu.settled = s.plu.settled ∧
    (seqHead k s).plu.pins = s.plu.pins ∧ (seqHead k s).plu.hmd = s.plu.hmd ∧ (seqHead k s).plu.stop = s.plu.stop ∧
    (seqHead k s).plu.panel = s.plu.panel ∧ (seqHead k s).plu.pres = s.plu.pres ∧ (seqHead k s).hlk.tx = s.hlk.tx ∧
    (seqHead k s).hlk.slot = s.hlk.slot ∧ (seqHead k s).hlk.held = s.hlk.held ∧
    (seqHead k s).hlk.mask = s.hlk.mask ∧ (seqHead k s).hlk.rx = s.hlk.rx ∧
    (seqHead k s).hlk.straps = s.hlk.straps ∧ (seqHead k s).hlk.streams = s.hlk.streams ∧
    (seqHead k s).hlk.aux = s.hlk.aux ∧ (seqHead k s).mch = s.mch ∧ (seqHead k s).ms = s.ms ∧
    (seqHead k s).resets = s.resets ∧ (seqHead k s).freeIx = s.freeIx ∧ (seqHead k s).pending = s.pending := by
  unfold seqHead
  split <;> simp

@[simp] theorem hmdOn_keeps (k : Stand) (s : State) :
    (hmdOn k s).sch.config = s.sch.config ∧ (hmdOn k s).plu.settled = s.plu.settled ∧
    (hmdOn k s).plu.pins = s.plu.pins ∧ (hmdOn k s).plu.hmd = s.plu.hmd ∧ (hmdOn k s).plu.stop = s.plu.stop ∧
    (hmdOn k s).plu.panel = s.plu.panel ∧ (hmdOn k s).hlk.tx = s.hlk.tx ∧ (hmdOn k s).hlk.slot = s.hlk.slot ∧
    (hmdOn k s).hlk.held = s.hlk.held ∧ (hmdOn k s).hlk.mask = s.hlk.mask ∧ (hmdOn k s).hlk.rx = s.hlk.rx ∧
    (hmdOn k s).hlk.straps = s.hlk.straps ∧ (hmdOn k s).hlk.streams = s.hlk.streams ∧
    (hmdOn k s).hlk.aux = s.hlk.aux ∧ (hmdOn k s).mch = s.mch ∧ (hmdOn k s).ms = s.ms ∧
    (hmdOn k s).resets = s.resets ∧ (hmdOn k s).freeIx = s.freeIx ∧ (hmdOn k s).pending = s.pending := by
  unfold hmdOn
  split <;> simp

/-- HMD off changes the presence logic of its stand alone (R49). -/
theorem hmdOff_keeps (k : Stand) (s : State) :
    hmdOff k s = { s with plu := { s.plu with pres := (hmdOff k s).plu.pres } } := by
  unfold hmdOff
  split <;> rfl

@[simp] theorem seqTail_keeps (k : Stand) (s : State) :
    (seqTail k s).sch.config = s.sch.config ∧ (seqTail k s).plu.settled = s.plu.settled ∧
    (seqTail k s).plu.pins = s.plu.pins ∧ (seqTail k s).plu.hmd = s.plu.hmd ∧ (seqTail k s).plu.stop = s.plu.stop ∧
    (seqTail k s).plu.panel = s.plu.panel ∧ (seqTail k s).plu.pres = s.plu.pres ∧ (seqTail k s).hlk.tx = s.hlk.tx ∧
    (seqTail k s).hlk.slot = s.hlk.slot ∧ (seqTail k s).hlk.held = s.hlk.held ∧
    (seqTail k s).hlk.mask = s.hlk.mask ∧ (seqTail k s).hlk.rx = s.hlk.rx ∧
    (seqTail k s).hlk.straps = s.hlk.straps ∧ (seqTail k s).hlk.streams = s.hlk.streams ∧
    (seqTail k s).hlk.aux = s.hlk.aux ∧ (seqTail k s).mch = s.mch ∧ (seqTail k s).ms = s.ms ∧
    (seqTail k s).resets = s.resets ∧ (seqTail k s).freeIx = s.freeIx ∧ (seqTail k s).pending = s.pending := by
  unfold seqTail
  split
  · dsimp only
    split <;> simp
  · simp

@[simp] theorem tailConfirmed_keeps (k : Stand) (s : State) :
    (tailConfirmed k s).sch.config = s.sch.config ∧ (tailConfirmed k s).plu.settled = s.plu.settled ∧
    (tailConfirmed k s).plu.pins = s.plu.pins ∧ (tailConfirmed k s).plu.hmd = s.plu.hmd ∧
    (tailConfirmed k s).plu.stop = s.plu.stop ∧ (tailConfirmed k s).plu.panel = s.plu.panel ∧
    (tailConfirmed k s).hlk.tx = s.hlk.tx ∧ (tailConfirmed k s).hlk.slot = s.hlk.slot ∧
    (tailConfirmed k s).hlk.held = s.hlk.held ∧ (tailConfirmed k s).hlk.mask = s.hlk.mask ∧
    (tailConfirmed k s).hlk.rx = s.hlk.rx ∧ (tailConfirmed k s).hlk.straps = s.hlk.straps ∧
    (tailConfirmed k s).hlk.streams = s.hlk.streams ∧ (tailConfirmed k s).hlk.aux = s.hlk.aux ∧
    (tailConfirmed k s).mch = s.mch ∧ (tailConfirmed k s).ms = s.ms ∧ (tailConfirmed k s).resets = s.resets ∧
    (tailConfirmed k s).freeIx = s.freeIx ∧ (tailConfirmed k s).pending = s.pending := by
  simp [tailConfirmed]

@[simp] theorem completeToCoord_keeps (k : Stand) (s : State) :
    (completeToCoord k s).hlk.tx = s.hlk.tx ∧ (completeToCoord k s).hlk.slot = s.hlk.slot ∧
    (completeToCoord k s).hlk.held = s.hlk.held ∧ (completeToCoord k s).hlk.mask = s.hlk.mask ∧
    (completeToCoord k s).hlk.rx = s.hlk.rx ∧ (completeToCoord k s).hlk.straps = s.hlk.straps ∧
    (completeToCoord k s).hlk.streams = s.hlk.streams ∧ (completeToCoord k s).hlk.aux = s.hlk.aux ∧
    (completeToCoord k s).mch = s.mch ∧ (completeToCoord k s).plu = s.plu ∧ (completeToCoord k s).stk = s.stk ∧
    (completeToCoord k s).sch = s.sch ∧ (completeToCoord k s).ms = s.ms ∧ (completeToCoord k s).resets = s.resets ∧
    (completeToCoord k s).freeIx = s.freeIx ∧ (completeToCoord k s).pending = s.pending := by
  simp [completeToCoord]

/-- A filtered panel change (R135). -/
@[simp] theorem panelChange_keeps (k : Stand) (active : Bool) (s : State) :
    (panelChange k active s).hlk.tx = s.hlk.tx ∧ (panelChange k active s).hlk.slot = s.hlk.slot ∧
    (panelChange k active s).hlk.held = s.hlk.held ∧ (panelChange k active s).hlk.mask = s.hlk.mask ∧
    (panelChange k active s).hlk.rx = s.hlk.rx ∧ (panelChange k active s).hlk.straps = s.hlk.straps ∧
    (panelChange k active s).hlk.streams = s.hlk.streams ∧ (panelChange k active s).hlk.aux = s.hlk.aux ∧
    (panelChange k active s).mch = s.mch ∧ (panelChange k active s).plu = s.plu ∧
    (panelChange k active s).stk = s.stk ∧ (panelChange k active s).sch = s.sch ∧
    (panelChange k active s).ms = s.ms ∧ (panelChange k active s).resets = s.resets ∧
    (panelChange k active s).freeIx = s.freeIx ∧ (panelChange k active s).pending = s.pending := by
  unfold panelChange
  split
  · split <;> split <;> simp
  · simp

/-- What a forward pulse can do to an accumulator (R44): nothing without a record, a bite advance with the carry kept, or
the step added. -/
theorem accumulate_cases (k : Stand) (s : State) :
    (s.record k = none ∧ accumulate k s = s) ∨
    ∃ r, s.record k = some r ∧
      ((r.lSeg * 1000000 ≤ vget s.plu.acc k + r.e ∧
          accumulate k s = biteAdvance k (s.withPlu { s.plu with
            acc := vset s.plu.acc k (vget s.plu.acc k + r.e - r.lSeg * 1000000) })) ∨
        vget s.plu.acc k + r.e < r.lSeg * 1000000 ∧
          accumulate k s = s.withPlu { s.plu with acc := vset s.plu.acc k (vget s.plu.acc k + r.e) }) := by
  unfold accumulate
  generalize 1000000 = nm
  cases hr : s.record k with
  | none => exact Or.inl ⟨rfl, rfl⟩
  | some r =>
    refine Or.inr ⟨r, rfl, ?_⟩
    by_cases h : r.lSeg * nm ≤ vget s.plu.acc k + r.e
    · exact Or.inl ⟨h, if_pos h⟩
    · exact Or.inr ⟨by omega, if_neg h⟩

@[simp] theorem accumulate_keeps (k : Stand) (s : State) :
    (accumulate k s).sch.config = s.sch.config ∧ (accumulate k s).plu.settled = s.plu.settled ∧
    (accumulate k s).plu.pins = s.plu.pins ∧ (accumulate k s).plu.hmd = s.plu.hmd ∧
    (accumulate k s).plu.stop = s.plu.stop ∧ (accumulate k s).plu.panel = s.plu.panel ∧
    (accumulate k s).hlk.tx = s.hlk.tx ∧ (accumulate k s).hlk.slot = s.hlk.slot ∧
    (accumulate k s).hlk.held = s.hlk.held ∧ (accumulate k s).hlk.mask = s.hlk.mask ∧
    (accumulate k s).hlk.rx = s.hlk.rx ∧ (accumulate k s).hlk.straps = s.hlk.straps ∧
    (accumulate k s).hlk.streams = s.hlk.streams ∧ (accumulate k s).hlk.aux = s.hlk.aux ∧
    (accumulate k s).mch = s.mch ∧ (accumulate k s).ms = s.ms ∧ (accumulate k s).resets = s.resets ∧
    (accumulate k s).freeIx = s.freeIx ∧ (accumulate k s).pending = s.pending := by
  obtain ⟨_, e⟩ | ⟨r, _, ⟨_, e⟩ | ⟨_, e⟩⟩ := accumulate_cases k s <;> rw [e] <;> simp

/-- What a forward pulse can do to a dropout measurer (R51): a tail confirmed, the step added, or nothing outside a
dropout. -/
theorem measure_cases (k : Stand) (r : Option StandRecord) (s : State) :
    ((s.presence k).state ≠ .dropout ∧ measure k r s = s) ∨
    ((s.presence k).state = .dropout ∧ (measuring r).2 ≤ (s.presence k).measurer + (measuring r).1 ∧
      measure k r s = tailConfirmed k s) ∨
    ((s.presence k).state = .dropout ∧ (s.presence k).measurer + (measuring r).1 < (measuring r).2 ∧
      measure k r s = s.modPresence k fun p => { p with measurer := (s.presence k).measurer + (measuring r).1 }) := by
  unfold measure
  generalize measuring r = step
  by_cases hd : (s.presence k).state = .dropout
  · rw [if_pos hd]
    refine Or.inr ?_
    by_cases h : step.2 ≤ (s.presence k).measurer + step.1
    · exact Or.inl ⟨hd, h, if_pos h⟩
    · exact Or.inr ⟨hd, by omega, if_neg h⟩
  · exact Or.inl ⟨hd, if_neg hd⟩

@[simp] theorem measure_keeps (k : Stand) (r : Option StandRecord) (s : State) :
    (measure k r s).sch.config = s.sch.config ∧ (measure k r s).plu.settled = s.plu.settled ∧
    (measure k r s).plu.pins = s.plu.pins ∧ (measure k r s).plu.hmd = s.plu.hmd ∧
    (measure k r s).plu.stop = s.plu.stop ∧ (measure k r s).plu.panel = s.plu.panel ∧
    (measure k r s).hlk.tx = s.hlk.tx ∧ (measure k r s).hlk.slot = s.hlk.slot ∧
    (measure k r s).hlk.held = s.hlk.held ∧ (measure k r s).hlk.mask = s.hlk.mask ∧
    (measure k r s).hlk.rx = s.hlk.rx ∧ (measure k r s).hlk.straps = s.hlk.straps ∧
    (measure k r s).hlk.streams = s.hlk.streams ∧ (measure k r s).hlk.aux = s.hlk.aux ∧
    (measure k r s).mch = s.mch ∧ (measure k r s).ms = s.ms ∧ (measure k r s).resets = s.resets ∧
    (measure k r s).freeIx = s.freeIx ∧ (measure k r s).pending = s.pending := by
  obtain ⟨_, e⟩ | ⟨_, _, e⟩ | ⟨_, _, e⟩ := measure_cases k r s <;> rw [e] <;> simp

/-- A forward pulse (R52). -/
@[simp] theorem forwardAt_keeps (k : Stand) (s : State) :
    (forwardAt k s).sch.config = s.sch.config ∧ (forwardAt k s).plu.settled = s.plu.settled ∧
    (forwardAt k s).plu.pins = s.plu.pins ∧ (forwardAt k s).plu.hmd = s.plu.hmd ∧
    (forwardAt k s).plu.stop = s.plu.stop ∧ (forwardAt k s).plu.panel = s.plu.panel ∧
    (forwardAt k s).hlk.tx = s.hlk.tx ∧ (forwardAt k s).hlk.slot = s.hlk.slot ∧
    (forwardAt k s).hlk.held = s.hlk.held ∧ (forwardAt k s).hlk.mask = s.hlk.mask ∧
    (forwardAt k s).hlk.rx = s.hlk.rx ∧ (forwardAt k s).hlk.straps = s.hlk.straps ∧
    (forwardAt k s).hlk.streams = s.hlk.streams ∧ (forwardAt k s).hlk.aux = s.hlk.aux ∧
    (forwardAt k s).mch = s.mch ∧ (forwardAt k s).ms = s.ms ∧ (forwardAt k s).resets = s.resets ∧
    (forwardAt k s).freeIx = s.freeIx ∧ (forwardAt k s).pending = s.pending := by
  simp [forwardAt]

/-! ## Updates and channels -/

@[simp] theorem estimate_keeps (k : Stand) (r : StandRecord) (s : State) :
    (estimate k r s).hlk = s.hlk ∧ (estimate k r s).flc = s.flc ∧ (estimate k r s).mch = s.mch ∧
    (estimate k r s).plu = s.plu ∧ (estimate k r s).stk = s.stk ∧ (estimate k r s).ssq = s.ssq ∧
    (estimate k r s).tmx = s.tmx ∧ (estimate k r s).sch = s.sch ∧ (estimate k r s).ms = s.ms ∧
    (estimate k r s).resets = s.resets ∧ (estimate k r s).freeIx = s.freeIx ∧ (estimate k r s).pending = s.pending := by
  unfold estimate
  split <;> simp

@[simp] theorem rollUpdate_keeps (k : Stand) (r : StandRecord) (hGm : Nat) (s : State) :
    (rollUpdate k r hGm s).hlk = s.hlk ∧ (rollUpdate k r hGm s).mch = s.mch ∧ (rollUpdate k r hGm s).plu = s.plu ∧
    (rollUpdate k r hGm s).stk = s.stk ∧ (rollUpdate k r hGm s).ssq = s.ssq ∧ (rollUpdate k r hGm s).tmx = s.tmx ∧
    (rollUpdate k r hGm s).sch = s.sch ∧ (rollUpdate k r hGm s).ms = s.ms ∧
    (rollUpdate k r hGm s).resets = s.resets ∧ (rollUpdate k r hGm s).freeIx = s.freeIx ∧
    (rollUpdate k r hGm s).pending = s.pending := by
  simp [rollUpdate]

@[simp] theorem updateOut_keeps (k : Stand) (r : StandRecord) (s : State) :
    (updateOut k r s).hlk = s.hlk ∧ (updateOut k r s).mch = s.mch ∧ (updateOut k r s).plu = s.plu ∧
    (updateOut k r s).stk = s.stk ∧ (updateOut k r s).ssq = s.ssq ∧ (updateOut k r s).tmx = s.tmx ∧
    (updateOut k r s).sch = s.sch ∧ (updateOut k r s).ms = s.ms ∧ (updateOut k r s).resets = s.resets ∧
    (updateOut k r s).freeIx = s.freeIx ∧ (updateOut k r s).pending = s.pending := by
  unfold updateOut
  split <;> simp

@[simp] theorem updateSetup_keeps (k : Stand) (r : StandRecord) (s : State) :
    (updateSetup k r s).hlk.tx = s.hlk.tx ∧ (updateSetup k r s).hlk.slot = s.hlk.slot ∧
    (updateSetup k r s).hlk.held = s.hlk.held ∧ (updateSetup k r s).hlk.mask = s.hlk.mask ∧
    (updateSetup k r s).hlk.rx = s.hlk.rx ∧ (updateSetup k r s).hlk.straps = s.hlk.straps ∧
    (updateSetup k r s).hlk.streams = s.hlk.streams ∧ (updateSetup k r s).hlk.aux = s.hlk.aux ∧
    (updateSetup k r s).mch = s.mch ∧ (updateSetup k r s).plu = s.plu ∧ (updateSetup k r s).stk = s.stk ∧
    (updateSetup k r s).tmx = s.tmx ∧ (updateSetup k r s).sch = s.sch ∧ (updateSetup k r s).ms = s.ms ∧
    (updateSetup k r s).resets = s.resets ∧ (updateSetup k r s).freeIx = s.freeIx ∧
    (updateSetup k r s).pending = s.pending := by
  simp only [updateSetup]
  split <;> simp

@[simp] theorem updateReady_keeps (k : Stand) (r : StandRecord) (s : State) :
    (updateReady k r s).hlk = s.hlk ∧ (updateReady k r s).mch = s.mch ∧ (updateReady k r s).plu = s.plu ∧
    (updateReady k r s).stk = s.stk ∧ (updateReady k r s).ssq = s.ssq ∧ (updateReady k r s).tmx = s.tmx ∧
    (updateReady k r s).sch = s.sch ∧ (updateReady k r s).ms = s.ms ∧ (updateReady k r s).resets = s.resets ∧
    (updateReady k r s).freeIx = s.freeIx ∧ (updateReady k r s).pending = s.pending := by
  unfold updateReady
  split <;> simp

@[simp] theorem updateThread_keeps (k : Stand) (r : StandRecord) (s : State) :
    (updateThread k r s).hlk.tx = s.hlk.tx ∧ (updateThread k r s).hlk.slot = s.hlk.slot ∧
    (updateThread k r s).hlk.held = s.hlk.held ∧ (updateThread k r s).hlk.mask = s.hlk.mask ∧
    (updateThread k r s).hlk.rx = s.hlk.rx ∧ (updateThread k r s).hlk.straps = s.hlk.straps ∧
    (updateThread k r s).hlk.streams = s.hlk.streams ∧ (updateThread k r s).hlk.aux = s.hlk.aux ∧
    (updateThread k r s).mch = s.mch ∧ (updateThread k r s).plu = s.plu ∧ (updateThread k r s).stk = s.stk ∧
    (updateThread k r s).sch = s.sch ∧ (updateThread k r s).ms = s.ms ∧ (updateThread k r s).resets = s.resets ∧
    (updateThread k r s).freeIx = s.freeIx ∧ (updateThread k r s).pending = s.pending := by
  simp only [updateThread]
  split <;> simp

@[simp] theorem updateRoll_keeps (k : Stand) (r : StandRecord) (s : State) :
    (updateRoll k r s).hlk = s.hlk ∧ (updateRoll k r s).mch = s.mch ∧ (updateRoll k r s).plu = s.plu ∧
    (updateRoll k r s).stk = s.stk ∧ (updateRoll k r s).ssq = s.ssq ∧ (updateRoll k r s).tmx = s.tmx ∧
    (updateRoll k r s).sch = s.sch ∧ (updateRoll k r s).ms = s.ms ∧ (updateRoll k r s).resets = s.resets ∧
    (updateRoll k r s).freeIx = s.freeIx ∧ (updateRoll k r s).pending = s.pending := by
  simp only [updateRoll]
  split <;> simp

@[simp] theorem update_keeps (k : Stand) (r : StandRecord) (s : State) :
    (update k r s).hlk.tx = s.hlk.tx ∧ (update k r s).hlk.slot = s.hlk.slot ∧ (update k r s).hlk.held = s.hlk.held ∧
    (update k r s).hlk.mask = s.hlk.mask ∧ (update k r s).hlk.rx = s.hlk.rx ∧
    (update k r s).hlk.straps = s.hlk.straps ∧ (update k r s).hlk.streams = s.hlk.streams ∧
    (update k r s).hlk.aux = s.hlk.aux ∧ (update k r s).mch = s.mch ∧ (update k r s).plu = s.plu ∧
    (update k r s).stk = s.stk ∧ (update k r s).sch = s.sch ∧ (update k r s).ms = s.ms ∧
    (update k r s).resets = s.resets ∧ (update k r s).freeIx = s.freeIx ∧ (update k r s).pending = s.pending := by
  unfold update
  split <;> simp

/-- An update (R90). -/
@[simp] theorem expireUpdate_keeps (k : Stand) (s : State) :
    (expireUpdate k s).hlk.tx = s.hlk.tx ∧ (expireUpdate k s).hlk.slot = s.hlk.slot ∧
    (expireUpdate k s).hlk.held = s.hlk.held ∧ (expireUpdate k s).hlk.mask = s.hlk.mask ∧
    (expireUpdate k s).hlk.rx = s.hlk.rx ∧ (expireUpdate k s).hlk.straps = s.hlk.straps ∧
    (expireUpdate k s).hlk.streams = s.hlk.streams ∧ (expireUpdate k s).hlk.aux = s.hlk.aux ∧
    (expireUpdate k s).mch = s.mch ∧ (expireUpdate k s).plu = s.plu ∧ (expireUpdate k s).stk = s.stk ∧
    (expireUpdate k s).sch = s.sch ∧ (expireUpdate k s).ms = s.ms ∧ (expireUpdate k s).resets = s.resets ∧
    (expireUpdate k s).freeIx = s.freeIx ∧ (expireUpdate k s).pending = s.pending := by
  unfold expireUpdate
  split <;> simp

@[simp] theorem takeForce_keeps (k : Stand) (value : Int) (s : State) :
    (takeForce k value s).sch.config = s.sch.config ∧ (takeForce k value s).plu.settled = s.plu.settled ∧
    (takeForce k value s).plu.pins = s.plu.pins ∧ (takeForce k value s).plu.hmd = s.plu.hmd ∧
    (takeForce k value s).plu.stop = s.plu.stop ∧ (takeForce k value s).plu.panel = s.plu.panel ∧
    (takeForce k value s).plu.pres = s.plu.pres ∧ (takeForce k value s).hlk.tx = s.hlk.tx ∧
    (takeForce k value s).hlk.slot = s.hlk.slot ∧ (takeForce k value s).hlk.held = s.hlk.held ∧
    (takeForce k value s).hlk.mask = s.hlk.mask ∧ (takeForce k value s).hlk.rx = s.hlk.rx ∧
    (takeForce k value s).hlk.straps = s.hlk.straps ∧ (takeForce k value s).hlk.streams = s.hlk.streams ∧
    (takeForce k value s).hlk.aux = s.hlk.aux ∧ (takeForce k value s).mch = s.mch ∧
    (takeForce k value s).ms = s.ms ∧ (takeForce k value s).resets = s.resets ∧
    (takeForce k value s).freeIx = s.freeIx ∧ (takeForce k value s).pending = s.pending := by
  unfold takeForce
  split
  · dsimp only
    split
    · simp
    · split <;> simp
  · simp

@[simp] theorem takeWindow_keeps (k : Stand) (value : Int) (s : State) :
    (takeWindow k value s).sch.config = s.sch.config ∧ (takeWindow k value s).plu.settled = s.plu.settled ∧
    (takeWindow k value s).plu.pins = s.plu.pins ∧ (takeWindow k value s).plu.hmd = s.plu.hmd ∧
    (takeWindow k value s).plu.stop = s.plu.stop ∧ (takeWindow k value s).plu.panel = s.plu.panel ∧
    (takeWindow k value s).plu.pres = s.plu.pres ∧ (takeWindow k value s).hlk.tx = s.hlk.tx ∧
    (takeWindow k value s).hlk.slot = s.hlk.slot ∧ (takeWindow k value s).hlk.held = s.hlk.held ∧
    (takeWindow k value s).hlk.mask = s.hlk.mask ∧ (takeWindow k value s).hlk.rx = s.hlk.rx ∧
    (takeWindow k value s).hlk.straps = s.hlk.straps ∧ (takeWindow k value s).hlk.streams = s.hlk.streams ∧
    (takeWindow k value s).hlk.aux = s.hlk.aux ∧ (takeWindow k value s).mch = s.mch ∧
    (takeWindow k value s).ms = s.ms ∧ (takeWindow k value s).resets = s.resets ∧
    (takeWindow k value s).freeIx = s.freeIx ∧ (takeWindow k value s).pending = s.pending := by
  unfold takeWindow
  split
  · dsimp only
    split
    · simp
    · split <;> simp
  · simp

@[simp] theorem clearStale_keeps (k : Stand) (s : State) :
    (clearStale k s).hlk.tx = s.hlk.tx ∧ (clearStale k s).hlk.slot = s.hlk.slot ∧
    (clearStale k s).hlk.held = s.hlk.held ∧ (clearStale k s).hlk.mask = s.hlk.mask ∧
    (clearStale k s).hlk.rx = s.hlk.rx ∧ (clearStale k s).hlk.straps = s.hlk.straps ∧
    (clearStale k s).hlk.streams = s.hlk.streams ∧ (clearStale k s).hlk.aux = s.hlk.aux ∧
    (clearStale k s).flc = s.flc ∧ (clearStale k s).mch = s.mch ∧ (clearStale k s).plu = s.plu ∧
    (clearStale k s).stk = s.stk ∧ (clearStale k s).gce = s.gce ∧ (clearStale k s).sch = s.sch ∧
    (clearStale k s).ms = s.ms ∧ (clearStale k s).resets = s.resets ∧ (clearStale k s).freeIx = s.freeIx ∧
    (clearStale k s).pending = s.pending := by
  unfold clearStale
  split <;> simp

@[simp] theorem takeLapse_keeps (c : Chan) (s : State) :
    (takeLapse c s).sch.config = s.sch.config ∧ (takeLapse c s).plu.settled = s.plu.settled ∧
    (takeLapse c s).plu.pins = s.plu.pins ∧ (takeLapse c s).plu.hmd = s.plu.hmd ∧
    (takeLapse c s).plu.stop = s.plu.stop ∧ (takeLapse c s).plu.panel = s.plu.panel ∧
    (takeLapse c s).plu.pres = s.plu.pres ∧ (takeLapse c s).hlk.tx = s.hlk.tx ∧
    (takeLapse c s).hlk.slot = s.hlk.slot ∧ (takeLapse c s).hlk.held = s.hlk.held ∧
    (takeLapse c s).hlk.mask = s.hlk.mask ∧ (takeLapse c s).hlk.rx = s.hlk.rx ∧
    (takeLapse c s).hlk.straps = s.hlk.straps ∧ (takeLapse c s).hlk.streams = s.hlk.streams ∧
    (takeLapse c s).hlk.aux = s.hlk.aux ∧ (takeLapse c s).mch = s.mch ∧ (takeLapse c s).ms = s.ms ∧
    (takeLapse c s).resets = s.resets ∧ (takeLapse c s).freeIx = s.freeIx ∧ (takeLapse c s).pending = s.pending := by
  unfold takeLapse
  split
  · unfold takeLapse.lapseAt
    split <;> simp
  · unfold takeLapse.lapseAt
    split <;> simp
  · simp

@[simp] theorem takeSample_keeps (c : Chan) (value : Int) (s : State) :
    (takeSample c value s).sch.config = s.sch.config ∧ (takeSample c value s).plu.settled = s.plu.settled ∧
    (takeSample c value s).plu.pins = s.plu.pins ∧ (takeSample c value s).plu.hmd = s.plu.hmd ∧
    (takeSample c value s).plu.stop = s.plu.stop ∧ (takeSample c value s).plu.panel = s.plu.panel ∧
    (takeSample c value s).plu.pres = s.plu.pres ∧ (takeSample c value s).hlk.tx = s.hlk.tx ∧
    (takeSample c value s).hlk.slot = s.hlk.slot ∧ (takeSample c value s).hlk.held = s.hlk.held ∧
    (takeSample c value s).hlk.mask = s.hlk.mask ∧ (takeSample c value s).hlk.rx = s.hlk.rx ∧
    (takeSample c value s).hlk.straps = s.hlk.straps ∧ (takeSample c value s).hlk.streams = s.hlk.streams ∧
    (takeSample c value s).hlk.aux = s.hlk.aux ∧ (takeSample c value s).mch = s.mch ∧
    (takeSample c value s).ms = s.ms ∧ (takeSample c value s).resets = s.resets ∧
    (takeSample c value s).freeIx = s.freeIx ∧ (takeSample c value s).pending = s.pending := by
  unfold takeSample
  split <;> simp

/-- What a frame delivered to a channel can do (R29 to R31). -/
theorem deliver_mch (c : Chan) (hit : EntryNo) (f : FieldFrame) (s : State) :
    (deliver c hit f s).mch =
      if (s.chan c).lastSeq = some f.seq then s.mch
      else if 2 ≤ f.health then vset s.mch c ((s.chan c).fault f.seq hit)
      else vset s.mch c ((s.chan c).sample f.seq hit (f.health == 1) f.value (vget s.sch.config.freshness c)) := by
  unfold deliver
  split
  · rfl
  · split
    · dsimp only
      split <;> simp [State.modChan]
    · simp [State.modChan]

@[simp] theorem deliver_keeps (c : Chan) (hit : EntryNo) (f : FieldFrame) (s : State) :
    (deliver c hit f s).sch.config = s.sch.config ∧ (deliver c hit f s).plu.settled = s.plu.settled ∧
    (deliver c hit f s).plu.pins = s.plu.pins ∧ (deliver c hit f s).plu.hmd = s.plu.hmd ∧
    (deliver c hit f s).plu.stop = s.plu.stop ∧ (deliver c hit f s).plu.panel = s.plu.panel ∧
    (deliver c hit f s).plu.pres = s.plu.pres ∧ (deliver c hit f s).hlk.tx = s.hlk.tx ∧
    (deliver c hit f s).hlk.slot = s.hlk.slot ∧ (deliver c hit f s).hlk.held = s.hlk.held ∧
    (deliver c hit f s).hlk.mask = s.hlk.mask ∧ (deliver c hit f s).hlk.rx = s.hlk.rx ∧
    (deliver c hit f s).hlk.straps = s.hlk.straps ∧ (deliver c hit f s).hlk.streams = s.hlk.streams ∧
    (deliver c hit f s).hlk.aux = s.hlk.aux ∧ (deliver c hit f s).ms = s.ms ∧
    (deliver c hit f s).resets = s.resets ∧ (deliver c hit f s).freeIx = s.freeIx ∧
    (deliver c hit f s).pending = s.pending := by
  unfold deliver
  split
  · simp
  · split
    · dsimp only
      split <;> simp
    · simp

/-- A complete field frame (R22, R24). -/
@[simp] theorem takeFrame_keeps (frame : List Byte) (s : State) :
    (takeFrame frame s).sch.config = s.sch.config ∧ (takeFrame frame s).plu.settled = s.plu.settled ∧
    (takeFrame frame s).plu.pins = s.plu.pins ∧ (takeFrame frame s).plu.hmd = s.plu.hmd ∧
    (takeFrame frame s).plu.stop = s.plu.stop ∧ (takeFrame frame s).plu.panel = s.plu.panel ∧
    (takeFrame frame s).plu.pres = s.plu.pres ∧ (takeFrame frame s).hlk.tx = s.hlk.tx ∧
    (takeFrame frame s).hlk.slot = s.hlk.slot ∧ (takeFrame frame s).hlk.held = s.hlk.held ∧
    (takeFrame frame s).hlk.mask = s.hlk.mask ∧ (takeFrame frame s).hlk.rx = s.hlk.rx ∧
    (takeFrame frame s).hlk.straps = s.hlk.straps ∧ (takeFrame frame s).hlk.streams = s.hlk.streams ∧
    (takeFrame frame s).hlk.aux = s.hlk.aux ∧ (takeFrame frame s).ms = s.ms ∧
    (takeFrame frame s).resets = s.resets ∧ (takeFrame frame s).freeIx = s.freeIx ∧
    (takeFrame frame s).pending = s.pending := by
  simp only [takeFrame]
  split
  · simp
  · split
    · simp
    · split <;> simp

/-! ## The end of an event -/

/-- What the end of an event can do at the transmit line (R174). -/
theorem pumpWith_cases (take : HostFrame → State → State) (s : State) :
    (s.hlk.tx ≠ none ∧ pumpWith take s = s) ∨
    (s.hlk.tx = none ∧ ∃ r, s.hlk.slot = some r ∧ pumpWith take s = startReply take r s) ∨
    (s.hlk.tx = none ∧ s.hlk.slot = none ∧ ∃ n rest, s.hlk.queue = n :: rest ∧
      pumpWith take s = s.withHlk { s.hlk with queue := rest, tx := some n.frame }) ∨
    (s.hlk.tx = none ∧ s.hlk.slot = none ∧ s.hlk.queue = [] ∧ pumpWith take s = s) := by
  unfold pumpWith
  cases ht : s.hlk.tx with
  | some f => exact Or.inl ⟨by simp, rfl⟩
  | none =>
    refine Or.inr ?_
    cases hs : s.hlk.slot with
    | some r => exact Or.inl ⟨rfl, r, rfl, rfl⟩
    | none =>
      refine Or.inr ?_
      cases hq : s.hlk.queue with
      | nil => exact Or.inr ⟨rfl, rfl, rfl, rfl⟩
      | cons n rest => exact Or.inl ⟨rfl, rfl, n, rest, rfl, rfl⟩

/-- A busy line takes nothing at the end of an event (R174). -/
theorem endEvent_busy (s : State) (h : s.hlk.tx ≠ none) : endEvent s = s := by
  obtain ⟨_, e⟩ | ⟨n, _⟩ | ⟨n, _⟩ | ⟨n, _⟩ := pumpWith_cases takeRequest s
  · exact e
  · exact absurd n h
  · exact absurd n h
  · exact absurd n h

/-- An idle line with nothing waiting stays idle (R174). -/
theorem endEvent_idle (s : State) (hs : s.hlk.slot = none) (hq : s.hlk.queue = []) : endEvent s = s := by
  obtain ⟨_, e⟩ | ⟨_, r, hr, _⟩ | ⟨_, _, n, rest, hn, _⟩ | ⟨_, _, _, e⟩ := pumpWith_cases takeRequest s
  · exact e
  · rw [hs] at hr
    cases hr
  · rw [hq] at hn
    cases hn
  · exact e

/-- With no request held, the end of an event changes the transmit line alone: the slot, the frame in transmission and the
queue (R174). -/
theorem endEvent_of_not_held (s : State) (h : s.hlk.held = none) :
    endEvent s = s.withHlk { s.hlk with
      slot := (endEvent s).hlk.slot, tx := (endEvent s).hlk.tx, queue := (endEvent s).hlk.queue } := by
  obtain ⟨_, e⟩ | ⟨_, r, _, e⟩ | ⟨_, _, n, rest, _, e⟩ | ⟨_, _, _, e⟩ := pumpWith_cases takeRequest s <;>
    unfold endEvent <;> rw [e]
  · rfl
  · simp only [startReply, withHlk_hlk, h]
  · rfl
  · rfl

/-- What an arriving request can do (R170, R171). -/
theorem arriveRequest_cases (q : HostFrame) (s : State) :
    (128 ≤ q.kind.toNat ∧ arriveRequest q s = s) ∨
    (q.kind.toNat < 128 ∧
      ((s.hlk.held ≠ none ∧ arriveRequest q s = s) ∨
        (s.hlk.held = none ∧ s.hlk.slot ≠ none ∧ arriveRequest q s = s.withHlk { s.hlk with held := some q }) ∨
        s.hlk.held = none ∧ s.hlk.slot = none ∧ arriveRequest q s = takeRequest q s)) := by
  unfold arriveRequest
  by_cases hk : 0x80 ≤ q.kind.toNat
  · exact Or.inl ⟨hk, if_pos hk⟩
  · refine Or.inr ⟨by omega, ?_⟩
    rw [if_neg hk]
    cases hh : s.hlk.held with
    | some r => exact Or.inl ⟨by simp, rfl⟩
    | none =>
      refine Or.inr ?_
      cases hs : s.hlk.slot with
      | some r => exact Or.inl ⟨rfl, by simp, rfl⟩
      | none => exact Or.inr ⟨rfl, rfl, rfl⟩

/-! ## Bytes -/

/-- A byte received as it is laid out is taken by the field-in assembler (R20, R21). -/
theorem execFieldByteReceived_lineBits (b : Byte) (stop : Bool) (s : State) :
    execFieldByteReceived (lineBits b) stop s = event (takeFieldByte b (!stop)) s := by
  simp only [execFieldByteReceived, lineByte_lineBits, Option.elim_some]

/-- A byte received as it is laid out is taken by the host receive assembler (R167, R169). -/
theorem execHostByteReceived_lineBits (b : Byte) (stop : Bool) (s : State) :
    execHostByteReceived (lineBits b) stop s = event (takeHostByte b (!stop)) s := by
  simp only [execHostByteReceived, lineByte_lineBits, Option.elim_some]

end Sys2Proof.Machine
end

