-- ==== Sys2Proof/Laws/Release.lean ====
section
/-! SUPPORT. A held reset: what an event does while one is held and while none is, what holding a reset leaves, and what a
reset source's edge can do (R193). -/

namespace Sys2Proof.Machine

theorem inReset_eq_true (s : State) : s.inReset = true ↔ s.resets.supply = true ∨ s.resets.pin = true := by
  simp [State.inReset]

theorem inReset_eq_false (s : State) : s.inReset = false ↔ s.resets.supply = false ∧ s.resets.pin = false := by
  simp [State.inReset]

/-- While no reset is held an event has its effect. -/
theorem event_running (f : State → State) (s : State) (h : s.inReset = false) : event f s = .next (f s) := by
  simp [event, h]

/-- While a reset is held an event has no effect. -/
theorem event_held (f : State → State) (s : State) (h : s.inReset = true) : event f s = .next s := by
  simp [event, h]

/-- What an event leaves is the state it found, under a held reset, or its effect. -/
theorem event_next (f : State → State) (s t : State) (h : event f s = .next t) :
    s.inReset = true ∧ t = s ∨ s.inReset = false ∧ t = f s := by
  cases hr : s.inReset with
  | true =>
    rw [event_held f s hr] at h
    exact Or.inl ⟨rfl, by cases h; rfl⟩
  | false =>
    rw [event_running f s hr] at h
    exact Or.inr ⟨rfl, by cases h; rfl⟩

@[simp] theorem holdReset_keeps (r : ResetHold) (s : State) :
    (holdReset r s).resets = r ∧ (holdReset r s).hlk.straps = s.hlk.straps ∧ (holdReset r s).freeIx = s.freeIx ∧
      (holdReset r s).pending = s.pending ∧ (holdReset r s).tmx = TripMatrix.cleared ∧
      (holdReset r s).inReset = (r.supply || r.pin) := ⟨rfl, rfl, rfl, rfl, rfl, rfl⟩

/-- A held state is the state that holding it anew leaves. -/
theorem holdReset_held (r : ResetHold) (s : State) :
    holdReset r s =
      { State.cleared (holdReset r s).hlk.straps with
        resets := (holdReset r s).resets, freeIx := (holdReset r s).freeIx, pending := (holdReset r s).pending } := rfl

/-- What a source that lets go can do (R193). -/
theorem endReset_cases (r : ResetHold) (straps : BitVec 2) (s : State) :
    ((r.supply = true ∨ r.pin = true) ∧ endReset r straps s = holdReset r s) ∨
    (r.supply = false ∧ r.pin = false ∧ endReset r straps s = release straps s) := by
  cases r with
  | mk supply pin => cases supply <;> cases pin <;> simp [endReset]

/-- What POWER_ON can do (R193). -/
theorem execPowerOn_cases (edge : ResetEdge) (s : State) :
    (∃ r : ResetHold, (r.supply = true ∨ r.pin = true) ∧ execPowerOn edge s = .next (holdReset r s)) ∨
    ∃ straps, edge = .release straps ∧ s.resets.pin = false ∧ execPowerOn edge s = .next (release straps s) := by
  cases edge with
  | hold => exact Or.inl ⟨_, Or.inl rfl, rfl⟩
  | release straps =>
    obtain ⟨h, e⟩ | ⟨_, h, e⟩ := endReset_cases { s.resets with supply := false } straps s
    · exact Or.inl ⟨_, h, by simp only [execPowerOn, e]⟩
    · exact Or.inr ⟨straps, rfl, h, by simp only [execPowerOn, e]⟩

/-- What RESET_PIN can do (R193). -/
theorem execResetPin_cases (lowNs : Nat) (edge : ResetEdge) (s : State) :
    (lowNs < 1000 ∧ execResetPin lowNs edge s = .next s) ∨
    (1000 ≤ lowNs ∧
      ((∃ r : ResetHold, (r.supply = true ∨ r.pin = true) ∧ execResetPin lowNs edge s = .next (holdReset r s)) ∨
        ∃ straps, edge = .release straps ∧ s.resets.supply = false ∧
          execResetPin lowNs edge s = .next (release straps s))) := by
  by_cases hn : lowNs < 1000
  · exact Or.inl ⟨hn, by simp [execResetPin, hn]⟩
  · refine Or.inr ⟨by omega, ?_⟩
    cases edge with
    | hold => exact Or.inl ⟨{ s.resets with pin := true }, Or.inr rfl, by simp only [execResetPin, if_neg hn]⟩
    | release straps =>
      obtain ⟨h, e⟩ | ⟨h, _, e⟩ := endReset_cases { s.resets with pin := false } straps s
      · exact Or.inl ⟨_, h, by simp only [execResetPin, if_neg hn, e]⟩
      · exact Or.inr ⟨straps, rfl, h, by simp only [execResetPin, if_neg hn, e]⟩

end Sys2Proof.Machine
end

