-- ==== Sys2Proof/WellFormed.lean ====
section
/-! DEFINITION. Which commands the lines can carry: a byte begins with a low start bit (R20, R167), a request's body fits one
host frame (R168), an unknown kind names no request and passes R170, and a field frame has nine bytes and opens with the
start value (R187). Nothing else about a command can be malformed: the other operands are of finite types. -/

namespace Sys2Proof

/-- The body of a request fits a frame: LEN is 2 to 250 and counts KIND, TAG and BODY (R168). -/
def bodyFits (body : List Byte) : Bool := decide (body.length ≤ 248)

/-- A KIND that passes R170 and names none of the 26 requests (R172). -/
def unknownKind (kind : Byte) : Bool := decide (kind.toNat < 0x80 ∧ ¬ (0x01 ≤ kind.toNat ∧ kind.toNat ≤ 0x1A))

/-- Nine bytes that open with the field start byte (R20, R187). -/
def fieldFrameShape (frame : List Byte) : Bool := decide (frame.length = 9) && frame.head? == some 0x5A

/-- A byte on a line begins with its start bit, low (R20, R167). -/
def hasStartBit (line : LineBits) : Bool := !line.getLsb 0

/-- The commands that the part's lines can carry. -/
def Instr.wellFormed : Instr → Bool
  | .powerOn _ => true
  | .resetPin _ _ => true
  | .firstTick _ => true
  | .filterAccept _ => true
  | .encoderPulse _ _ => true
  | .fieldByteReceived line _ => hasStartBit line
  | .fieldInterByteTimeout => true
  | .fieldFrame frame => fieldFrameShape frame
  | .freshnessExpiry _ => true
  | .updateTimerExpiry _ => true
  | .fieldOutTxEnd => true
  | .nonOverlapExpiry _ => true
  | .equalizeExpiry _ => true
  | .handoverTimerExpiry _ => true
  | .streamTimerExpiry _ => true
  | .hostByteReceived line _ => hasStartBit line
  | .hostInterByteTimeout => true
  | .hostTxEnd => true
  | .unknownKindRequest kind _ body => unknownKind kind && bodyFits body
  | .identify _ body => bodyFits body
  | .status _ body => bodyFits body
  | .configure _ body => bodyFits body
  | .setAccept _ body => bodyFits body
  | .readAccept _ body => bodyFits body
  | .setActions _ body => bodyFits body
  | .loadStand _ body => bodyFits body
  | .loadMill _ body => bodyFits body
  | .commit _ body => bodyFits body
  | .clearPending _ body => bodyFits body
  | .readBank _ body => bodyFits body
  | .arm _ body => bodyFits body
  | .disarm _ body => bodyFits body
  | .clearMill _ body => bodyFits body
  | .setTrim _ body => bodyFits body
  | .stop _ body => bodyFits body
  | .ackTrip _ body => bodyFits body
  | .restore _ body => bodyFits body
  | .handover _ body => bodyFits body
  | .readChannels _ body => bodyFits body
  | .readTrack _ body => bodyFits body
  | .readSegments _ body => bodyFits body
  | .readTrips _ body => bodyFits body
  | .setReports _ body => bodyFits body
  | .setAux _ body => bodyFits body
  | .softReset _ body => bodyFits body
  | .tick _ => true

end Sys2Proof
end

