-- ==== Sys2Proof/Tests/Slice0.lean ====
section
/-! SUPPORT. Tests of the model's own: the ill-formed commands that WellFormed refuses, the worked cases of the manual
(each names its section), and, for every statement with hypotheses, a state and operands that meet them. -/

namespace Sys2Proof.Tests

set_option Elab.async false

open Sys2Proof Sys2Proof.Machine

/-! ## WellFormed -/

theorem test_body_of_248_fits : (Instr.configure 0 (List.replicate 248 0)).wellFormed = true := by decide +kernel

theorem test_body_of_249_refused : (Instr.configure 0 (List.replicate 249 0)).wellFormed = false := by decide +kernel

theorem test_known_kind_refused :
    (Instr.unknownKindRequest 0x1A 0 []).wellFormed = false ∧ (Instr.unknownKindRequest 0x80 0 []).wellFormed = false ∧
      (Instr.unknownKindRequest 0x1B 0 []).wellFormed = true := by decide +kernel

theorem test_field_frame_shape_refused :
    (Instr.fieldFrame (List.replicate 9 0)).wellFormed = false ∧
      (Instr.fieldFrame [0x5A, 0, 0, 0, 0, 0, 0, 0]).wellFormed = false ∧
      (Instr.fieldFrame [0x5A, 0, 0, 0, 0, 0, 0, 0, 0]).wellFormed = true := by decide +kernel

/-- R20, R167: a byte's bit times begin with a low start bit. -/
theorem test_high_start_bit_refused :
    (Instr.fieldByteReceived 0x0B5 true).wellFormed = false ∧ (Instr.hostByteReceived 0x0B5 false).wellFormed = false ∧
      (Instr.fieldByteReceived 0x0B4 false).wellFormed = true ∧ (Instr.hostByteReceived 0x0B4 true).wellFormed = true := by
  decide +kernel

/-! ## States -/

/-- The next state of an outcome, if it is one. -/
def left : Host.Outcome State Fault Refusal → Option State
  | .next t => some t
  | .fault _ => none
  | .refused _ => none

/-- What a command leaves; the state itself where it leaves none. -/
def after (c : Instr) (s : State) : State := (left (exec c s)).getD s

/-- The stand record of section 9.5's stand 3, with 9.3's intervals. -/
def rec3 : StandRecord :=
  { outCode := .park, sMin := 1200, sMax := 4500, sPreset := 2280, sOpen := 20000, z := 85, m := 6200, c := 2048,
    kgm := 160, kff := 200, db := 8, r := 60, trimMax := 100, fMax := 30000, pF := 3, w := 50, pW := 2, tCtl := 5,
    hTgt := 1850, lSeg := 1500, e := 564000, lockDelay := 2, tConf := 2000, ms := 160, iLim := 40, tNo := 10,
    tEq := 50 }

/-- The mill record of section 9.2, with 9.5's monitor. -/
def mill3 : MillRecord :=
  { activeSet := [0, 2, 3], spanTable := Vector.replicate 7 { n := 3, t := 1, h := 2 }, nX := 4, hEntry := 20000,
    entrySource := .schedule, km := 96, mdb := 12, nHold := 3 }

/-- A bank of the active set 1, 3, 4 with the dummy stand 2. -/
def bank3 : Bank :=
  { mill := some mill3
    stands := #v[some { rec3 with ms := 64, iLim := 30 }, some rec3, some rec3, some { rec3 with ms := 256, iLim := 60 },
      none, none, none, none] }

/-- A segment of coil 7. -/
def seg (n : Nat) : Segment :=
  { coil := 7, seg := n, entryH := 20000, entrySrc := .schedule, lastStand := some 0, estH := some 3000,
    dev := some (-36), gapRef := 2280, measH := none,
    flags := { thread := false, limited := false, trip := false, lost := false, discarded := false } }

/-- Pins with hot metal at the stands of a mask, every loop closed and every panel switch released. -/
def pinsAt (hmd : BitVec 8) : InputPins := { hmd := hmd, stop := 0xF, panel := 0xFF }

/-- A gap record in ROLL: section 9.5's stand 3. -/
def rollGap : GapRecord :=
  { timer := some 5, sRef := 2300, lastSent := some ⟨.track, 2300⟩, windowRef := some 2300, hGm := some 3150,
    stale := false, gmSat := false, lockCount := 2, locked := true, hLock := 3150, sRefLock := 2280, trim := -15,
    integ := 22, limited := false, slewing := false }

/-- A FRESH channel. -/
def freshChan (x : Int) : Channel :=
  { value := x, prev := x, state := .fresh, warn := false, lastSeq := some 3, hit := some 0, remaining := 20 }

/-- The host line busy with a notice's frame. -/
def busyLine : HostLink := { State.reset.hlk with queue := [] }

/-- The mill of section 9.2 at row 13: rolling coil 7, every stand of the set in ROLL. -/
def rolling : State :=
  { State.reset with
    hlk := busyLine
    flc := { FieldLine.cleared with
      accept := vset (vset (vset FieldLine.cleared.accept 0 ⟨true, 0x1A3, 0xFFF, 1, forceCh 2⟩) 1
        ⟨true, 0x1A0, 0xFF0, 2, gapCh 2⟩) 2 ⟨true, 0x1A0, 0xFF0, 0, driveCh 2⟩
      tx := some { stand := 0, tag := 1, seq := 0, setpoint := ⟨.track, 2300⟩ } }
    mch := vset (vset (vset (vset (vset (vset (vset State.reset.mch 0 (freshChan 5280)) 1 (freshChan 2262)) 6
      (freshChan 5280)) 7 (freshChan 2262)) 9 (freshChan 5280)) 10 (freshChan 2262)) 25 (freshChan 1822)
    plu := { PresenceUnit.cleared with
      settled := true
      pins := pinsAt 0x0F
      hmd := vtab fun k => { level := decide (k.val < 4), count := 0, due := false }
      pres := vtab fun k => { state := if k.val < 4 then .present else .absent, measurer := 0 } }
    stk := { Tracker.cleared with
      mill := .rolling, coil := 7, allocated := 11, retired := 0, nextSeg := 212, lastAlloc := 211
      bites := #v[some (seg 211), none, some (seg 208), some (seg 205), none, none, none, none]
      spans := #v[[], [seg 209, seg 210], [seg 206, seg 207], [], [], [], [], [seg 201, seg 202, seg 203, seg 204]] }
    gce := vtab fun k => if k.val < 4 then rollGap else GapRecord.cleared
    ssq := vtab fun k =>
      { SeqRecord.cleared with state := if k = 0 ∨ k = 2 ∨ k = 3 then .roll else .out }
    tmx := { TripMatrix.cleared with stopLine := false }
    sch := { ScheduleStore.cleared with
      active := { state := .valid, bank := bank3, serial := 4 }
      counter := 5
      config := { ConfigRecord.default with tags := vtab fun k => BitVec.ofNat 12 (Stand.pos k) } }
    ms := 1000 }

/-- The same mill ARMED before coil 7, no strip in it, its stands READY at their presets. -/
def armed : State :=
  { rolling with
    stk := { Tracker.cleared with mill := .armed, coil := 6, nextSeg := 201, lastAlloc := 200 }
    plu := { rolling.plu with
      pins := pinsAt 0
      hmd := Vector.replicate 8 Filter.cleared
      pres := Vector.replicate 8 { state := .absent, measurer := 0 } }
    gce := vtab fun k =>
      if k.val < 4 then
        { rollGap with sRef := 2280, lastSent := some ⟨.preset, 2280⟩, windowRef := some 2280, locked := false,
                       trim := 0, integ := 0 }
      else GapRecord.cleared
    ssq := vtab fun k =>
      { SeqRecord.cleared with state := if k = 0 ∨ k = 2 ∨ k = 3 then .ready else .out } }

/-- `armed` with the mill IDLE. -/
def idle : State := armed.withStk { armed.stk with mill := .idle }

/-- A state with one stand's sequencer state replaced. -/
def withState (k : Stand) (st : StandState) (s : State) : State := s.modSeq k fun q => { q with state := st }

/-- A state with a filter whose accept is due at the opposite of its level. -/
def dueAt (i : FilterId) (pins : InputPins) (s : State) : State :=
  let t := s.setFilter i { s.filter i with count := 3, due := true }
  t.withPlu { t.plu with pins := pins }

/-- A pending handover of a stand. -/
def inHandover (k : Stand) (dir : Direction) (prior : Option StandState) (remaining : Nat) (s : State) : State :=
  s.modSeq k fun q =>
    { q with state := .handover, localReq := true, handover := some { dir := dir, prior := prior, remaining := remaining } }

/-- A trip record. -/
def record (key : Key) (st : RecState) (a : Action) (first : Bool) : TripRecord :=
  { key := key, state := st, action := a, stampMs := 900, stampCoil := 7, stampSeg := 200, occ := 2, firstOut := first }

/-- A state with a trip table, its stop line as the table has it. -/
def withTable (table : List TripRecord) (s : State) : State :=
  evalStopLine (s.withTmx { s.tmx with table := table })

/-- A field frame with a good CRC. -/
def frame (tag : BitVec 12) (quantity : Nat) (seq : BitVec 4) (health value : Nat) : List Byte :=
  fieldFrameOf (fieldBody tag quantity seq health value)

/-! ## Frames (R168, R186, R187) -/

/-- The check value that R168 states for the nine characters 1 to 9. -/
theorem test_crc_check_value : crc16 [0x31, 0x32, 0x33, 0x34, 0x35, 0x36, 0x37, 0x38, 0x39] = 0x29B1 := by
  decide +kernel

/-- R20, R167: 0x5A as start bit, eight data bits least significant first and stop bit, written out; its reception, with the
stop bit high and low, and without a start bit. -/
theorem test_byte_on_the_line :
    byteLevels 0x5A = [false, false, true, false, true, true, false, true, false, true] ∧
      lineByte 0b010110100 true = some (0x5A, false) ∧ lineByte 0b010110100 false = some (0x5A, true) ∧
      lineByte 0b010110101 true = none := by
  decide +kernel

/-! ## Resets and ticks -/

theorem test_power_on_is_reset : after (.powerOn (.release 0)) rolling = State.reset := by decide +kernel

/-- R193: 1 µs resets, less does not. -/
theorem test_reset_pin_length :
    after (.resetPin 999 (.release 0)) rolling = rolling ∧ after (.resetPin 999 .hold) rolling = rolling ∧
      after (.resetPin 1000 (.release 2)) rolling = after (.powerOn (.release 2)) rolling := by
  decide +kernel

/-- `rolling` with the supply below its threshold. -/
def supplyLow : State := after (.powerOn .hold) rolling

/-- R193: while the reset is held the stop line is asserted low, FAST_OPEN and LOCAL_REQ are deasserted, the AUX pins are
high-impedance and both transmit lines idle high; a tick and a request find nothing to do. -/
theorem test_held_reset :
    supplyLow.stopLinePin = .low ∧ (∀ k, supplyLow.fastOpenPin k = .low ∧ supplyLow.localReqPin k = .low) ∧
      (∀ i, supplyLow.auxPin i = .highZ) ∧ supplyLow.hostTxPin 0 = .high ∧ supplyLow.fieldOutPin 9 = .high ∧
      after (.tick (pinsAt 0)) supplyLow = supplyLow ∧ after (.stop 3 []) supplyLow = supplyLow := by
  decide +kernel

/-- R193: the part is released when neither source holds it, with the straps as they then are. -/
theorem test_release_by_the_last_source :
    let s := after (.resetPin 1000 .hold) supplyLow
    (after (.powerOn (.release 1)) s).inReset = true ∧
      after (.resetPin 20000 (.release 3)) (after (.powerOn (.release 1)) s) = after (.powerOn (.release 3)) rolling ∧
      ∀ k, (after (.powerOn (.release 0)) supplyLow).fastOpenPin k = .high := by
  decide +kernel

/-- R194: the mill stop line is asserted low, FAST_OPEN and LOCAL_REQ high. -/
theorem test_output_pins :
    rolling.stopLinePin = .high ∧ (after (.stop 3 []) rolling).stopLinePin = .low ∧ rolling.fastOpenPin 2 = .low ∧
      (rolling.modSeq 2 fun q => { q with fastOpen := true, localReq := true }).fastOpenPin 2 = .high ∧
      (rolling.modSeq 2 fun q => { q with fastOpen := true, localReq := true }).localReqPin 2 = .high := by
  decide +kernel

/-- R20: the field-out pin over the bit times of a setpoint frame's start byte 0x5A, and behind the frame's 90. -/
theorem test_field_out_levels :
    ((List.range 10).map rolling.fieldOutPin) =
        [.low, .low, .high, .low, .high, .high, .low, .high, .low, .high] ∧
      rolling.fieldOutPin 10 = .low ∧ rolling.fieldOutPin 89 = .high ∧ rolling.fieldOutPin 90 = .high := by
  decide +kernel

/-- R194: the pulse between edges less than 200 ns apart is lost, and a low direction pin marks no forward pulse. -/
theorem test_lost_pulse :
    after (.encoderPulse 2 ⟨true, 199⟩) rolling = rolling ∧ after (.encoderPulse 2 ⟨false, 400⟩) rolling = rolling ∧
      vget (after (.encoderPulse 2 ⟨true, 200⟩) rolling).plu.acc 2 = 564000 := by
  decide +kernel

/-- R54, R55: a stop loop open at the first tick trips, a detector on hot metal sets strip-present without a head. -/
theorem test_first_tick_settles :
    let t := after (.firstTick { hmd := 4, stop := 0xD, panel := 0xFF }) State.reset
    t.present (.stopInput 1) = true ∧ t.stripPresent 2 = true ∧ t.stk.mill = .idle := by decide +kernel

/-- Section 3.1, A Detector Through a Scale Flake: ticks 2, 3 and 6. -/
theorem test_filter_through_a_flake :
    ({ level := false, count := 1, due := false : Filter }.sample true 3).count = 2 ∧
      ({ level := false, count := 2, due := false : Filter }.sample false 3).count = 0 ∧
      ({ level := false, count := 2, due := false : Filter }.sample true 3).due = true := by decide +kernel

theorem test_tick_counts_down :
    ((after (.tick (pinsAt 0x0F)) rolling).gap 2).timer = some 4 ∧
      ((after (.tick (pinsAt 0x0F)) rolling).chan 6).remaining = 19 ∧
      (after (.tick (pinsAt 0x0F)) rolling).ms = 1001 := by decide +kernel

/-! ## Strip -/

/-- Section 9.2, row 1. -/
theorem test_head_starts_coil :
    let t := after (.filterAccept (.hmd 0)) (dueAt (.hmd 0) (pinsAt 1) armed)
    (t.seq 0).state = .thread ∧ t.stk.mill = .rolling ∧ t.stk.coil = 7 ∧ (vget t.stk.bites 0).map (·.seg) = some 201 := by
  decide +kernel

/-- Section 3.2, Carry Between Advances: the last pulse of the first run leaves 240,000 nm, and section 9.2, row 12 of
stand 3: 208 is pushed and 209 taken. -/
theorem test_advance_carries_and_moves :
    let t := after (.encoderPulse 2 ⟨true, 1000⟩) (rolling.withPlu { rolling.plu with acc := vset rolling.plu.acc 2 1499676000 })
    vget t.plu.acc 2 = 240000 ∧ (t.span 2).map (·.seg) = [206, 207, 208] ∧ (t.span 1).map (·.seg) = [210] ∧
      (vget t.stk.bites 2).map (·.seg) = some 209 := by
  decide +kernel

/-- Section 9.2, row 14, and section 9.5, The Monitor Update: 201 reaches the gauge and the three integrators step. -/
theorem test_exit_arrival_steps_the_monitor :
    let s := rolling.withPlu { rolling.plu with acc := vset rolling.plu.acc 3 1499676000 }
    let s := (s.modGap 0 fun g => { g with integ := -5 }).modGap 3 fun g => { g with integ := -58 }
    let t := after (.encoderPulse 3 ⟨true, 1000⟩) s
    (t.span 7).map (·.seg) = [202, 203, 204, 205] ∧ t.stk.retired = 1 ∧ t.stk.hold = 3 ∧
      t.stk.ring.map (·.measH) = [some 1822] ∧ ([0, 2, 3].map fun k => (t.gap k).integ) = [-8, 15, -60] := by
  decide +kernel

/-- Section 3.3, A False Tail and a True One: HMD off starts a dropout. -/
theorem test_hmd_off_starts_dropout :
    (after (.filterAccept (.hmd 3)) (dueAt (.hmd 3) (pinsAt 7) rolling)).presence 3 = ⟨.dropout, 0⟩ := by decide +kernel

/-- Section 9.3, The Trip: LOOP_GROW of stand 4 at a count of 5, its record HELD with the first-out mark. -/
theorem test_loop_growth_trips_the_mill :
    let s := rolling.withPlu { rolling.plu with acc := vset rolling.plu.acc 2 1499676000 }
    let t := after (.encoderPulse 2 ⟨true, 1000⟩) (s.setSpan 2 [seg 234, seg 235, seg 236, seg 237])
    t.tmx.stopLine = true ∧ (t.recordOf (.stand .loopGrow 3)).map (·.state) = some .held ∧
      ([0, 1, 2, 3].map fun k => (t.seq k).state) = [.tripped, .out, .tripped, .tripped] ∧
      ([0, 1].map fun k => (t.seq k).nonOverlap) = [some 10, some 10] := by
  decide +kernel

/-! ## Channels (section 2.3, One Gap Channel Through a Fault) -/

/-- Section 2.2, Resolving Frames Against the Table: entry 1 wins, and the sample goes to the gap channel. -/
theorem test_gap_sample :
    (after (.fieldFrame (frame 0x1A3 2 4 0 2410)) rolling).chan (gapCh 2) =
      { value := 2410, prev := 2262, state := .fresh, warn := false, lastSeq := some 4, hit := some 1, remaining := 20 } := by
  decide +kernel

theorem test_fault_frame_invalidates :
    let t := after (.fieldFrame (frame 0x1A0 2 5 2 0)) rolling
    (t.chan (gapCh 2)).state = .invalid ∧ (t.chan (gapCh 2)).value = 2262 ∧
      (t.recordOf (.stand .sampleStale 2)).map (·.action) = some .freeze ∧ (t.seq 2).frozen = true := by
  decide +kernel

/-- R32, R144. -/
theorem test_freshness_lapse :
    let t := after (.freshnessExpiry 6) (rolling.modChan 6 fun c => { c with remaining := 0 })
    (t.chan 6).state = .stale ∧ t.present (.stand .sampleStale 2) = true := by decide +kernel

/-- Section 7.7, A Force Trip: the third sample above F_max trips the stand, and its scope then ends. -/
theorem test_third_force_sample_trips :
    let s := rolling.withTmx { rolling.tmx with forceCnt := vset rolling.tmx.forceCnt 2 2 }
    let t := after (.fieldFrame (frame 0x1A3 1 4 0 31500)) s
    (t.seq 2).state = .tripped ∧ vget t.tmx.forceCnt 2 = 0 ∧ t.tmx.stopLine = false ∧
      (t.recordOf (.stand .forceHigh 2)).map (fun r => (r.state, r.action, r.occ, r.firstOut)) =
        some (.held, .open_, 1, true) := by
  decide +kernel

/-- R21: the ninth byte completes the frame, and a framing error discards the bytes held. -/
theorem test_field_bytes :
    left (receiveField (frame 0x1A3 2 4 0 2410) rolling) = some (after (.fieldFrame (frame 0x1A3 2 4 0 2410)) rolling) ∧
      (after (.fieldByteReceived (lineBits 0) false) (rolling.withFlc { rolling.flc with asm := .collecting [0x5A] })).flc.asm =
        .hunting := by
  decide +kernel

/-- R21. -/
theorem test_field_inter_byte_limit :
    (after .fieldInterByteTimeout (rolling.withFlc { rolling.flc with asm := .collecting [0x5A] })).flc.asm = .hunting := by
  decide +kernel

/-! ## Updates (section 9.5, The Gap Update; section 5.10) -/

theorem test_roll_update :
    let t := after (.updateTimerExpiry 2)
      ((rolling.modGap 2 fun g => { g with timer := some 0 }).modChan 6 fun c => { c with value := 5280 })
    (t.gap 2).sRef = 2240 ∧ (t.gap 2).hGm = some 3199 ∧ (t.gap 2).limited = false ∧ (t.gap 2).slewing = true ∧
      vget t.flc.slots 2 = some ⟨.track, 2240⟩ := by
  decide +kernel

/-- Section 5.10, An Update at the Limits. -/
theorem test_update_at_the_limits :
    let r := { rec3 with m := 1000, z := -120, c := 4096, kgm := 256, kff := 0, db := 0, r := 200, sMin := 3000,
                         sMax := 12000 }
    rawEstimate r 71500 10000 = 69880 ∧
      rollReference r { rollGap with hLock := 12000, sRefLock := 9000, trim := 0, integ := 0,
                                     lastSent := some ⟨.track, 9050⟩ } 65000 0 = (8850, true, true) := by
  decide +kernel

/-- Section 2.4, A Burst on Field-Out: the lowest pending slot begins, and its sequence advances. -/
theorem test_field_out_takes_lowest_slot :
    let t := after .fieldOutTxEnd (rolling.withFlc { rolling.flc with
      slots := vset (vset rolling.flc.slots 3 (some ⟨.open_, 9000⟩)) 2 (some ⟨.track, 1880⟩)
      seqs := vset rolling.flc.seqs 2 6 })
    t.flc.tx = some { stand := 2, tag := 3, seq := 6, setpoint := ⟨.track, 1880⟩ } ∧ vget t.flc.seqs 2 = 7 ∧
      vget t.flc.slots 3 = some ⟨.open_, 9000⟩ ∧ (t.gap 2).windowRef = some 1880 := by
  decide +kernel

/-! ## Stand and stream timers -/

/-- Section 9.3, ms 10: the non-overlap interval of stand 1 ends. -/
theorem test_non_overlap_expiry :
    ((after (.nonOverlapExpiry 0) (rolling.modSeq 0 fun q => { q with state := .tripped, nonOverlap := some 0 })).seq
      0).fastOpen = true := by
  decide +kernel

theorem test_equalize_expiry :
    ((after (.equalizeExpiry 0) (idle.modSeq 0 fun q => { q with state := .setup, equalize := some 0 })).seq
      0).equalize = none := by
  decide +kernel

/-- Section 6.8, ms 51,000: a TO_COORD handover that times out leaves the stand LOCAL. -/
theorem test_handover_times_out :
    let t := after (.handoverTimerExpiry 6) (inHandover 6 .toCoord none 0 rolling)
    (t.seq 6).state = .local_ ∧ (t.seq 6).localReq = false ∧
      t.hlk.queue.map (·.body) = [.standState 6 .local_ false false, .handoverDone 6 .toCoord .deniedTimeout] := by
  decide +kernel

/-- R182. -/
theorem test_stream_expiry :
    let s := idle.withHlk { idle.hlk with
      streams := vset idle.hlk.streams 1 { enabled := true, chans := [7, 25], period := 250, timer := some 0 } }
    (vget (after (.streamTimerExpiry 1) s).hlk.streams 1).timer = some 250 ∧
      (after (.streamTimerExpiry 1) s).hlk.queue.length = 1 := by
  decide +kernel

/-! ## The host line and its requests -/

/-- Section 8.6, A Trip Burst on the Transmit Line, time 11: the reply goes before the notices. -/
theorem test_reply_goes_first :
    let s := rolling.withHlk { rolling.hlk with
      slot := some { kind := 0x82, tag := 1, body := [0] }
      queue := [{ body := .standState 1 .tripped false true, occ := 1 }] }
    (after .hostTxEnd s).hlk.tx = some { kind := 0x82, tag := 1, body := [0] } ∧ (after .hostTxEnd s).hlk.slot = none ∧
      (after .hostTxEnd s).hlk.queue.length = 1 := by
  decide +kernel

/-- R169 to R171 with the CRC of R168: IDENTIFY received byte by byte. -/
theorem test_host_bytes :
    left (receiveHost (HostFrame.bytes { kind := 1, tag := 7, body := [] }) idle) = some (after (.identify 7 []) idle) ∧
      (after (.hostByteReceived (lineBits 1) true) (idle.withHlk { idle.hlk with rx := .length })).hlk.rx = .hunting := by
  decide +kernel

theorem test_host_inter_byte_limit :
    (after .hostInterByteTimeout (idle.withHlk { idle.hlk with rx := .length })).hlk.rx = .hunting := by decide +kernel

/-- The body of the reply that a request command leaves in the slot. -/
def replyOf (c : Instr) (s : State) : List Byte := (after c s).hlk.slot.elim [] (·.body)

theorem test_unknown_kind : replyOf (.unknownKindRequest 0x7F 3 []) idle = [2] := by decide +kernel

/-- R175, part code 0x0E08. -/
theorem test_identify :
    replyOf (.identify 3 []) idle = [0, 0x0E, 0x08, 1, 8, 32, 24, 24, 32, 71, 96, 4, 26, 0] ∧
      replyOf (.identify 3 [0]) idle = [3] := by decide +kernel

theorem test_status_length : (replyOf (.status 3 []) rolling).length = 245 := by decide +kernel

/-- R18: the first failing item, and the tag that empties a slot. -/
theorem test_configure :
    replyOf (.configure 3 (enc8 3 ++ enc8 19 ++ List.replicate 48 1)) idle = [4, 0, 2, 0] ∧
      replyOf (.configure 3 (enc8 3 ++ enc8 50 ++ List.replicate 48 1)) rolling = [5] := by decide +kernel

theorem test_set_accept :
    replyOf (.setAccept 3 [23, 1, 1, 1, 0xA3, 0xF, 0xFF, 15, 12]) idle = [4, 23, 4, 0] ∧
      (vget (after (.setAccept 3 [23, 1, 1, 1, 0xA3, 0xF, 0xFF, 1, 12]) idle).flc.accept 23) =
        ⟨true, 0x1A3, 0xFFF, 1, 12⟩ := by decide +kernel

theorem test_read_accept : replyOf (.readAccept 3 [0, 1]) idle = [0, 0, 1, 1, 1, 0xA3, 0xF, 0xFF, 1, 6] := by
  decide +kernel

/-- R152: a fixed row is refused, with the table as it stands. -/
theorem test_set_actions :
    replyOf (.setActions 3 [11, 1, 2, 3]) idle = [4, 2, 0, 0, 3, 3, 3, 2, 2, 1, 3, 3, 3, 1, 3, 0] ∧
      replyOf (.setActions 3 [11, 1]) idle = [0, 3, 3, 3, 2, 2, 1, 3, 3, 3, 1, 3, 1] := by decide +kernel

/-- R8: the 52 bytes of a record written out, and a field out of range named. -/
theorem test_load_stand :
    (vget (after (.loadStand 3 (enc8 5 ++ encStand rec3)) idle).sch.pendingBank.bank.stands 4) = some rec3 ∧
      replyOf (.loadStand 3 (enc8 5 ++ encStand { rec3 with m := 999 })) idle = [4, 5, 7, 0] := by decide +kernel

/-- R6, R9: the 38 bytes of 9.2's mill record, written out. -/
theorem test_load_mill :
    (after (.loadMill 3 ([3, 1, 3, 4, 9, 9, 9, 9, 9, 3, 1, 2, 3, 1, 2, 3, 1, 2, 3, 1, 2, 3, 1, 2, 3, 1, 2, 3, 1, 2] ++
      [4, 0x4E, 0x20, 0, 0, 96, 12, 3])) idle).sch.pendingBank.bank.mill = some mill3 := by decide +kernel

/-- `bank3` in the pending bank, EDITING. -/
def editing (s : State) : State :=
  s.withSch { s.sch with pendingBank := { state := .editing, bank := bank3, serial := 0 } }

/-- Section 9.4: COMMIT while ROLLING is DEFERRED with serial 5; and R15: while IDLE it swaps. -/
theorem test_commit :
    replyOf (.commit 3 []) (editing rolling) = [0, 1, 0, 5] ∧
      (after (.commit 3 []) (editing rolling)).sch.counter = 6 ∧ replyOf (.commit 3 []) (editing idle) = [0, 0, 0, 5] ∧
      ((after (.commit 3 []) (editing idle)).seq 2).state = .setup := by decide +kernel

/-- Section 1.5, Validation of an Edited Bank: S_preset below S_min names field 4, outside the active set too. -/
theorem test_commit_names_stand_and_field :
    validationFault { bank3 with stands := vset bank3.stands 1 (some { rec3 with sMin := 1500, sPreset := 1400 }) } =
      some (2, 4) := by decide +kernel

theorem test_clear_pending :
    replyOf (.clearPending 3 []) (editing rolling) = [0, 1] ∧
      (after (.clearPending 3 []) (editing rolling)).sch.pendingBank = PendingBank.none := by decide +kernel

theorem test_read_bank :
    replyOf (.readBank 3 [0, 3]) idle = [0, 1, 0, 4, 3, 1] ++ encStand rec3 ∧
      replyOf (.readBank 3 [1, 0]) idle = [0, 0, 0, 0, 0, 0] := by decide +kernel

theorem test_arm :
    (after (.arm 3 []) idle).stk.mill = .armed ∧ replyOf (.arm 3 []) (withState 2 .setup idle) = [5] := by
  decide +kernel

theorem test_disarm : (after (.disarm 3 []) armed).stk.mill = .idle ∧ replyOf (.disarm 3 []) idle = [5] := by
  decide +kernel

/-- Section 9.3, Clearing and Restoring: every record held is retired, 11 of them at row 13. -/
theorem test_clear_mill :
    let s := withState 0 .tripped (withState 2 .tripped (withState 3 .tripped rolling))
    replyOf (.clearMill 3 []) s = [0, 11] ∧ (after (.clearMill 3 []) s).stk.mill = .idle ∧
      (after (.clearMill 3 []) s).stk.ring.map (·.seg) = [211, 208, 205, 209, 210, 206, 207, 201, 202, 203, 204] := by
  decide +kernel

/-- R105: the trim is clamped to TrimMax. -/
theorem test_set_trim :
    replyOf (.setTrim 3 ([3] ++ encS16 (-101))) rolling = [1, 3, 0xFF, 0x9C] ∧
      ((after (.setTrim 3 ([3] ++ encS16 (-101))) rolling).gap 2).trim = -100 := by decide +kernel

theorem test_stop :
    replyOf (.stop 3 []) rolling = [0, 1] ∧ (after (.stop 3 []) rolling).tmx.stopLine = true ∧
      ((after (.stop 3 []) rolling).seq 3).state = .tripped := by decide +kernel

/-- Section 7.7, 9,400: ACK_TRIP of all removes the HELD record and acknowledges the RAISED one. -/
theorem test_ack_trip :
    let s := withTable [record (.stand .forceHigh 4) .held .open_ true, record (.stand .driveFault 1) .raised .millStop false]
      rolling
    replyOf (.ackTrip 3 [255]) s = [0, 2] ∧
      (after (.ackTrip 3 [255]) s).tmx.table.map (fun r => (r.key.num, r.state)) = [(32, .acked)] ∧
      (after (.ackTrip 3 [255]) s).tmx.stopLine = true := by decide +kernel

/-- Section 9.3: RESTORE 0 with stands 1, 3 and 4 TRIPPED. -/
theorem test_restore_all :
    let s := withState 0 .tripped (withState 2 .tripped (withState 3 .tripped idle))
    replyOf (.restore 3 [0]) s = [0, 0, 1, 5, 0, 0, 1, 0, 1, 5, 0, 5, 0, 5, 0, 5, 0] ∧
      ((after (.restore 3 [0]) s).seq 2).equalize = some 50 := by decide +kernel

/-- Section 6.8, ms 0 and 66,000. -/
theorem test_handover :
    replyOf (.handover 3 [7, 1, 90]) rolling = [1, 7, 1, 60, 0, 7] ∧
      ((after (.handover 3 [7, 1, 90]) rolling).seq 6).handover = some ⟨.toLocal, some .out, 60000⟩ ∧
      replyOf (.handover 3 [7, 2, 20]) (withState 6 .local_ rolling) = [0, 7, 2, 20, 1, 0] := by decide +kernel

theorem test_read_channels :
    replyOf (.readChannels 3 [7, 1]) rolling =
      [0, 0, 0, 3, 0xE8, 7, 1, 0, 8, 0xD6, 0, 8, 0xD6, 1, 0, 3, 0, 20, 20] := by decide +kernel

/-- R190, at row 13 of section 9.2, the lists from the exit span on. -/
theorem test_read_track :
    replyOf (.readTrack 3 [9]) rolling =
      [0, 0, 0, 3, 0xE8, 2, 0, 7, 0, 11, 0, 0, 0, 212, 0, 0, 3, 1, 0, 211, 3, 0, 208, 4, 0, 205, 3, 34, 66, 228, 9, 9,
        0, 201, 0, 202, 0, 203, 0, 204] := by decide +kernel

/-- R83: the ring is read from the first record whose number is the start or later. -/
theorem test_read_segments :
    (replyOf (.readSegments 3 [0, 202, 8]) (rolling.withStk { rolling.stk with ring := [seg 201, seg 203, seg 204] })).take
      5 = [0, 3, 0, 203, 2] := by decide +kernel

theorem test_read_trips :
    (replyOf (.readTrips 3 [1]) State.reset).take 8 = [0, 0, 0, 0, 0, 1, 0, 1] ∧
      (replyOf (.readTrips 3 [1]) State.reset).length = 33 := by decide +kernel

/-- R182, R183: a period below 10 ms is clamped. -/
theorem test_set_reports :
    let body : List Byte := enc8 63 ++ [1, 1, 25, 0, 0, 0, 0, 0, 0, 0, 0, 5] ++
      (List.replicate 3 [0, 1, 0, 0, 0, 0, 0, 0, 0, 0, 3, 0xE8]).flatten
    (replyOf (.setReports 3 body) idle).head? = some 1 ∧
      vget (after (.setReports 3 body) idle).hlk.streams 0 = ⟨true, [25], 10, some 10⟩ := by decide +kernel

/-- R184, and time 0 of section 8.6: an attention pin is high while a watched notice waits. -/
theorem test_set_aux :
    replyOf (.setAux 3 [1, 0, 3, 1]) idle = [0, 1, 0, 3, 1] ∧ (after (.setAux 3 [1, 0, 3, 1]) idle).auxPin 0 = .low ∧
      (after (.stop 4 []) (idle.withHlk { idle.hlk with aux := #v[⟨.attentionTrip, false⟩, ⟨.off, false⟩] })).auxPin 0 =
        .high := by decide +kernel

/-- R177, R137: refused while a stand rolls; else the stands of the set go to SETUP and are then tripped by RESET_STOP. -/
theorem test_soft_reset :
    replyOf (.softReset 3 []) rolling = [5] ∧ ((after (.softReset 3 []) idle).seq 2).state = .tripped ∧
      (after (.softReset 3 []) idle).stk.coil = 6 ∧ (after (.softReset 3 []) idle).ms = 1000 := by decide +kernel

/-! ## Witnesses: a state and operands for the hypotheses of each statement -/

theorem line_of (s : State) (h : s.hlk.tx.isSome = true ∧ s.hlk.held = none) : LineOk s := by
  refine ⟨fun e => ?_, fun e => absurd h.2 e⟩
  simp [e] at h

theorem run_of (s : State) (h : s.inReset = false ∧ s.hlk.tx.isSome = true ∧ s.hlk.held = none) : Running s :=
  ⟨h.1, line_of s h.2⟩

theorem free_of (s : State) (h : s.inReset = false ∧ s.hlk.slot = none ∧ s.hlk.held = none) : HostFree s := h

theorem none_of {α : Type} {o : Option α} (h : o = none) (P : α → Prop) : ∀ r, o = some r → P r := by
  intro r e
  rw [h] at e
  cases e

theorem some_of {α : Type} {o : Option α} {x : α} (h : o = some x) {P : α → Prop} (hx : P x) : ∀ r, o = some r → P r := by
  intro r e
  rw [h] at e
  cases e
  exact hx

theorem frameFor_of (s : State) (f : List Byte) (n : EntryNo)
    (h : f.length = 9 ∧ f.head? = some 0x5A ∧ fieldCheck f = true ∧ (fieldFields f).quantity ≠ 0 ∧
      (fieldFields f).quantity ≠ 15 ∧
      winningEntry s.flc.accept (fieldFields f).tag (fieldFields f).quantity = some n) : FrameFor s f n := h

theorem witness_StepRunsFrontCommand : rolling.pending = [] := rfl

/-- `bank3` in the pending bank, COMMITTED under serial 5. -/
def committed (s : State) : State :=
  s.withSch { s.sch with pendingBank := { state := .committed, bank := bank3, serial := 5 }, counter := 6 }

/-- Stand 5 LOCAL, stand 6 TRIPPED, stands of the set READY and the others OUT, RESET_STOP HELD. -/
def mixed : State := withTable [resetStopRecord] (withState 4 .local_ (withState 5 .tripped idle))

theorem witness_SoftReset :
    (HostFree rolling ∧ (rolling.seq 0).state = .roll) ∧ HostFree mixed ∧
      (∀ k, (mixed.seq k).state ≠ .thread ∧ (mixed.seq k).state ≠ .roll ∧ (mixed.seq k).state ≠ .tail) ∧
      ((mixed.seq 4).state = .local_ ∧ (mixed.seq 4).handover = none) ∧
      ((mixed.seq 5).state = .tripped ∧ (mixed.seq 5).handover = none) ∧
      ((mixed.seq 0).state = .ready ∧ (mixed.seq 0).handover = none ∧ mixed.inSet 0 = true) ∧
      ((mixed.seq 1).state = .out ∧ (mixed.seq 1).handover = none ∧ mixed.inSet 1 = false) ∧
      ∀ r, mixed.recordOf .resetStop = some r → r.state ≠ .acked :=
  ⟨⟨free_of _ (by decide +kernel), by decide +kernel⟩, free_of _ (by decide +kernel), by decide +kernel,
    by decide +kernel, by decide +kernel, by decide +kernel, by decide +kernel,
    some_of (x := resetStopRecord) (by decide +kernel) (by decide)⟩

/-- A handover of each direction, and a record of each state, at a soft reset of an ARMED mill. -/
theorem witness_SoftReset_kept :
    let s := withTable [record .hostStop .held .millStop true, record (.stand .driveFault 1) .raised .note false,
      record (.stand .loopPull 2) .raised .note false, record .exitStale .acked .note false]
      (inHandover 6 .toLocal (some .setup) 1 (inHandover 5 .toCoord none 60000 armed))
    HostFree s ∧ (∀ k, (s.seq k).state ≠ .thread ∧ (s.seq k).state ≠ .roll ∧ (s.seq k).state ≠ .tail) ∧
      vget s.sch.config.actions 0 = .millStop ∧ (s.seq 6).handover = some ⟨.toLocal, some .setup, 1⟩ ∧
      (s.seq 5).handover = some ⟨.toCoord, none, 60000⟩ ∧ kindEnabled s.hlk.mask (.handoverDone 6) = true ∧
      s.recordOf .hostStop = some (record .hostStop .held .millStop true) ∧
      s.recordOf (.stand .loopPull 2) = some (record (.stand .loopPull 2) .raised .note false) ∧
      s.recordOf .exitStale = some (record .exitStale .acked .note false) ∧ s.recordOf (.stopInput 3) = none ∧
      (inHandover 6 .toLocal (some .tripped) 1 armed).recordOf .resetStop = none :=
  ⟨free_of _ (by decide +kernel), by decide +kernel⟩

/-- R37, R40, R112, R122: a soft reset empties the slots, and the OPEN setpoints of the stands that RESET_STOP then opens wait
behind the frame in transmission, or begin with the first of them on an idle line; the gap record keeps its last sent. -/
theorem test_soft_reset_field_line :
    let s := idle.withFlc { idle.flc with slots := vset (vset idle.flc.slots 0 (some ⟨.track, 2300⟩)) 1 (some ⟨.hold, 7⟩) }
    let busy := after (.softReset 3 []) s
    let free := after (.softReset 3 []) (s.withFlc { s.flc with tx := none })
    vget busy.flc.slots 0 = some ⟨.open_, 20000⟩ ∧ vget busy.flc.slots 1 = none ∧ busy.flc.tx = s.flc.tx ∧
      busy.flc.seqs = s.flc.seqs ∧ (busy.gap 0).lastSent = some ⟨.preset, 2280⟩ ∧
      (free.flc.tx.map fun f => (f.stand, f.setpoint)) = some (0, ⟨.open_, 20000⟩) ∧ vget free.flc.slots 0 = none ∧
      vget free.flc.slots 2 = some ⟨.open_, 20000⟩ ∧ (free.gap 0).lastSent = some ⟨.open_, 20000⟩ := by
  decide +kernel

/-- Stands that a soft reset newly opens, one with a tag and one without, and one that stays TRIPPED. -/
theorem witness_SoftReset_slots :
    HostFree mixed ∧ ((after (.softReset 3 []) mixed).seq 0).state = .tripped ∧ (mixed.seq 0).state ≠ .tripped ∧
      mixed.record 0 = some { rec3 with ms := 64, iLim := 30 } ∧ vget mixed.sch.config.tags 0 ≠ 0 ∧
      vget (mixed.withSch { mixed.sch with config := ConfigRecord.default }).sch.config.tags 0 = 0 ∧
      ((after (.softReset 3 []) mixed).seq 5).state = .tripped ∧ (mixed.seq 5).state = .tripped ∧
      (mixed.seq 5).handover = none ∧ mixed.flc.tx ≠ none ∧ (mixed.withFlc { mixed.flc with tx := none }).flc.tx = none :=
  ⟨free_of _ (by decide +kernel), by decide +kernel⟩

theorem witness_FirstTickSettles :
    Running State.reset ∧ State.reset.plu.settled = false ∧ pinActive { pinsAt 4 with stop := 7 } (.stop 3) = true ∧
      (∀ n, pinActive (pinsAt 4) (.stop n) = false) ∧ Running rolling ∧ rolling.plu.settled = true :=
  ⟨run_of _ (by decide +kernel), by decide +kernel, by decide +kernel, by decide +kernel, run_of _ (by decide +kernel),
    by decide +kernel⟩

theorem witness_TickCountsAndSamples :
    rolling.inReset = false ∧ rolling.plu.settled = true ∧ NothingDue rolling := by
  refine ⟨by decide +kernel, by decide +kernel, fun i => ?_, by decide +kernel, by decide +kernel, by decide +kernel, by decide +kernel,
    fun k => none_of ?_ _, by decide +kernel⟩
  · have h : (∀ k : Stand, (rolling.filter (.hmd k)).due = false) ∧ (∀ n : StopNo, (rolling.filter (.stop n)).due = false) ∧
        ∀ k : Stand, (rolling.filter (.panel k)).due = false := by decide +kernel
    cases i with
    | hmd k => exact h.1 k
    | stop n => exact h.2.1 n
    | panel k => exact h.2.2 k
  · revert k
    decide +kernel

theorem witness_FilterAcceptTakesSample :
    Running rolling ∧ (rolling.filter (.panel 7)).due = false ∧
      Running (dueAt (.stop 3) { pinsAt 0x0F with stop := 7 } rolling) ∧
      ((dueAt (.stop 3) { pinsAt 0x0F with stop := 7 } rolling).filter (.stop 3)).due = true :=
  ⟨run_of _ (by decide +kernel), by decide +kernel, run_of _ (by decide +kernel), by decide +kernel⟩

/-- Panels pressed (low) at the stands of a mask, every loop closed. -/
def panelsAt (panel : BitVec 8) : InputPins := { hmd := 0x0F, stop := 0xF, panel := ~~~panel }

/-- The panel changes that confirm a handover of either direction, and two that do not. -/
theorem witness_FilterAcceptTakesSample_panel :
    (let s := dueAt (.panel 6) (panelsAt 0x40) (inHandover 6 .toLocal (some .out) 1 rolling);
      Running s ∧ (s.filter (.panel 6)).due = true ∧ pinActive s.plu.pins (.panel 6) = true ∧
        (s.seq 6).handover = some ⟨.toLocal, some .out, 1⟩ ∧ s.hlk.tx ≠ none ∧
        kindEnabled s.hlk.mask (.handoverDone 6) = true ∧ (s.seq 5).handover = none) ∧
    (let s := dueAt (.panel 6) (panelsAt 0) (inHandover 6 .toCoord none 60000 rolling);
      Running s ∧ (s.filter (.panel 6)).due = true ∧ pinActive s.plu.pins (.panel 6) = false ∧
        (s.seq 6).handover = some ⟨.toCoord, none, 60000⟩) :=
  ⟨⟨run_of _ (by decide +kernel), by decide +kernel⟩, run_of _ (by decide +kernel), by decide +kernel⟩

/-- A stop loop that opens during a handover (R133). -/
theorem witness_FilterAcceptTakesSample_abort :
    let s := dueAt (.stop 3) { pinsAt 0x0F with stop := 7 } (inHandover 6 .toLocal (some .tripped) 1 rolling)
    Running s ∧ (s.filter (.stop 3)).due = true ∧ pinActive s.plu.pins (.stop 3) = true ∧
      s.recordOf (.stopInput 3) = none ∧ vget s.sch.config.actions 2 = .millStop ∧ s.stk.mill ≠ .tailout ∧
      (s.seq 6).state = .handover ∧ (s.seq 6).handover = some ⟨.toLocal, some .tripped, 1⟩ ∧
      ((inHandover 6 .toCoord none 1 rolling).seq 6).handover = some ⟨.toCoord, none, 1⟩ :=
  ⟨run_of _ (by decide +kernel), by decide +kernel⟩

/-- `rolling` with stand 4 in a dropout. -/
def dropping : State := rolling.modPresence 3 fun _ => ⟨.dropout, 1200000000⟩

theorem witness_DropoutStartsAndEnds :
    (Running (dueAt (.hmd 3) (pinsAt 7) rolling) ∧ ((dueAt (.hmd 3) (pinsAt 7) rolling).filter (.hmd 3)).due = true ∧
      ((dueAt (.hmd 3) (pinsAt 7) rolling).presence 3).state = .present ∧ pinActive (pinsAt 7) (.hmd 3) = false) ∧
    (Running (dueAt (.hmd 3) (pinsAt 15) dropping) ∧ ((dueAt (.hmd 3) (pinsAt 15) dropping).filter (.hmd 3)).due = true ∧
      ((dueAt (.hmd 3) (pinsAt 15) dropping).presence 3).state = .dropout ∧ pinActive (pinsAt 15) (.hmd 3) = true) :=
  ⟨⟨run_of _ (by decide +kernel), by decide +kernel⟩, run_of _ (by decide +kernel), by decide +kernel⟩

theorem witness_HeadStartsCoil :
    let s := dueAt (.hmd 0) (pinsAt 1) armed
    Running s ∧ (s.filter (.hmd 0)).due = true ∧ pinActive s.plu.pins (.hmd 0) = true ∧ (s.presence 0).state = .absent ∧
      s.inSet 0 = true ∧ (s.seq 0).state = .ready ∧ s.firstActive = some 0 ∧ s.stk.mill = .armed ∧
      (s.chan (forceCh 0)).state = .fresh ∧ (s.chan (gapCh 0)).state = .fresh ∧ s.stk.nextSeg ∉ s.stk.heldNumbers :=
  ⟨run_of _ (by decide +kernel), by decide +kernel⟩

/-- Stand 4 READY and tail-marked, with the head of coil 7 before it. -/
def approaching : State :=
  let s := (withState 3 .ready (rolling.setBite 3 none)).modPresence 3 fun _ => ⟨.absent, 0⟩
  dueAt (.hmd 3) (pinsAt 0x0F)
    ((s.setFilter (.hmd 3) Filter.cleared).withStk { s.stk with tailMarks := vset s.stk.tailMarks 3 true })

/-- A state with one row of the action table replaced. -/
def withAction (n : Fin 12) (a : Action) (s : State) : State :=
  s.withSch { s.sch with config := { s.sch.config with actions := vset s.sch.config.actions n a } }

/-- The head at a stand other than the first, with and without a record in the span into it; and its entry with a channel not
FRESH, under an action that lets it thread, under one that opens it, and with a record already there. -/
theorem witness_HeadStartsCoil_other :
    (let s := approaching;
      Running s ∧ (s.filter (.hmd 3)).due = true ∧ pinActive s.plu.pins (.hmd 3) = true ∧ (s.presence 3).state = .absent ∧
        s.inSet 3 = true ∧ (s.seq 3).state = .ready ∧ s.firstActive ≠ some 3 ∧ s.stk.mill = .rolling ∧
        (s.chan (forceCh 3)).state = .fresh ∧ (s.chan (gapCh 3)).state = .fresh ∧
        (s.span (spanInto 3)).head? = some (seg 206) ∧ ((s.setSpan 2 []).span (spanInto 3)).head? = none) ∧
    (let s := approaching.modChan (gapCh 3) fun c => { c with state := .stale };
      Running s ∧ (s.chan (gapCh 3)).state ≠ .fresh ∧ vget s.sch.config.actions 5 = .freeze ∧
        vget (withAction 5 .millStop s).sch.config.actions 5 = .millStop ∧ Running (withAction 5 .open_ s) ∧
        vget (withAction 5 .open_ s).sch.config.actions 5 = .open_ ∧
        (withAction 5 .open_ s).recordOf (.stand .sampleStale 3) = none ∧
        (withTable [record (.stand .sampleStale 3) .held .open_ true] s).recordOf (.stand .sampleStale 3) ≠ none) :=
  ⟨⟨run_of _ (by decide +kernel), by decide +kernel⟩, run_of _ (by decide +kernel), by decide +kernel, by decide +kernel,
    by decide +kernel, run_of _ (by decide +kernel), by decide +kernel⟩

/-- R69, R71, R144: the head takes the oldest record of the span; an entry that SAMPLE_STALE opens takes none. -/
theorem test_head_at_another_stand :
    let t := after (.filterAccept (.hmd 3)) approaching
    let u := after (.filterAccept (.hmd 3))
      (withAction 5 .open_ (approaching.modChan (gapCh 3) fun c => { c with state := .stale }))
    (t.seq 3).state = .thread ∧ (vget t.stk.bites 3).map (·.seg) = some 206 ∧ (t.span 2).map (·.seg) = [207] ∧
      vget t.stk.tailMarks 3 = false ∧ (u.seq 3).state = .tripped ∧ vget u.stk.bites 3 = none ∧
      (u.recordOf (.stand .sampleStale 3)).map (·.state) = some .held := by
  decide +kernel

/-- A mill record that takes the entry gauge, its channel above the range of a thickness. -/
theorem witness_HeadStartsCoil_gauge :
    let s := (dueAt (.hmd 0) (pinsAt 1) armed).withSch { armed.sch with
      active := { armed.sch.active with bank := { bank3 with mill := some { mill3 with entrySource := .gauge } } } }
    let s := s.modChan 24 fun _ => freshChan 65001
    Running s ∧ s.millRec = some { mill3 with entrySource := .gauge } ∧ (s.chan 24).state = .fresh ∧
      (65000 : Int) = max 0 (min 65000 (s.chan 24).value) ∧ armed.millRec = some mill3 ∧ mill3.entrySource = .schedule :=
  ⟨run_of _ (by decide +kernel), by decide +kernel⟩

/-- The hypotheses of `HeadRaisesUnready` at the last stand of the set, but for its state. -/
theorem head_at_4 (st : StandState) (m : MillState) :
    let s := dueAt (.hmd 3) (pinsAt 8) (withState 3 st (armed.withStk { armed.stk with mill := m }))
    Running s ∧ (s.filter (.hmd 3)).due = true ∧ pinActive s.plu.pins (.hmd 3) = true ∧ (s.presence 3).state = .absent ∧
      s.inSet 3 = true ∧ ∀ r, s.recordOf (.stand .unready 3) = some r → r.state = .held :=
  ⟨run_of _ (by cases st <;> cases m <;> decide +kernel), by cases st <;> cases m <;> decide +kernel,
    by cases st <;> cases m <;> decide +kernel, by cases st <;> cases m <;> decide +kernel,
    by cases st <;> cases m <;> decide +kernel, none_of (by cases st <;> cases m <;> decide +kernel) _⟩

theorem witness_HeadRaisesUnready :
    ((withState 3 .setup armed).seq 3).state = .setup ∧ ((withState 3 .tail armed).seq 3).state = .tail ∧
      (armed.seq 3).state = .ready ∧ armed.firstActive ≠ some 3 ∧ armed.stk.mill ≠ .rolling ∧
      ∀ r, (withTable [record (.stand .unready 3) .held .millStop true] armed).recordOf (.stand .unready 3) = some r →
        r.state = .held :=
  ⟨by decide +kernel, by decide +kernel, by decide +kernel, by decide +kernel, by decide +kernel,
    some_of (x := record (.stand .unready 3) .held .millStop true) (by decide +kernel) rfl⟩

/-- A state without trip records whose persistence counters are 0. -/
theorem scopes_of (s : State) (h : s.tmx.table = [] ∧ ∀ k, vget s.tmx.forceCnt k = 0 ∧ vget s.tmx.gapCnt k = 0) :
    ScopesOk s := by
  refine ⟨fun key hk => ?_, fun k _ => (h.2 k).1, fun k _ => (h.2 k).2, fun k => by rw [(h.2 k).1, (h.2 k).2]; decide⟩
  simp [State.present, State.recordOf, h.1] at hk

/-- Heads at a stand outside the active set and at one of the set in TRIPPED. -/
theorem witness_HeadRaisesUnready_none :
    (let s := dueAt (.hmd 6) (pinsAt 0x40) armed;
      Running s ∧ (s.filter (.hmd 6)).due = true ∧ pinActive s.plu.pins (.hmd 6) = true ∧ (s.presence 6).state = .absent ∧
        s.inSet 6 = false ∧ s.hlk.tx ≠ none ∧ kindEnabled s.hlk.mask (.standState 6) = true) ∧
    (let s := dueAt (.hmd 3) (pinsAt 8) (withState 3 .tripped armed);
      Running s ∧ (s.filter (.hmd 3)).due = true ∧ pinActive s.plu.pins (.hmd 3) = true ∧ (s.presence 3).state = .absent ∧
        s.inSet 3 = true ∧ (s.seq 3).state = .tripped ∧ ScopesOk s) :=
  ⟨⟨run_of _ (by decide +kernel), by decide +kernel⟩, run_of _ (by decide +kernel), by decide +kernel, by decide +kernel,
    by decide +kernel, by decide +kernel, by decide +kernel, scopes_of _ (by decide +kernel)⟩

/-- R116: a head at a TRIPPED stand of an ARMED mill threads and raises nothing. -/
theorem test_head_at_tripped_stand :
    let t := after (.filterAccept (.hmd 0)) (dueAt (.hmd 0) (pinsAt 1) (withState 0 .tripped armed))
    (t.seq 0).state = .tripped ∧ t.stripPresent 0 = true ∧ t.tmx.table = [] ∧ t.stk.mill = .armed ∧
      vget t.stk.bites 0 = none := by
  decide +kernel

/-- `rolling` with stand 3's accumulator at a count. -/
def accAt (n : Nat) : State := rolling.withPlu { rolling.plu with acc := vset rolling.plu.acc 2 n }

theorem witness_EncoderPulseMeasures :
    (Running rolling ∧ (rolling.presence 7).state ≠ .dropout ∧ rolling.record 7 = none) ∧
      Running (accAt 1499435999) ∧ ((accAt 1499435999).presence 2).state ≠ .dropout ∧
      (accAt 1499435999).record 2 = some rec3 ∧ vget (accAt 1499435999).plu.acc 2 + rec3.e < rec3.lSeg * 1000000 :=
  ⟨⟨run_of _ (by decide +kernel), by decide +kernel⟩, run_of _ (by decide +kernel), by decide +kernel⟩

/-- The last pulse of a dropout that confirms no tail, at a stand with a record and at one without. -/
theorem witness_EncoderPulseMeasures_dropout :
    (let s := rolling.modPresence 2 fun _ => ⟨.dropout, 1999435999⟩;
      Running s ∧ (s.presence 2).state = .dropout ∧ s.record 2 = some rec3 ∧
        vget s.plu.acc 2 + rec3.e < rec3.lSeg * 1000000 ∧ (s.presence 2).measurer + rec3.e < rec3.tConf * 1000000) ∧
    (let s := rolling.modPresence 7 fun _ => ⟨.dropout, 998999999⟩;
      Running s ∧ (s.presence 7).state = .dropout ∧ s.record 7 = none ∧
        (s.presence 7).measurer + 1000000 < 1000 * 1000000) :=
  ⟨⟨run_of _ (by decide +kernel), by decide +kernel⟩, run_of _ (by decide +kernel), by decide +kernel⟩

/-- R51: the measurer advances by E, and by 1 mm at a stand without a record. -/
theorem test_measurer_advances :
    (after (.encoderPulse 3 ⟨true, 1000⟩) dropping).presence 3 = ⟨.dropout, 1200564000⟩ ∧
      (after (.encoderPulse 7 ⟨true, 1000⟩) (rolling.modPresence 7 fun _ => ⟨.dropout, 0⟩)).presence 7 =
        ⟨.dropout, 1000000⟩ := by
  decide +kernel

theorem witness_BiteAdvancePushesAndRefills :
    let s := accAt 1499436000
    Running s ∧ (s.presence 2).state = .present ∧ s.record 2 = some rec3 ∧
      rec3.lSeg * 1000000 ≤ vget s.plu.acc 2 + rec3.e ∧ s.inSet 2 = true ∧ s.stk.mill ≠ .tailout ∧ s.isFirst 2 = false ∧
      s.isLast 2 = false ∧ s.nextActive 2 = some 3 ∧ vget s.stk.tailMarks 3 = false ∧ s.stk.mill = .rolling ∧
      (s.seq 2).state = .roll ∧ vget s.stk.bites 2 = some (seg 208) ∧ (s.span (spanInto 3)).length < 24 ∧
      s.activeSet.Pairwise (· < ·) :=
  ⟨run_of _ (by decide +kernel), by decide +kernel⟩

/-- An advance in a dropout that the pulse does not confirm; and advances that the tracker ignores: in IDLE, without strip, at a
stand in SETUP with strip, outside the active set, and at the tail-marked last stand with the exit span empty. -/
theorem witness_BiteAdvancePushesAndRefills_presence :
    (let s := (accAt 1499436000).modPresence 2 fun _ => ⟨.dropout, 1999435999⟩;
      Running s ∧ s.record 2 = some rec3 ∧ rec3.lSeg * 1000000 ≤ vget s.plu.acc 2 + rec3.e ∧
        (s.presence 2).state = .dropout ∧ (s.presence 2).measurer + rec3.e < rec3.tConf * 1000000 ∧ s.inSet 2 = true ∧
        s.stripPresent 2 = true) ∧
    (let s := (accAt 1499436000).withStk { rolling.stk with mill := .idle };
      Running s ∧ (s.seq 2).state ≠ .thread ∧ s.stk.mill = .idle) ∧
    (let s := (accAt 1499436000).modPresence 2 fun _ => ⟨.absent, 0⟩;
      Running s ∧ s.isLast 2 = false ∧ s.stripPresent 2 = false) ∧
    (let s := withState 2 .setup (accAt 1499436000); Running s ∧ (s.seq 2).state = .setup) ∧
    (let s := rolling.withPlu { rolling.plu with acc := vset rolling.plu.acc 1 1499436000 };
      Running s ∧ s.record 1 = some rec3 ∧ s.inSet 1 = false ∧ rec3.lSeg * 1000000 ≤ vget s.plu.acc 1 + rec3.e) ∧
    (let s := (rolling.setSpan 7 []).withStk { (rolling.setSpan 7 []).stk with
          tailMarks := vset rolling.stk.tailMarks 3 true };
      Running s ∧ s.isLast 3 = true ∧ vget s.stk.tailMarks 3 = true ∧ s.stk.mill = .rolling ∧ s.span exitSpan = []) :=
  ⟨⟨run_of _ (by decide +kernel), by decide +kernel⟩, ⟨run_of _ (by decide +kernel), by decide +kernel⟩,
    ⟨run_of _ (by decide +kernel), by decide +kernel⟩, ⟨run_of _ (by decide +kernel), by decide +kernel⟩,
    ⟨run_of _ (by decide +kernel), by decide +kernel⟩, run_of _ (by decide +kernel), by decide +kernel⟩

/-- `rolling` with an advance of stand 1, the first of the set, at its next pulse. -/
def feeding : State := rolling.withPlu { rolling.plu with acc := vset rolling.plu.acc 0 1499436000 }

/-- `accAt` with the span out of stand 3 holding a number of records. -/
def crowded (n : Nat) : State := (accAt 1499436000).setSpan 2 ((List.range n).map fun i => seg (i + 1))

/-- The pushes and refills: a TRIPPED stand, the first stand with and without its own tail mark, a span of 23 and a full one,
a tail mark downstream, a starved bite, and TAILOUT. -/
theorem witness_BiteAdvancePushesAndRefills_forms :
    (Running (withState 2 .tripped (accAt 1499436000)) ∧
      ((withState 2 .tripped (accAt 1499436000)).seq 2).state = .tripped ∧
      (withState 2 .tripped (accAt 1499436000)).stk.ring.length ≤ 32) ∧
    (let s := feeding;
      Running s ∧ (s.presence 0).state = .present ∧ s.record 0 = some { rec3 with ms := 64, iLim := 30 } ∧
        rec3.lSeg * 1000000 ≤ vget s.plu.acc 0 + rec3.e ∧ s.inSet 0 = true ∧ s.isLast 0 = false ∧ s.isFirst 0 = true ∧
        s.nextActive 0 = some 2 ∧ (s.seq 0).state = .roll ∧ s.stk.mill = .rolling ∧ vget s.stk.tailMarks 0 = false ∧
        s.stk.nextSeg ∉ s.stk.heldNumbers ∧
        vget (s.withStk { s.stk with tailMarks := vset s.stk.tailMarks 0 true }).stk.tailMarks 0 = true) ∧
    (Running (crowded 24) ∧ ((crowded 24).span (spanInto 3)).length = 24 ∧
      ((crowded 23).span (spanInto 3)).length = 23) ∧
    (let s := (crowded 2).withStk { (crowded 2).stk with tailMarks := vset rolling.stk.tailMarks 3 true };
      Running s ∧ vget s.stk.tailMarks 3 = true ∧ vget s.stk.bites 2 = some (seg 208)) ∧
    vget ((accAt 1499436000).setBite 2 none).stk.bites 2 = none ∧
    (let s := (accAt 1499436000).withStk { rolling.stk with mill := .tailout };
      Running s ∧ s.stk.mill = .tailout ∧ vget s.stk.tailMarks 3 = false ∧ vget s.stk.bites 2 ≠ none) :=
  ⟨⟨run_of _ (by decide +kernel), by decide +kernel⟩, ⟨run_of _ (by decide +kernel), by decide +kernel⟩,
    ⟨run_of _ (by decide +kernel), by decide +kernel⟩, ⟨run_of _ (by decide +kernel), by decide +kernel⟩,
    by decide +kernel, run_of _ (by decide +kernel), by decide +kernel⟩

/-- R62, R70, R73, R74, R76: the four pushes on which the tracker does more than move a record. -/
theorem test_pushes :
    let full := after (.encoderPulse 2 ⟨true, 1000⟩) (crowded 24)
    let trip := after (.encoderPulse 2 ⟨true, 1000⟩) (withState 2 .tripped (accAt 1499436000))
    let tail := after (.encoderPulse 2 ⟨true, 1000⟩)
      ((crowded 2).withStk { (crowded 2).stk with tailMarks := vset rolling.stk.tailMarks 3 true })
    let first := after (.encoderPulse 0 ⟨true, 1000⟩) feeding
    (full.stk.ring.map fun g => (g.seg, g.flags.lost)) = [(1, true)] ∧ (full.span 2).length = 24 ∧
      ((trip.span 2).getLast?.map fun g => (g.flags.trip, g.estH)) = some (true, none) ∧
      (tail.stk.ring.map fun g => (g.seg, g.flags.discarded)) = [(208, true)] ∧ (tail.span 2).length = 2 ∧
      (vget first.stk.bites 0).map (·.seg) = some 212 ∧ first.stk.nextSeg = 213 ∧ first.stk.allocated = 12 ∧
      (first.span 1).map (·.seg) = [209, 210, 211] := by
  decide +kernel

/-- The span into stand 3 just below N − T after the advance (R147), and, beyond it, the span into stand 4 at N + T + 1 in
ROLL and at N + H in READY (R146, R147). -/
theorem witness_BiteAdvancePushesAndRefills_counts :
    (let s := accAt 1499436000;
      s.prevActive 2 = some 0 ∧ (s.seq 0).state = .roll ∧ s.spanEntry 2 = some { n := 3, t := 1, h := 2 } ∧
        s.span (spanInto 2) ≠ [] ∧ ((s.span (spanInto 2)).length : Int) - 1 < 3 - 1 ∧
        s.recordOf (.stand .loopPull 2) = none) ∧
    (let s := ((accAt 1499436000).setSpan 1 []).setSpan 2 [seg 1, seg 2, seg 3, seg 4];
      Running s ∧ s.span (spanInto 2) = [] ∧ s.spanEntry 3 = some { n := 3, t := 1, h := 2 } ∧ (s.seq 3).state = .roll ∧
        3 + 1 < (s.span (spanInto 3)).length + 1 ∧ s.recordOf (.stand .loopGrow 3) = none) ∧
    (let s := (accAt 1499436000).setSpan 1 [seg 5, seg 6, seg 7];
      (s.span (spanInto 2)).length - 1 ≤ 3 + 1 ∧ 3 ≤ (s.span (spanInto 2)).length - 1 + 1) ∧
    (let s := ((withState 3 .ready (accAt 1499436000)).setSpan 2 [seg 1, seg 2, seg 3, seg 4]).modPresence 3 fun _ =>
        ⟨.absent, 0⟩;
      Running s ∧ (s.seq 3).state = .ready ∧ s.stripPresent 3 = false ∧ 3 + 2 ≤ (s.span (spanInto 3)).length + 1 ∧
        s.recordOf (.stand .headOverdue 3) = none) :=
  ⟨by decide +kernel, ⟨run_of _ (by decide +kernel), by decide +kernel⟩, by decide +kernel,
    run_of _ (by decide +kernel), by decide +kernel⟩

/-- Section 9.2, row 14: the push of 205 at the last stand, the exit span at N_x. -/
theorem witness_BiteAdvancePushesAndRefills_exit :
    let s := rolling.withPlu { rolling.plu with acc := vset rolling.plu.acc 3 1499436000 }
    Running s ∧ (s.presence 3).state = .present ∧ s.record 3 = some { rec3 with ms := 256, iLim := 60 } ∧
      rec3.lSeg * 1000000 ≤ vget s.plu.acc 3 + rec3.e ∧ s.inSet 3 = true ∧ s.activeSet.Pairwise (· < ·) ∧
      s.isFirst 3 = false ∧ s.isLast 3 = true ∧ vget s.stk.tailMarks 3 = false ∧ s.stk.mill = .rolling ∧
      (s.seq 3).state = .roll ∧ vget s.stk.bites 3 = some (seg 205) ∧ s.millRec = some mill3 ∧
      s.span exitSpan = seg 201 :: [seg 202, seg 203, seg 204] ∧ 3 + 1 = mill3.nX ∧ mill3.nX < 24 ∧
      s.stk.ring.length ≤ 32 ∧ s.recordOf .exitStale = none :=
  ⟨run_of _ (by decide +kernel), by decide +kernel⟩

/-- The mill with stand 4 alone in its active set. -/
def alone : State :=
  let s := rolling.withPlu { rolling.plu with acc := vset rolling.plu.acc 3 1499436000 }
  s.withSch { s.sch with
    active := { s.sch.active with bank := { bank3 with mill := some { mill3 with activeSet := [3] } } } }

/-- An exit span shorter than N_x, an EXIT_STALE record HELD, and a set of one stand, whose last stand allocates. -/
theorem witness_BiteAdvancePushesAndRefills_exitForms :
    (let s := (rolling.withPlu { rolling.plu with acc := vset rolling.plu.acc 3 1499436000 }).setSpan 7
        [seg 202, seg 203, seg 204];
      Running s ∧ (s.span exitSpan).length < mill3.nX ∧ s.isFirst 3 = false) ∧
    (withTable [record .exitStale .held .note true] rolling).recordOf .exitStale =
      some (record .exitStale .held .note true) ∧
    (let s := alone;
      Running s ∧ (s.presence 3).state = .present ∧ s.record 3 = some { rec3 with ms := 256, iLim := 60 } ∧
        rec3.lSeg * 1000000 ≤ vget s.plu.acc 3 + rec3.e ∧ s.inSet 3 = true ∧ s.activeSet.Pairwise (· < ·) ∧
        s.isFirst 3 = true ∧ s.isLast 3 = true ∧ vget s.stk.tailMarks 3 = false ∧ s.stk.mill = .rolling ∧
        (s.seq 3).state = .roll ∧ vget s.stk.bites 3 = some (seg 205) ∧
        s.millRec = some { mill3 with activeSet := [3] } ∧ (s.chan 25).state = .fresh) :=
  ⟨⟨run_of _ (by decide +kernel), by decide +kernel⟩, by decide +kernel, run_of _ (by decide +kernel), by decide +kernel⟩

/-- Stand 3 in THREAD at its last advance before lock-on, and one advance earlier. -/
theorem witness_BiteAdvancePushesAndRefills_lockOn :
    let s := (withState 2 .thread (accAt 1499436000)).modGap 2 fun g => { g with lockCount := 1, locked := false }
    Running s ∧ s.isLast 2 = false ∧ s.activeSet.Pairwise (· < ·) ∧ s.nextActive 2 = some 3 ∧ (s.seq 3).state ≠ .ready ∧
      (s.gap 2).lockCount < rec3.lockDelay ∧ (s.gap 2).lockCount + 1 = rec3.lockDelay ∧ (s.gap 2).hGm = some 3150 ∧
      (s.gap 2).stale = false ∧ ((s.modGap 2 fun g => { g with lockCount := 0 }).gap 2).lockCount + 1 < rec3.lockDelay :=
  ⟨run_of _ (by decide +kernel), by decide +kernel⟩

/-- The three span conditions below OPEN. -/
def spansQuiet (s : State) : State := withAction 7 .note (withAction 8 .freeze (withAction 9 .note s))

theorem noSpanTrip_of (s : State)
    (h : vget s.sch.config.actions 7 = .note ∧ vget s.sch.config.actions 8 = .freeze ∧ vget s.sch.config.actions 9 = .note) :
    NoSpanTrip s := by
  intro c j hc
  left
  obtain rfl | rfl | rfl := hc
  · exact .inl h.1
  · exact .inr h.2.1
  · exact .inl h.2.2

/-- Lock-on before a READY stand, and at the last stand with an arrival at a FRESH gauge and with none. -/
theorem witness_BiteAdvancePushesAndRefills_lockOn_forms :
    (let s := spansQuiet (withState 3 .ready ((withState 2 .thread (accAt 1499436000)).modGap 2 fun g =>
        { g with lockCount := 1, locked := false }));
      Running s ∧ NoSpanTrip s ∧ s.activeSet.Pairwise (· < ·) ∧ s.nextActive 2 = some 3 ∧ (s.seq 3).state = .ready ∧
        s.isLast 2 = false ∧ (s.gap 2).lockCount < rec3.lockDelay) ∧
    (let s := (withState 3 .thread (rolling.withPlu { rolling.plu with acc := vset rolling.plu.acc 3 1499436000 })).modGap 3
        fun g => { g with lockCount := 1, locked := false };
      (Running s ∧ s.inSet 3 = true ∧ s.stripPresent 3 = true ∧ s.isLast 3 = true ∧ (s.seq 3).state = .thread ∧
        (s.chan 25).state = .fresh ∧ (s.span exitSpan).length = mill3.nX ∧ (s.gap 3).lockCount + 1 = rec3.lockDelay ∧
        (s.gap 3).hGm = some 3150 ∧ (s.gap 3).stale = false) ∧
      Running (s.setSpan 7 [seg 203]) ∧ vget (s.setSpan 7 [seg 203]).stk.tailMarks 3 = false ∧
        ∃ m, (s.setSpan 7 [seg 203]).millRec = some m ∧ ((s.setSpan 7 [seg 203]).span exitSpan).length < m.nX) :=
  ⟨⟨run_of _ (by decide +kernel), noSpanTrip_of _ (by decide +kernel), by decide +kernel⟩,
    ⟨run_of _ (by decide +kernel), by decide +kernel⟩, run_of _ (by decide +kernel), by decide +kernel,
    mill3, by decide +kernel, by decide +kernel⟩

/-- `rolling` with stand 3 empty of strip records and at the end of its dropout. -/
def lastPulse : State :=
  ((rolling.setBite 2 none).setSpan (spanInto 2) []).modPresence 2 fun _ => ⟨.dropout, 1999436000⟩

theorem witness_TailConfirmed :
    (Running lastPulse ∧ (lastPulse.presence 2).state = .dropout ∧ lastPulse.record 2 = some rec3 ∧
      vget lastPulse.plu.acc 2 + rec3.e < rec3.lSeg * 1000000 ∧
      rec3.tConf * 1000000 ≤ (lastPulse.presence 2).measurer + rec3.e ∧ lastPulse.stk.mill = .rolling ∧
      lastPulse.inSet 2 = true ∧ lastPulse.isFirst 2 = false ∧ vget lastPulse.stk.bites 2 = none ∧
      lastPulse.span (spanInto 2) = [] ∧ (lastPulse.seq 2).state = .roll) ∧
    Running (rolling.modPresence 7 fun _ => ⟨.dropout, 999000000⟩) ∧
      ((rolling.modPresence 7 fun _ => ⟨.dropout, 999000000⟩).presence 7) = ⟨.dropout, 999000000⟩ ∧
      rolling.record 7 = none :=
  ⟨⟨run_of _ (by decide +kernel), by decide +kernel⟩, run_of _ (by decide +kernel), by decide +kernel⟩

/-- A stand at the end of its dropout. -/
def dropped (k : Stand) (s : State) : State := s.modPresence k fun _ => ⟨.dropout, 1999436000⟩

/-- Section 9.2: the tail of stand 1, the first of the set. -/
theorem witness_TailConfirmed_first :
    let s := dropped 0 rolling
    Running s ∧ s.inSet 0 = true ∧ (s.seq 0).state = .roll ∧ s.stk.mill = .rolling ∧ s.isFirst 0 = true ∧
      s.nextActive 0 = some 2 ∧ vget s.stk.tailMarks 2 = false ∧ vget s.stk.bites 0 = some (seg 211) ∧
      (s.span (spanInto 2)).length < 24 ∧ s.activeSet.Pairwise (· < ·) ∧ (s.seq 2).state ≠ .ready :=
  ⟨run_of _ (by decide +kernel), by decide +kernel⟩

theorem test_tail_of_another_stand :
    let t := after (.encoderPulse 2 ⟨true, 1000⟩) (dropped 2 rolling)
    (t.seq 2).state = .tail ∧ (t.span 2).map (·.seg) = [206, 207, 208] ∧ t.span 1 = [] ∧
      (t.stk.ring.map fun g => (g.seg, g.flags.discarded)) = [(209, true), (210, true)] ∧ vget t.stk.tailMarks 2 = true ∧
      t.stk.mill = .rolling := by
  decide +kernel

/-- The pulse that both advances and confirms, at stand 3 (R52): both the bite and its refill are pushed. -/
theorem test_advance_and_tail :
    let s := (dropped 2 rolling).withPlu { (dropped 2 rolling).plu with acc := vset rolling.plu.acc 2 1499436000 }
    let t := after (.encoderPulse 2 ⟨true, 1000⟩) s
    (t.span 2).map (·.seg) = [206, 207, 208, 209] ∧ vget t.stk.bites 2 = none ∧
      (t.stk.ring.map fun g => (g.seg, g.flags.discarded)) = [(210, true)] ∧ (t.seq 2).state = .tail ∧
      vget t.plu.acc 2 = 0 := by
  decide +kernel

/-- A tail at a stand other than the first, in ROLL and TRIPPED, with records to push and to give up; at the last stand, its exit
span short and at N_x; at the only stand of a set; and outside the active set. -/
theorem witness_TailConfirmed_forms :
    (let s := dropped 2 rolling;
      Running s ∧ (s.presence 2).state = .dropout ∧ s.record 2 = some rec3 ∧ rec3.tConf * 1000000 ≤ 1999436000 + rec3.e ∧
        vget s.plu.acc 2 + rec3.e < rec3.lSeg * 1000000 ∧ s.inSet 2 = true ∧ s.isLast 2 = false ∧ s.isFirst 2 = false ∧
        s.nextActive 2 = some 3 ∧ (s.seq 3).state ≠ .ready ∧ s.activeSet.Pairwise (· < ·) ∧
        vget s.stk.bites 2 = some (seg 208) ∧ s.span (spanInto 2) = [seg 209, seg 210] ∧ s.stk.ring.length ≤ 32 ∧
        s.stk.retired ≤ 65535 ∧ s.hlk.tx ≠ none ∧ kindEnabled s.hlk.mask (.standState 2) = true) ∧
    (Running (withState 2 .tripped (dropped 2 rolling)) ∧
      ((withState 2 .tripped (dropped 2 rolling)).seq 2).state = .tripped) ∧
    (let s := (dropped 3 rolling).setSpan 7 [seg 203, seg 204];
      Running s ∧ s.isLast 3 = true ∧ s.isFirst 3 = false ∧ s.millRec = some mill3 ∧
        (s.span exitSpan).length + [seg 205].length ≤ mill3.nX ∧ mill3.nX < 24 ∧
        s.record 3 = some { rec3 with ms := 256, iLim := 60 }) ∧
    (let s := (dropped 3 rolling).setSpan 2 [];
      Running s ∧ s.span exitSpan = seg 201 :: [seg 202, seg 203, seg 204] ∧ 3 + 1 = mill3.nX ∧
        givenUp (s.span (spanInto 3)) = [] ∧ ∀ q ∈ s.tmx.table, q.state ≠ .acked) ∧
    (let s := (dropped 3 alone).withPlu { (dropped 3 alone).plu with acc := rolling.plu.acc };
      Running s ∧ s.isFirst 3 = true ∧ s.isLast 3 = true ∧ vget s.stk.bites 3 ≠ none ∧ s.inSet 3 = true) ∧
    (let s := dropped 1 rolling;
      Running s ∧ s.inSet 1 = false ∧ s.record 1 = some rec3 ∧ (s.presence 1).state = .dropout ∧ (s.seq 1).state = .out) :=
  ⟨⟨run_of _ (by decide +kernel), by decide +kernel⟩, ⟨run_of _ (by decide +kernel), by decide +kernel⟩,
    ⟨run_of _ (by decide +kernel), by decide +kernel⟩, ⟨run_of _ (by decide +kernel), by decide +kernel⟩,
    ⟨run_of _ (by decide +kernel), by decide +kernel⟩, run_of _ (by decide +kernel), by decide +kernel⟩

/-- `rolling` at a pulse that both advances and confirms at stand `k`, the span conditions below OPEN. -/
def bothAt (k : Stand) : State :=
  spansQuiet ((dropped k rolling).withPlu { (dropped k rolling).plu with acc := vset rolling.plu.acc k 1499436000 })

theorem bothAt_noSpanTrip (k : Stand) : NoSpanTrip (bothAt k) := by
  refine noSpanTrip_of _ ?_
  revert k
  decide +kernel

/-- The two records of such a pulse at a stand between the others, at the first, and at the last with the exit span short. -/
theorem witness_TailConfirmed_both :
    (let s := bothAt 2;
      Running s ∧ NoSpanTrip s ∧ s.record 2 = some rec3 ∧ rec3.lSeg * 1000000 ≤ vget s.plu.acc 2 + rec3.e ∧
        (s.presence 2).state = .dropout ∧ rec3.tConf * 1000000 ≤ (s.presence 2).measurer + rec3.e ∧ s.inSet 2 = true ∧
        s.stk.mill = .rolling ∧ (s.seq 2).state = .roll ∧ s.stk.ring.length ≤ 32 ∧ s.stk.retired ≤ 65535 ∧
        s.isLast 2 = false ∧ s.isFirst 2 = false ∧ s.nextActive 2 = some 3) ∧
    (let s := bothAt 0;
      Running s ∧ NoSpanTrip s ∧ s.isFirst 0 = true ∧ s.isLast 0 = false ∧ vget s.stk.tailMarks 0 = false ∧
        s.nextActive 0 = some 2 ∧ vget s.stk.tailMarks 2 = false ∧ (s.seq 0).state = .roll) ∧
    (let s := (bothAt 3).setSpan 7 [seg 203, seg 204];
      Running s ∧ s.isLast 3 = true ∧ s.isFirst 3 = false ∧ vget s.stk.tailMarks 3 = false ∧
        s.activeSet.Pairwise (· < ·) ∧ s.millRec = some mill3 ∧ (s.span exitSpan).length + 2 ≤ mill3.nX) :=
  ⟨⟨run_of _ (by decide +kernel), bothAt_noSpanTrip 2, by decide +kernel⟩,
    ⟨run_of _ (by decide +kernel), bothAt_noSpanTrip 0, by decide +kernel⟩, run_of _ (by decide +kernel), by decide +kernel⟩

/-- `rolling` in TAILOUT with its first two stands in TAIL and the records of a list in the exit span alone. -/
def ending (exit : List Segment) : State :=
  let s := withState 0 .tail (withState 2 .tail rolling)
  s.withStk { s.stk with
    mill := .tailout, bites := Vector.replicate 8 none, spans := vset (Vector.replicate 8 []) 7 exit
    tailMarks := vset (vset s.stk.tailMarks 0 true) 2 true }

/-- In TAILOUT with records held: a tail at a stand with another downstream, the span conditions below OPEN or not, and one at
the last stand, its exit span short and at N_x. -/
theorem witness_TailConfirmed_tailout :
    (let s := dropped 2 ((ending []).withStk { (ending []).stk with bites := vset rolling.stk.bites 0 none });
      Running s ∧ s.stk.mill = .tailout ∧ s.inSet 2 = true ∧ s.isLast 2 = false ∧ vget s.stk.bites 2 = some (seg 208) ∧
        s.nextActive 2 = some 3 ∧ vget s.stk.tailMarks 3 = false ∧ (s.seq 3).state = .roll ∧ NoSpanTrip (spansQuiet s) ∧
        s.activeSet.Pairwise (· < ·)) ∧
    (let s := dropped 3 ((ending [seg 203, seg 204]).withStk
        { (ending [seg 203, seg 204]).stk with bites := vset rolling.stk.bites 0 none });
      Running s ∧ s.stk.mill = .tailout ∧ (s.seq 3).state = .roll ∧ s.isLast 3 = true ∧ s.isFirst 3 = false ∧
        vget s.stk.bites 3 = some (seg 205) ∧ (s.span exitSpan).length + [seg 205].length ≤ mill3.nX) ∧
    (let s := dropped 3 ((ending [seg 201, seg 202, seg 203, seg 204]).withStk
        { (ending [seg 201, seg 202, seg 203, seg 204]).stk with bites := vset rolling.stk.bites 0 none });
      Running s ∧ s.span exitSpan = seg 201 :: [seg 202, seg 203, seg 204] ∧ 3 + 1 = mill3.nX ∧
        (s.chan 25).state = .fresh ∧ s.span (spanInto 3) = []) :=
  ⟨⟨run_of _ (by decide +kernel), by decide +kernel, by decide +kernel, by decide +kernel, by decide +kernel,
      by decide +kernel, by decide +kernel, by decide +kernel, noSpanTrip_of _ (by decide +kernel), by decide +kernel⟩,
    ⟨run_of _ (by decide +kernel), by decide +kernel⟩, run_of _ (by decide +kernel), by decide +kernel⟩

/-- The last tail of a coil whose records are all retired, without and with a bank waiting for the swap. -/
theorem witness_TailConfirmed_empty :
    let s := dropped 3 (ending [])
    Running s ∧ s.inSet 3 = true ∧ (s.seq 3).state = .roll ∧ s.stk.mill = .tailout ∧ s.stk.heldCount = 0 ∧
      (∀ j, j ≠ 3 → s.inSet j = true → (s.seq j).state ≠ .thread ∧ (s.seq j).state ≠ .roll) ∧
      (∀ q ∈ s.tmx.table, q.state ≠ .acked) ∧ s.sch.pendingBank.state ≠ .committed ∧ Running (committed s) ∧
      (committed s).sch.pendingBank.state = .committed :=
  ⟨run_of _ (by decide +kernel), by decide +kernel, by decide +kernel, by decide +kernel, by decide +kernel,
    by decide +kernel, by decide +kernel, by decide +kernel, run_of _ (by decide +kernel), by decide +kernel⟩

/-- The last tail of a coil whose records are all in the span that the tail gives up. -/
theorem witness_TailConfirmed_givenUp :
    let s := dropped 3 ((ending []).setSpan 2 [seg 206, seg 207])
    Running s ∧ s.stk.mill = .tailout ∧ s.isFirst 3 = false ∧ vget s.stk.bites 3 = none ∧
      s.stk.heldCount = (s.span (spanInto 3)).length ∧
      (∀ j, j ≠ 3 → s.inSet j = true → (s.seq j).state ≠ .thread ∧ (s.seq j).state ≠ .roll) ∧
      ∀ q ∈ s.tmx.table, q.state ≠ .acked :=
  ⟨run_of _ (by decide +kernel), by decide +kernel⟩

/-- Stand 4 behind its own tail, about to turn one segment length. -/
def draining (exit : List Segment) : State :=
  let s := (withState 3 .tail (ending exit)).modPresence 3 fun _ => ⟨.absent, 0⟩
  (s.withStk { s.stk with tailMarks := vset s.stk.tailMarks 3 true }).withPlu { s.plu with acc := vset s.plu.acc 3 1499436000 }

/-- The drain of one record of two, and of the last. -/
theorem witness_TailConfirmed_drain :
    (let s := draining [seg 201, seg 202];
      Running s ∧ (s.presence 3).state ≠ .dropout ∧ (s.seq 3).state ≠ .thread ∧ s.inSet 3 = true ∧ s.isLast 3 = true ∧
        vget s.stk.tailMarks 3 = true ∧ s.stk.mill = .tailout ∧ s.record 3 = some { rec3 with ms := 256, iLim := 60 } ∧
        rec3.lSeg * 1000000 ≤ vget s.plu.acc 3 + rec3.e ∧ s.millRec = some mill3 ∧
        s.span exitSpan = seg 201 :: [seg 202] ∧ s.stk.ring.length ≤ 32 ∧ s.recordOf .exitStale = none) ∧
    (let s := draining [seg 202];
      Running s ∧ s.span exitSpan = seg 202 :: [] ∧ s.stk.heldCount = 1 ∧
        (∀ j, s.inSet j = true → (s.seq j).state ≠ .roll ∧ (s.seq j).state ≠ .thread) ∧ (s.chan 25).state = .fresh ∧
        vget s.sch.config.actions 11 = .note ∧ ∀ q ∈ s.tmx.table, q.state ≠ .acked) :=
  ⟨⟨run_of _ (by decide +kernel), by decide +kernel⟩, run_of _ (by decide +kernel), by decide +kernel⟩

/-- The drain of the last record takes it to the gauge and ends the coil. -/
theorem test_drain_ends_the_coil :
    let t := after (.encoderPulse 3 ⟨true, 1000⟩) (draining [seg 202])
    t.stk.mill = .armed ∧ t.stk.ring.map (·.measH) = [some 1822] ∧ (∀ k, vget t.stk.tailMarks k = false) ∧
      [0, 2, 3].map (fun k => (t.seq k).state) = [.setup, .setup, .setup] := by
  decide +kernel

theorem witness_AssemblersTakeBytes :
    rolling.inReset = false ∧ rolling.flc.asm = .hunting ∧ rolling.hlk.rx = .hunting ∧
      (rolling.withFlc { rolling.flc with asm := .collecting (List.replicate 7 0x5A) }).flc.asm =
        .collecting (List.replicate 7 0x5A) ∧
      (rolling.withHlk { rolling.hlk with rx := .length }).hlk.rx = .length ∧
      (rolling.withHlk { rolling.hlk with rx := .collecting 2 [1, 7] }).hlk.rx = .collecting 2 [1, 7] ∧
      ((∀ i, i < 8 → (0x5A : Byte).getLsbD i = (0b010110100 : LineBits).getLsbD (i + 1)) ∧
        (∀ i, i < 8 → (0xA5 : Byte).getLsbD i = (lineBits 0xA5).getLsbD (i + 1)) ∧
        (0b010110100 : LineBits).getLsbD 0 = false ∧ (0b010110101 : LineBits).getLsbD 0 = true) := by
  decide +kernel

theorem witness_FieldBytesMakeFrame :
    (frame 0x1A3 2 4 0 2410).length = 9 ∧ (frame 0x1A3 2 4 0 2410).head? = some 0x5A ∧ rolling.flc.asm = .hunting := by
  decide +kernel

theorem witness_HostBytesMakeRequest :
    requestOf (.configure 7 (List.replicate 248 0)) = some { kind := 3, tag := 7, body := List.replicate 248 0 } ∧
      (List.replicate 248 (0 : Byte)).length ≤ 248 ∧ idle.hlk.rx = .hunting ∧
      ([0, 0] : List Byte) ≠ crcBytes (HostFrame.checked { kind := 1, tag := 7, body := [] }) := by
  decide +kernel

theorem witness_SetpointFrameReadsBack :
    (-10000 : Int) ≤ (⟨.open_, -10000⟩ : Setpoint).gap ∧ (⟨.open_, -10000⟩ : Setpoint).gap ≤ 80000 ∧
      -10000 ≤ (⟨.track, 80000⟩ : Setpoint).gap ∧ (⟨.track, 80000⟩ : Setpoint).gap ≤ 80000 ∧
      (let f : SetpointFrame := { stand := 0, tag := 1, seq := 0, setpoint := ⟨.track, 2300⟩ };
        rolling.flc.tx = some f ∧ f.bytes[0]? = some 0x5A ∧ f.bytes[8]? ≠ none) ∧
      (rolling.withFlc { rolling.flc with tx := none }).flc.tx = none := by
  decide +kernel

theorem witness_DuplicateFrameIgnored :
    Running rolling ∧ FrameFor rolling (frame 0x1A3 2 3 0 2410) 1 ∧ FrameFor rolling (frame 0x1A3 2 4 0 2410) 1 ∧
      (rolling.chan (entryChannel rolling 1)).lastSeq = some (fieldFields (frame 0x1A3 2 3 0 2410)).seq ∧
      (rolling.chan (entryChannel rolling 1)).lastSeq ≠ some (fieldFields (frame 0x1A3 2 4 0 2410)).seq :=
  ⟨run_of _ (by decide +kernel), frameFor_of _ _ _ (by decide +kernel), frameFor_of _ _ _ (by decide +kernel),
    by decide +kernel⟩

theorem witness_FieldFrameRecorded :
    Running rolling ∧ fieldCheck [0x5A, 0, 0, 0, 0, 0, 0, 0, 0] = false ∧
      (fieldFields (frame 0x1A3 0 4 0 0)).quantity = 0 ∧ (fieldFields (frame 0x1A3 15 4 0 0)).quantity = 15 ∧
      (∀ n, (vget rolling.flc.accept n).accepts (fieldFields (frame 0x2B0 1 4 0 0)).tag
        (fieldFields (frame 0x2B0 1 4 0 0)).quantity = false) ∧
      FrameFor rolling (frame 0x1A7 14 4 3 0) 2 ∧ 2 ≤ (fieldFields (frame 0x1A7 14 4 3 0)).health ∧
      (rolling.chan (driveCh 2)).lastSeq ≠ some (fieldFields (frame 0x1A7 14 4 3 0)).seq ∧
      FrameFor rolling (frame 0x1A7 14 4 1 0) 2 ∧ (fieldFields (frame 0x1A7 14 4 1 0)).health = 1 :=
  ⟨run_of _ (by decide +kernel), by decide +kernel, by decide +kernel, by decide +kernel, by decide +kernel,
    frameFor_of _ _ _ (by decide +kernel), by decide +kernel, by decide +kernel, frameFor_of _ _ _ (by decide +kernel),
    by decide +kernel⟩

/-- FAULT frames that hand on a lapse and that do not, and samples that leave both channels of stand 3 FRESH. -/
theorem witness_FieldFrameRecorded_stale :
    (FrameFor rolling (frame 0x1A3 2 4 3 0) 1 ∧ entryChannel rolling 1 = gapCh 2 ∧
      (rolling.chan (gapCh 2)).lastSeq ≠ some (fieldFields (frame 0x1A3 2 4 3 0)).seq ∧
      2 ≤ (fieldFields (frame 0x1A3 2 4 3 0)).health ∧ (rolling.chan (gapCh 2)).state ≠ .invalid ∧
      (rolling.seq 2).state = .roll) ∧
    (((rolling.modChan (gapCh 2) fun c => { c with state := .invalid }).chan (gapCh 2)).state = .invalid ∧
      ∀ k, gapCh 2 = forceCh k ∨ gapCh 2 = gapCh k →
        ((withState 2 .setup rolling).seq k).state ≠ .thread ∧ ((withState 2 .setup rolling).seq k).state ≠ .roll ∧
          ((withState 2 .setup rolling).seq k).state ≠ .tail) ∧
    (let s := withTable [record (.stand .sampleStale 2) .raised .freeze true]
        (rolling.modChan (gapCh 2) fun c => { c with state := .stale });
      Running s ∧ FrameFor s (frame 0x1A3 2 4 0 2300) 1 ∧ (fieldFields (frame 0x1A3 2 4 0 2300)).health < 2 ∧
        (s.chan (forceCh 2)).state = .fresh ∧
        s.recordOf (.stand .sampleStale 2) = some (record (.stand .sampleStale 2) .raised .freeze true) ∧
        (withTable [record (.stand .sampleStale 2) .acked .freeze true] s).recordOf (.stand .sampleStale 2) =
          some (record (.stand .sampleStale 2) .acked .freeze true) ∧
        FrameFor s (frame 0x1A3 1 4 0 5280) 0 ∧ entryChannel s 0 = forceCh 2 ∧ (rolling.chan (gapCh 2)).state = .fresh) :=
  ⟨⟨frameFor_of _ _ _ (by decide +kernel), by decide +kernel⟩, by decide +kernel, run_of _ (by decide +kernel),
    frameFor_of _ _ _ (by decide +kernel), by decide +kernel, by decide +kernel, by decide +kernel, by decide +kernel,
    frameFor_of _ _ _ (by decide +kernel), by decide +kernel⟩

/-- R144, R155: the sample that leaves both channels FRESH makes SAMPLE_STALE gone. -/
theorem test_stale_gone :
    let s := rolling.modChan (gapCh 2) fun c => { c with state := .stale }
    let gone := fun st => after (.fieldFrame (frame 0x1A3 2 4 0 2300))
      (withTable [record (.stand .sampleStale 2) st .freeze true] s)
    ((gone .raised).recordOf (.stand .sampleStale 2)).map (·.state) = some .held ∧
      (gone .acked).recordOf (.stand .sampleStale 2) = none := by
  decide +kernel

theorem witness_DriveAndForceSamples :
    (Running rolling ∧ FrameFor rolling (frame 0x1A7 4 4 1 0) 2 ∧
      (rolling.chan (entryChannel rolling 2)).lastSeq ≠ some (fieldFields (frame 0x1A7 4 4 1 0)).seq ∧
      (fieldFields (frame 0x1A7 4 4 1 0)).health < 2 ∧ entryChannel rolling 2 = driveCh 2) ∧
    (FrameFor rolling (frame 0x1A3 1 4 0 30000) 0 ∧ FrameFor rolling (frame 0x1A3 1 4 0 30001) 0 ∧
      rolling.record 2 = some rec3 ∧ entryChannel rolling 0 = forceCh 2 ∧
      scopeHolds rolling (.stand .forceHigh 2) = true ∧ rolling.present (.stand .forceHigh 2) = false ∧
      (fieldFields (frame 0x1A3 1 4 0 30000)).value ≤ (rec3.fMax : Int) ∧
      (rec3.fMax : Int) < (fieldFields (frame 0x1A3 1 4 0 30001)).value ∧ vget rolling.tmx.forceCnt 2 < 8) :=
  ⟨⟨run_of _ (by decide +kernel), frameFor_of _ _ _ (by decide +kernel), by decide +kernel⟩,
    frameFor_of _ _ _ (by decide +kernel), frameFor_of _ _ _ (by decide +kernel), by decide +kernel⟩

/-- Gap samples at the edge of the window reference's window and beyond it, and of the window test at S_preset + W and
beyond it. -/
theorem witness_DriveAndForceSamples_gap :
    FrameFor rolling (frame 0x1A3 2 4 0 2350) 1 ∧ FrameFor rolling (frame 0x1A3 2 4 0 2351) 1 ∧
      entryChannel rolling 1 = gapCh 2 ∧
      (rolling.chan (entryChannel rolling 1)).lastSeq ≠ some (fieldFields (frame 0x1A3 2 4 0 2351)).seq ∧
      (fieldFields (frame 0x1A3 2 4 0 2351)).health < 2 ∧ (rolling.gap 2).windowRef = some 2300 ∧
      scopeHolds rolling (.stand .gapWindow 2) = true ∧ rolling.present (.stand .gapWindow 2) = false ∧
      ((fieldFields (frame 0x1A3 2 4 0 2350)).value - 2300).natAbs ≤ rec3.w ∧
      rec3.w < ((fieldFields (frame 0x1A3 2 4 0 2351)).value - 2300).natAbs ∧ vget rolling.tmx.gapCnt 2 < 8 ∧
      ((withState 2 .setup rolling).seq 2).state = .setup ∧
      ((fieldFields (frame 0x1A3 2 4 0 2330)).value - rec3.sPreset).natAbs ≤ rec3.w ∧
      ¬((fieldFields (frame 0x1A3 2 4 0 2331)).value - rec3.sPreset).natAbs ≤ rec3.w ∧
      ((fieldFields (frame 0x1A3 2 4 0 2331)).value - 2300).natAbs ≤ rec3.w :=
  ⟨frameFor_of _ _ _ (by decide +kernel), frameFor_of _ _ _ (by decide +kernel), by decide +kernel⟩

/-- R120: a gap sample within W of S_preset makes a stand in SETUP READY, one beyond it does not. -/
theorem test_window_test :
    let s := (withState 2 .setup rolling).modGap 2 fun g => { g with sRef := 2280 }
    ((after (.fieldFrame (frame 0x1A3 2 4 0 2330)) s).seq 2).state = .ready ∧
      ((after (.fieldFrame (frame 0x1A3 2 4 0 2331)) s).seq 2).state = .setup := by
  decide +kernel

theorem witness_FreshnessExpiry :
    Running rolling ∧ ¬((rolling.chan 6).state = .fresh ∧ (rolling.chan 6).remaining = 0) ∧
      ((rolling.modChan 6 fun c => { c with remaining := 0 }).chan 6).state = .fresh ∧
      ((rolling.modChan 6 fun c => { c with remaining := 0 }).chan 6).remaining = 0 ∧ (6 : Chan) = forceCh 2 ∧
      (rolling.seq 2).state = .roll :=
  ⟨run_of _ (by decide +kernel), by decide +kernel⟩

/-- `rolling` with two setpoints waiting. -/
def waiting : State :=
  rolling.withFlc { rolling.flc with
    slots := vset (vset rolling.flc.slots 3 (some ⟨.open_, 9000⟩)) 2 (some ⟨.track, 1880⟩) }

theorem witness_FieldOutTakesLowestSlot :
    Running rolling ∧ (rolling.withFlc { rolling.flc with tx := none }).flc.tx = none ∧ rolling.flc.tx ≠ none ∧
      (∀ k, vget rolling.flc.slots k = none) ∧ Running waiting ∧ waiting.flc.tx ≠ none ∧
      vget waiting.flc.slots 2 = some ⟨.track, 1880⟩ ∧ ∀ j : Stand, j < 2 → vget waiting.flc.slots j = none :=
  ⟨run_of _ (by decide +kernel), by decide +kernel, by decide +kernel, by decide +kernel, run_of _ (by decide +kernel),
    by decide +kernel⟩

/-- `rolling` with the update of stand `k` due and the stand in a state. -/
def updateAt (k : Stand) (st : StandState) : State := withState k st (rolling.modGap k fun g => { g with timer := some 0 })

theorem witness_UpdateSendsByState :
    (Running rolling ∧ (rolling.gap 0).timer ≠ some 0 ∧ Running (updateAt 0 .tripped) ∧
      (updateAt 0 .local_).record 0 = some { rec3 with ms := 64, iLim := 30 } ∧ ((updateAt 0 .local_).gap 0).timer = some 0 ∧
      ((updateAt 0 .local_).seq 0).state = .local_ ∧ ((updateAt 0 .handover).seq 0).state = .handover) ∧
    (vget (updateAt 0 .tripped).sch.config.tags 0 ≠ 0 ∧ ((updateAt 0 .tripped).seq 0).state = .tripped) ∧
    (((updateAt 0 .ready).seq 0).state = .ready ∧ ((updateAt 0 .ready).seq 0).equalize = none) ∧
    ((updateAt 0 .thread).seq 0).state = .thread ∧ ((updateAt 0 .tail).seq 0).state = .tail ∧
    (((updateAt 1 .out).seq 1).state = .out ∧ (updateAt 1 .out).record 1 = some rec3 ∧ rec3.outCode = .park ∧
      ((updateAt 1 .out).gap 1).timer = some 0) ∧
    (((updateAt 0 .roll).modSeq 0 fun q => { q with frozen := true }).seq 0).frozen = true ∧
    (((updateAt 0 .setup).seq 0).state = .setup ∧ ((updateAt 0 .setup).seq 0).equalize = none ∧
      ((updateAt 0 .setup).gap 0).lastSent = some ⟨.track, 2300⟩) :=
  ⟨⟨run_of _ (by decide +kernel), by decide +kernel, run_of _ (by decide +kernel), by decide +kernel⟩,
    by decide +kernel⟩

/-- The stand's record with another out-of-pass code. -/
def withOut (k : Stand) (o : OutCode) (s : State) : State :=
  s.withSch { s.sch with active := { s.sch.active with
    bank := { s.sch.active.bank with stands := vset s.sch.active.bank.stands k (some { rec3 with outCode := o }) } } }

/-- The forms that send nothing, OUT under HOLD, a stand without a tag, and the estimate, lock-on and window test. -/
theorem witness_UpdateSendsByState_forms :
    (let s := withOut 1 .hold (updateAt 1 .out);
      Running s ∧ s.record 1 = some { rec3 with outCode := .hold } ∧ (s.gap 1).timer = some 0 ∧ (s.seq 1).state = .out ∧
        (s.gap 1).lastSent = some ⟨.track, 2300⟩ ∧ ((s.modGap 1 fun g => { g with lastSent := none }).gap 1).lastSent = none) ∧
    (withOut 1 .release (updateAt 1 .out)).record 1 = some { rec3 with outCode := .release } ∧
    (((updateAt 0 .setup).modSeq 0 fun q => { q with equalize := some 1 }).seq 0).equalize ≠ none ∧
    vget ((updateAt 0 .tail).withSch { rolling.sch with config := ConfigRecord.default }).sch.config.tags 0 = 0 ∧
    (updateAt 0 .tail).flc.tx ≠ none ∧ ((updateAt 0 .tail).withFlc { rolling.flc with tx := none }).flc.tx = none ∧
    (let s := updateAt 2 .thread;
      (s.chan (forceCh 2)).state = .fresh ∧ (s.chan (gapCh 2)).state = .fresh ∧ (s.gap 2).lockCount = rec3.lockDelay ∧
        ((s.modGap 2 fun g => { g with lockCount := 1 }).gap 2).lockCount ≠ rec3.lockDelay ∧
        ((s.modChan (gapCh 2) fun c => { c with state := .stale }).chan (gapCh 2)).state ≠ .fresh) :=
  ⟨⟨run_of _ (by decide +kernel), by decide +kernel⟩, by decide +kernel⟩

/-- R98: the update of a THREAD stand at its lock delay with a usable estimate locks it on. -/
theorem test_deferred_lock_on :
    let t := after (.updateTimerExpiry 2) (updateAt 2 .thread)
    (t.seq 2).state = .roll ∧ (t.gap 2).locked = true ∧ (t.gap 2).hLock = 3199 ∧ (t.gap 2).sRefLock = 2280 := by
  decide +kernel

/-- Section 9.5: the hypotheses of the update of stand 3, with its worked values. -/
theorem witness_RollUpdate :
    let s := updateAt 2 .roll
    Running s ∧ s.record 2 = some rec3 ∧ (s.gap 2).timer = some 0 ∧ (s.seq 2).state = .roll ∧ (s.seq 2).frozen = false ∧
      (s.chan (forceCh 2)).state = .fresh ∧ (s.chan (gapCh 2)).state = .fresh ∧
      (3199 : Int) = saturate (-10000) 80000 (s.chan (gapCh 2)).value +
        (saturate 0 60000 (s.chan (forceCh 2)).value * 1000 + rec3.m / 2) / rec3.m + rec3.z ∧
      vget s.stk.bites 2 = some (seg 208) ∧ s.firstActive ≠ some 2 ∧ (seg 208).dev = some (-36) ∧
      (25 : Int) = max (-20000) (min 20000
        (roundDiv (rec3.kgm * (3199 - (s.gap 2).hLock) + rec3.kff * (-36)) 256 + (s.gap 2).integ)) ∧
      (2215 : Int) = (s.gap 2).sRefLock - roundDiv (25 * rec3.c) 1024 + (s.gap 2).trim ∧
      (s.gap 2).lastSent = some ⟨.track, 2300⟩ ∧
      (2240 : Int) = 2300 + max (-(rec3.r : Int)) (min rec3.r (2215 - 2300)) ∧ s.flc.tx ≠ none ∧
      vget s.sch.config.tags 2 ≠ 0 :=
  ⟨run_of _ (by decide +kernel), by decide +kernel⟩

theorem witness_IntervalTimers :
    rolling.inReset = false ∧ ((rolling.modSeq 0 fun q => { q with nonOverlap := some 0 }).seq 0).nonOverlap = some 0 ∧
      ((rolling.modSeq 0 fun q => { q with equalize := some 0 }).seq 0).equalize = some 0 := by
  decide +kernel

theorem witness_HandoverExpiry :
    Running rolling ∧ (rolling.seq 6).handover = none ∧
      Running (inHandover 6 .toLocal (some .ready) 0 rolling) ∧
      ((inHandover 6 .toLocal (some .ready) 0 rolling).seq 6).handover = some ⟨.toLocal, some .ready, 0⟩ ∧
      ((inHandover 6 .toCoord none 1 rolling).seq 6).handover = some ⟨.toCoord, none, 1⟩ ∧ rolling.hlk.tx ≠ none ∧
      kindEnabled rolling.hlk.mask (.handoverDone 6) = true :=
  ⟨run_of _ (by decide +kernel), by decide +kernel, run_of _ (by decide +kernel), by decide +kernel⟩

/-- `idle` with stream 2 at the end of its period. -/
def streaming : State :=
  idle.withHlk { idle.hlk with
    streams := vset idle.hlk.streams 1 { enabled := true, chans := [7, 25], period := 250, timer := some 0 } }

theorem witness_StreamExpiry :
    Running streaming ∧ (vget streaming.hlk.streams 0).timer ≠ some 0 ∧ (vget streaming.hlk.streams 1).timer = some 0 ∧
      streaming.hlk.tx ≠ none ∧ kindEnabled streaming.hlk.mask (.channelPeriodic 1) = true :=
  ⟨run_of _ (by decide +kernel), by decide +kernel⟩

/-- A reply, and a request, of the host line. -/
def aReply : HostFrame := { kind := 0x81, tag := 1, body := [0] }

def aRequest : HostFrame := { kind := 0x01, tag := 2, body := [] }

theorem witness_HostLineTakesNext :
    (idle.withHlk { idle.hlk with tx := none }).hlk.tx = none ∧ idle.hlk.tx ≠ none ∧
      ((idle.withHlk { idle.hlk with slot := some aReply }).hlk.slot = some aReply ∧
        (idle.withHlk { idle.hlk with slot := some aReply }).hlk.held = none) ∧
      ((idle.withHlk { idle.hlk with slot := some aReply, held := some aRequest }).hlk.slot = some aReply ∧
        (idle.withHlk { idle.hlk with slot := some aReply, held := some aRequest }).hlk.held = some aRequest) ∧
      (State.reset.hlk.tx ≠ none ∧ State.reset.hlk.slot = none ∧ State.reset.hlk.queue ≠ []) ∧
      idle.hlk.slot = none ∧ idle.hlk.queue = [] ∧ (idle.withHlk { idle.hlk with tx := some aReply }).hlk.tx = some aReply ∧
      aReply.bytes[0]? = some 0xA5 := by
  decide +kernel

theorem witness_RequestTakenHeldOrDiscarded :
    requestOf (.unknownKindRequest 0x80 2 []) = some { kind := 0x80, tag := 2, body := [] } ∧ LineOk idle ∧
      requestOf (.identify 2 []) = some aRequest ∧ aRequest.kind.toNat < 128 ∧ HostFree idle ∧
      ((idle.withHlk { idle.hlk with slot := some aReply }).hlk.tx ≠ none ∧
        (idle.withHlk { idle.hlk with slot := some aReply }).hlk.slot ≠ none ∧
        (idle.withHlk { idle.hlk with slot := some aReply }).hlk.held = none) ∧
      (idle.withHlk { idle.hlk with slot := some aReply, held := some aRequest }).hlk.tx ≠ none ∧
      (idle.withHlk { idle.hlk with slot := some aReply, held := some aRequest }).hlk.held ≠ none :=
  ⟨by decide +kernel, line_of _ (by decide +kernel), by decide +kernel, by decide +kernel, free_of _ (by decide +kernel),
    by decide +kernel⟩

theorem witness_RefusedRequestChangesNothing :
    HostFree idle ∧ requestOf (.unknownKindRequest 27 2 []) = some { kind := 27, tag := 2, body := [] } ∧
      requestOf (.unknownKindRequest 127 2 []) = some { kind := 127, tag := 2, body := [] } ∧
      requestOf (.identify 2 [0]) = some { kind := 1, tag := 2, body := [0] } ∧ requiredLength 1 = some 0 ∧
      requestOf (.disarm 2 []) = some { kind := 13, tag := 2, body := [] } ∧ (answer 13 [] idle).2 = [5] :=
  ⟨free_of _ (by decide +kernel), by decide +kernel⟩

/-- The bounds of every parameter, from outside; and the lengths of a SET_ACCEPT body next to the one its count requires. -/
theorem witness_RefusedRequestChangesNothing_parameters :
    (∀ p ∈ ([(0x0B, [2, 9], 1), (0x0B, [1, 9], 2), (0x0F, [0, 0, 0], 1), (0x0F, [9, 0, 0], 1), (0x11, [71], 1), (0x11, [254], 1),
        (0x12, [9], 1), (0x13, [0, 0, 0], 1), (0x13, [9, 1, 5], 1), (0x13, [1, 0, 5], 2), (0x13, [8, 3, 5], 2), (0x14, [32, 1], 0),
        (0x14, [31, 0], 0), (0x14, [31, 2], 0), (0x15, [0], 1), (0x15, [10], 1), (0x16, [0, 0, 0], 2), (0x16, [0, 0, 9], 2),
        (0x17, [0], 1), (0x17, [72], 1)] : List (Byte × List Byte × Nat)),
      BadParameter { kind := p.1, tag := 2, body := p.2.1 } p.2.2) ∧
    (∀ body ∈ ([[], [0], [0, 1, 1, 0, 0, 0, 0, 1], [0, 1, 1, 0, 0, 0, 0, 1, 1, 1], [0, 0, 0]] : List (List Byte)),
      requestOf (.setAccept 2 body) = some { kind := 0x04, tag := 2, body := body } ∧
        (body.length < 2 ∨ body.length ≠ 2 + 7 * rd8 body 1)) := by
  unfold BadParameter
  decide +kernel

theorem witness_Identify : HostFree idle := free_of _ (by decide +kernel)

theorem witness_StatusSnapshot :
    HostFree mixed ∧ mixed.stk.coil < 65536 ∧ (mixed.stk.allocated < 65536 ∧ mixed.stk.retired < 65536) ∧
      (mixed.sch.active.serial < 65536 ∧ mixed.sch.pendingBank.serial < 65536) ∧ mixed.tmx.table.length < 256 ∧
      (mixed.seq 0).handover = none ∧
      ((inHandover 6 .toLocal (some .out) 60000 mixed).seq 6).handover = some ⟨.toLocal, some .out, 60000⟩ ∧
      ((inHandover 6 .toCoord none 60000 mixed).seq 6).handover = some ⟨.toCoord, none, 60000⟩ ∧
      ((mixed.seq 0).nonOverlap = none ∧ (mixed.seq 0).equalize = none) ∧
      ((mixed.modSeq 0 fun q => { q with nonOverlap := some 50, equalize := some 200 }).seq 0).equalize = some 200 ∧
      ((mixed.gap 7).lastSent = none ∧ (mixed.gap 0).lastSent = some ⟨.preset, 2280⟩) ∧
      ((mixed.gap 7).hGm = none ∧ (mixed.gap 0).hGm = some 3150) ∧ (mixed.gap 0).lockCount < 256 ∧
      (-8388608 ≤ (rolling.gap 2).sRef ∧ (rolling.gap 2).sRef < 8388608) ∧
      (-32768 ≤ (rolling.gap 2).trim ∧ (rolling.gap 2).trim < 32768) ∧
      -32768 ≤ (rolling.gap 2).integ ∧ (rolling.gap 2).integ < 32768 :=
  ⟨free_of _ (by decide +kernel), by decide +kernel⟩

/-- The freshness timeouts of a CONFIGURE at both ends of their range. -/
def endTimeouts : Vector Nat 32 := vtab fun c => if c = 0 then 1 else 255

theorem witness_ConfigureReplacesItems :
    HostFree idle ∧ HostFree rolling ∧ (∀ c, 1 ≤ vget endTimeouts c ∧ vget endTimeouts c ≤ 255) ∧
      rolling.stk.mill ≠ .idle ∧ idle.stk.mill = .idle :=
  ⟨free_of _ (by decide +kernel), free_of _ (by decide +kernel), by decide +kernel⟩

/-- A CONFIGURE body with every item at its lowest value. -/
def lowConfig : List Byte := [2, 20] ++ List.replicate 16 0 ++ List.replicate 32 1

/-- The two filter counts beyond both ends, and the last tag and the last timeout beyond their range. -/
theorem witness_ConfigureReplacesItems_refused :
    lowConfig.length = 50 ∧ (rd8 (lowConfig.set 0 1) 0 < 2 ∧ 15 < rd8 (lowConfig.set 0 16) 0) ∧
      (rd8 (lowConfig.set 1 19) 1 < 20 ∧ 250 < rd8 (lowConfig.set 1 251) 1 ∧ 2 ≤ rd8 (lowConfig.set 1 251) 0) ∧
      (4095 < rd16 (lowConfig.set 16 0x10) (2 + 2 * (7 : Stand).val) ∧
        ∀ j : Stand, j < 7 → rd16 (lowConfig.set 16 0x10) (2 + 2 * j.val) ≤ 4095) ∧
      (∀ k : Stand, rd16 (lowConfig.set 49 0) (2 + 2 * k.val) ≤ 4095) ∧ rd8 (lowConfig.set 49 0) (18 + (31 : Chan).val) = 0 ∧
      ∀ d : Chan, d < 31 → 1 ≤ rd8 (lowConfig.set 49 0) (18 + d.val) := by
  decide +kernel

theorem witness_AcceptanceTable :
    HostFree idle ∧ (HostFree rolling ∧ rolling.stk.mill ≠ .idle) ∧
      (1 < 24 ∧ 23 + 1 ≤ 24 ∧ 14 < 15 ∧ ([] : List Byte).length = 7 * (1 - ([] : List AcceptEntry).length - 1)) ∧
      ([⟨true, 0x1A3, 0xFFF, 14, 31⟩] : List AcceptEntry) ≠ [] ∧
      23 + ([⟨true, 0x1A3, 0xFFF, 14, 31⟩] : List AcceptEntry).length ≤ 24 ∧ idle.stk.mill = .idle ∧
      (∀ e ∈ ([⟨true, 0x1A3, 0xFFF, 14, 31⟩] : List AcceptEntry), e.quantity ≤ 14) ∧
      ∀ i e, ([⟨true, 0x1A3, 0xFFF, 1, 6⟩] : List AcceptEntry)[i]? = some e →
        ∀ n : EntryNo, n.val = 0 + i → vget idle.flc.accept n = e := by
  refine ⟨free_of _ (by decide +kernel), ⟨free_of _ (by decide +kernel), by decide +kernel⟩, by decide, by decide, by decide,
    by decide +kernel, by decide, fun i e h n hn => ?_⟩
  match i with
  | 0 =>
    have hn : n = 0 := Fin.ext hn
    cases h
    subst hn
    decide +kernel
  | i + 1 => cases h

/-- Items at both ends of their rows; and a fixed row, a repeated one, and a row and an action out of range. -/
theorem witness_SetActionsWritesRows :
    HostFree idle ∧ idle.stk.mill = .idle ∧ (([(3, .note), (11, .freeze)] : List (Fin 12 × Action)) ≠ []) ∧
      (([(3, .note), (11, .freeze)] : List (Fin 12 × Action)).map Prod.fst).Nodup ∧
      (∀ p ∈ ([(3, .note), (11, .freeze)] : List (Fin 12 × Action)), 3 ≤ p.1.val) ∧
      (2 ≤ 2 ∧ 11 ∈ ([(3, .note), (11, .freeze)] : List (Fin 12 × Action)).map (fun p => p.1.val) ∧ 11 < 12 ∧ 3 < 4) ∧
      HostFree rolling ∧ rolling.stk.mill ≠ .idle :=
  ⟨free_of _ (by decide +kernel), by decide +kernel, by decide, by decide, by decide, by decide, free_of _ (by decide +kernel),
    by decide +kernel⟩

/-- R25, R152: refused outside IDLE. -/
theorem test_tables_refused_outside_idle :
    replyOf (.setAccept 3 [23, 1, 1, 1, 0xA3, 0xF, 0xFF, 1, 12]) rolling = [5] ∧
      replyOf (.setActions 3 [11, 1]) rolling = [5, 3, 3, 3, 2, 2, 1, 3, 3, 3, 1, 3, 0] ∧
      replyOf (.setActions 3 [11, 1, 11, 1]) idle = [4, 2, 0, 0, 3, 3, 3, 2, 2, 1, 3, 3, 3, 1, 3, 0] := by
  decide +kernel

theorem witness_LoadsWritePendingBank : HostFree idle ∧ rec3.inRange = true ∧ mill3.inRange = true :=
  ⟨free_of _ (by decide +kernel), by decide +kernel⟩

/-- The items before one of a table of values and ranges, all in range. -/
theorem before_of {α : Type} [LE α] [DecidableLE α] (l : List (α × α × α)) (i : Nat)
    (h : ((l.take i).all fun x => decide (x.2.1 ≤ x.1 ∧ x.1 ≤ x.2.2)) = true) :
    ∀ j y a b, j < i → l[j]? = some (y, a, b) → a ≤ y ∧ y ≤ b := by
  intro j y a b hj hl
  have hm : (y, a, b) ∈ l.take i := List.mem_of_getElem? (by rw [List.getElem?_take_of_lt hj, hl])
  exact of_decide_eq_true (List.all_eq_true.mp h _ hm)

/-- A LOAD_STAND for a position beyond each end, and one whose first and one whose last field is out of its range. -/
theorem witness_LoadsWritePendingBank_stand :
    (enc8 0 ++ encStand rec3).length = 53 ∧ rd8 (enc8 0 ++ encStand rec3) 0 = 0 ∧
      8 < rd8 (enc8 9 ++ encStand rec3) 0 ∧
      (let body := enc8 1 ++ (encStand rec3).set 0 3;
        rd8 body 0 = Stand.pos 0 ∧ (standFields (rd8 body 1) (rdStand body 1))[0]? = some (3, 0, 2)) ∧
      let body := enc8 8 ++ encStand { rec3 with tEq := 201 };
      rd8 body 0 = Stand.pos 7 ∧ (standFields (rd8 body 1) (rdStand body 1))[26]? = some (201, 0, 200) ∧
        ∀ j y a b, j < 26 → (standFields (rd8 body 1) (rdStand body 1))[j]? = some (y, a, b) → a ≤ y ∧ y ≤ b :=
  ⟨by decide +kernel, by decide +kernel, by decide +kernel, by decide +kernel, by decide +kernel, by decide +kernel,
    before_of _ _ (by decide +kernel)⟩

/-- A LOAD_MILL whose active set, last span table entry, and last item is out of its range. -/
theorem witness_LoadsWritePendingBank_mill :
    let body := encMill mill3 fun _ => 9
    body.length = 38 ∧
      (¬∃ set : List Stand, set ≠ [] ∧ set.Pairwise (· < ·) ∧
        (body.set 1 9).take (set.length + 1) = enc8 set.length ++ set.map fun k => BitVec.ofNat 8 (Stand.pos k)) ∧
      (∃ set : List Stand, set ≠ [] ∧ set.Pairwise (· < ·) ∧
        ((body.set 29 5).set 37 25).take (set.length + 1) =
          enc8 set.length ++ set.map fun k => BitVec.ofNat 8 (Stand.pos k)) ∧
      (¬SpanInRange (body.set 29 5) 6 ∧ ∀ j : Fin 7, j < 6 → SpanInRange (body.set 29 5) j) ∧
      (∀ j : Fin 7, SpanInRange (body.set 37 25) j) ∧ (millFields (body.set 37 25))[5]? = some (25, 0, 24) ∧
      ∀ j y a b, j < 5 → (millFields (body.set 37 25))[j]? = some (y, a, b) → a ≤ y ∧ y ≤ b := by
  refine ⟨by decide +kernel, ?_, ⟨[0, 2, 3], by decide +kernel⟩, by unfold SpanInRange; decide +kernel,
    by unfold SpanInRange; decide +kernel, by decide +kernel, before_of _ _ (by decide +kernel)⟩
  rintro ⟨set, ne, -, h⟩
  match set with
  | [] => exact ne rfl
  | k :: rest =>
    have hk : some (9 : Byte) = some (BitVec.ofNat 8 (Stand.pos k)) := congrArg (fun l => l[1]?) h
    clear h ne
    revert k
    decide

theorem witness_ReadBankReplies :
    HostFree idle ∧ idle.sch.active.bank = bank3 ∧ bank3.mill = some mill3 ∧ idle.sch.pendingBank.bank.mill = none :=
  ⟨free_of _ (by decide +kernel), by decide +kernel⟩

theorem bank3_validated : Validated bank3 := by
  refine ⟨⟨mill3, rfl, by decide +kernel⟩, fun k r h => ?_⟩
  have all : ∀ k, ((vget bank3.stands k).elim true fun r =>
      decide (r.sMin ≤ r.sPreset ∧ r.sPreset ≤ r.sMax ∧ r.sMax ≤ r.sOpen)) = true := by decide +kernel
  have one := all k
  rw [h] at one
  simpa using one

theorem witness_CommitDeferred :
    HostFree idle ∧ idle.sch.pendingBank.state = .empty ∧
      (idle.withSch { idle.sch with pendingBank := loaded Bank.none }).sch.pendingBank = loaded Bank.none ∧
      HostFree (committed rolling) ∧ (committed rolling).stk.mill ≠ .idle ∧
      (committed rolling).sch.pendingBank.state = .committed ∧ (editing rolling).sch.pendingBank.state = .editing ∧
      (editing rolling).stk.mill ≠ .idle ∧ Validated (editing rolling).sch.pendingBank.bank :=
  ⟨free_of _ (by decide +kernel), by decide +kernel, by decide +kernel, free_of _ (by decide +kernel), by decide +kernel,
    by decide +kernel, by decide +kernel, by decide +kernel, bank3_validated⟩

/-- An EDITING bank without the record of stand 3, and one whose record of stand 2, outside the set, is out of order. -/
theorem witness_CommitDeferred_refused :
    mill3.activeSet = [0] ++ (2 : Stand) :: [3] ∧
      (let b := { bank3 with stands := vset bank3.stands 2 none };
        vget b.stands 0 ≠ none ∧ vget b.stands 2 = none) ∧
      (let b := { bank3 with stands := vset bank3.stands 1 (some { rec3 with sMin := 2281 }) };
        (∀ k ∈ mill3.activeSet, vget b.stands k ≠ none) ∧ vget b.stands 1 = some { rec3 with sMin := 2281 } ∧
          vget b.stands 0 = some { rec3 with ms := 64, iLim := 30 } ∧ rec3.sPreset < 2281) ∧
      (rec3.sMin ≤ rec3.sPreset ∧ rec3.sPreset - 1 < rec3.sPreset) ∧ rec3.sPreset ≤ rec3.sMax ∧ rec3.sMax - 1 < rec3.sMax := by
  decide +kernel

theorem witness_CommitSwaps :
    HostFree (committed idle) ∧ (committed idle).stk.mill = .idle ∧
      ((committed idle).sch.pendingBank.state = .committed ∧ 5 = (committed idle).sch.pendingBank.serial) ∧
      HostFree (editing idle) ∧ (editing idle).stk.mill = .idle ∧ (editing idle).sch.pendingBank.state = .editing ∧
      Validated (editing idle).sch.pendingBank.bank ∧ 5 = (editing idle).sch.counter :=
  ⟨free_of _ (by decide +kernel), by decide +kernel, by decide +kernel, free_of _ (by decide +kernel), by decide +kernel,
    by decide +kernel, bank3_validated, by decide +kernel⟩

/-- A pending TO_LOCAL handover of prior state READY, a TRACK setpoint waiting, and a MILL_STOP record over stands that are not
TRIPPED, at the swap. -/
def swapping : State :=
  withTable [resetStopRecord] (inHandover 6 .toLocal (some .ready) 60000 (committed (idle.withFlc { idle.flc with
    slots := vset idle.flc.slots 0 (some ⟨.track, 2300⟩) })))

theorem witness_CommitSwaps_effects :
    HostFree swapping ∧ swapping.stk.mill = .idle ∧ swapping.sch.pendingBank.state = .committed ∧
      (swapping.seq 6).handover = some ⟨.toLocal, some .ready, 60000⟩ ∧ (swapping.seq 6).state = .handover ∧
      vget swapping.flc.slots 0 = some ⟨.track, 2300⟩ ∧ (swapping.seq 0).state ≠ .tripped ∧
      ((after (.commit 3 []) swapping).seq 0).state = .tripped ∧ (after (.commit 3 []) swapping).record 0 ≠ none ∧
      swapping.flc.tx ≠ none ∧ vget swapping.sch.config.tags 0 ≠ 0 ∧ kindEnabled swapping.hlk.mask .millState = true :=
  ⟨free_of _ (by decide +kernel), by decide +kernel⟩

/-- R15, R16, R113: the swap discards a waiting TRACK setpoint, and a prior state READY becomes SETUP. -/
theorem test_swap_discards :
    let s := inHandover 6 .toLocal (some .ready) 60000 (committed (idle.withFlc { idle.flc with
      slots := vset idle.flc.slots 0 (some ⟨.track, 2300⟩) }))
    vget (after (.commit 3 []) s).flc.slots 0 = none ∧
      ((after (.commit 3 []) s).seq 6).handover = some ⟨.toLocal, some .setup, 60000⟩ ∧
      vget (after (.commit 3 []) swapping).flc.slots 0 = some ⟨.open_, 20000⟩ := by
  decide +kernel

theorem witness_ClearPending : HostFree (committed rolling) := free_of _ (by decide +kernel)

theorem witness_ArmAndDisarm :
    (HostFree idle ∧ ScopesOk idle ∧ idle.stk.mill = .idle ∧ idle.sch.active.state = .valid ∧
      (∀ k, idle.inSet k = true → (idle.seq k).state = .ready) ∧ idle.tmx.table = []) ∧
    HostFree armed ∧ ScopesOk armed ∧ armed.stk.mill = .armed :=
  ⟨⟨free_of _ (by decide +kernel), scopes_of _ (by decide +kernel), by decide +kernel⟩, free_of _ (by decide +kernel),
    scopes_of _ (by decide +kernel), by decide +kernel⟩

/-- `rolling` with the whole set TRIPPED: the state before section 9.3's CLEAR_MILL. -/
def cobbled : State := withState 0 .tripped (withState 2 .tripped (withState 3 .tripped rolling))

theorem witness_ClearMillRetiresAll :
    HostFree cobbled ∧ cobbled.stk.mill = .rolling ∧
      (∀ k, (cobbled.seq k).state ≠ .thread ∧ (cobbled.seq k).state ≠ .roll ∧ (cobbled.seq k).state ≠ .tail) ∧
      cobbled.stk.ring.length ≤ 32 ∧ cobbled.stk.retired ≤ 65535 ∧ HostFree idle ∧
      ¬(idle.stk.mill = .rolling ∨ idle.stk.mill = .tailout) :=
  ⟨free_of _ (by decide +kernel), by decide +kernel, by decide +kernel, by decide +kernel, by decide +kernel,
    free_of _ (by decide +kernel), by decide +kernel⟩

theorem witness_SetTrim :
    HostFree mixed ∧ (mixed.seq 4).state = .local_ ∧ ((inHandover 6 .toCoord none 1 mixed).seq 6).state = .handover ∧
      ((mixed.seq 7).state ≠ .local_ ∧ (mixed.seq 7).state ≠ .handover ∧ mixed.record 7 = none) ∧
      (mixed.seq 2).state ≠ .local_ ∧ (mixed.seq 2).state ≠ .handover ∧ mixed.record 2 = some rec3 ∧
      (-100 : Int) = max (-(rec3.trimMax : Int)) (min rec3.trimMax (-32768)) ∧
      (100 : Int) = max (-(rec3.trimMax : Int)) (min rec3.trimMax 32767) :=
  ⟨free_of _ (by decide +kernel), by decide +kernel⟩

theorem witness_StopTripsEveryStand :
    HostFree rolling ∧ vget rolling.sch.config.actions 1 = .millStop ∧ rolling.recordOf .hostStop = none ∧
      (rolling.seq 0).state.inPass = true ∧ HostFree (withTable [record .hostStop .held .millStop true] rolling) ∧
      (withTable [record .hostStop .held .millStop true] rolling).recordOf .hostStop =
        some (record .hostStop .held .millStop true) :=
  ⟨free_of _ (by decide +kernel), by decide +kernel, by decide +kernel, by decide +kernel, free_of _ (by decide +kernel),
    by decide +kernel⟩

/-- `rolling` with a record of each state. -/
def tripTable : State :=
  withTable [record (.stand .forceHigh 4) .held .open_ true, record (.stand .driveFault 1) .raised .millStop false,
    record (.stopInput 0) .acked .millStop false] rolling

theorem witness_AckTrip :
    HostFree tripTable ∧ TableOk tripTable ∧ tripTable.recordOf .hostStop = none ∧
      tripTable.recordOf (.stopInput 0) = some (record (.stopInput 0) .acked .millStop false) ∧
      tripTable.recordOf (.stand .driveFault 1) = some (record (.stand .driveFault 1) .raised .millStop false) ∧
      tripTable.recordOf (.stand .forceHigh 4) = some (record (.stand .forceHigh 4) .held .open_ true) :=
  ⟨free_of _ (by decide +kernel), by unfold TableOk; decide +kernel, by decide +kernel⟩

theorem witness_Restore :
    HostFree mixed ∧ (mixed.seq 4).state = .local_ ∧ (mixed.seq 0).state = .ready ∧
      ((mixed.seq 5).state = .tripped ∧ mixed.openCover 5 = true) ∧
      ((cobbled.seq 0).state = .tripped ∧ cobbled.stripPresent 0 = true) ∧
      ((withState 2 .tripped idle).seq 2).state = .tripped ∧ (withState 2 .tripped idle).stripPresent 2 = false ∧
      (withState 2 .tripped idle).openCover 2 = false ∧ HostFree (withState 2 .tripped idle) ∧
      HostFree cobbled :=
  ⟨free_of _ (by decide +kernel), by decide +kernel, by decide +kernel, by decide +kernel, by decide +kernel,
    by decide +kernel, by decide +kernel, by decide +kernel, free_of _ (by decide +kernel), free_of _ (by decide +kernel)⟩

/-- The outcomes 0, 5 and 6 of RESTORE of all, in states with every present key in scope. -/
theorem witness_Restore_all :
    (ScopesOk (withState 4 .local_ (withState 2 .tripped idle)) ∧
      HostFree (withState 4 .local_ (withState 2 .tripped idle))) ∧
    ScopesOk cobbled ∧ (cobbled.seq 0).state = .tripped ∧ cobbled.stripPresent 0 = true :=
  ⟨⟨scopes_of _ (by decide +kernel), free_of _ (by decide +kernel)⟩, scopes_of _ (by decide +kernel), by decide +kernel⟩

theorem witness_Handover :
    HostFree mixed ∧ ((inHandover 6 .toCoord none 1 mixed).seq 6).state = .handover ∧
      ((mixed.seq 1).state = .out ∧ mixed.stripPresent 1 = false ∧ mixed.stk.mill = .idle) ∧
      ((rolling.seq 0).state = .roll ∧ HostFree rolling) ∧
      ((mixed.seq 0).state ≠ .handover ∧ (mixed.seq 0).state ≠ .local_) ∧ (mixed.seq 4).state = .local_ ∧
      (mixed.filter (.panel 4)).level = false ∧
      ((mixed.setFilter (.panel 4) { level := true, count := 0, due := false }).filter (.panel 4)).level = true ∧
      (1 : Nat) = max 1 (min 60 0) ∧ (60 : Nat) = max 1 (min 60 255) :=
  ⟨free_of _ (by decide +kernel), by decide +kernel, by decide +kernel, ⟨by decide +kernel, free_of _ (by decide +kernel)⟩,
    by decide +kernel⟩

theorem witness_RecordsRead :
    HostFree rolling ∧ (31 ≤ 31 ∧ 1 ≤ 1 ∧ 31 + 1 ≤ 32) ∧ (0 ≤ 31 ∧ 0 + 32 ≤ 32) ∧
      (∀ g ∈ [seg 201], 202 ≠ 0 ∧ ¬(g.seg + 65535 - 202) % 65535 < 32768) ∧
      (∀ g, [seg 203, seg 204].head? = some g → 202 = 0 ∨ (g.seg + 65535 - 202) % 65535 < 32768) ∧
      (rolling.withStk { rolling.stk with ring := [seg 201, seg 203, seg 204] }).stk.ring =
        [seg 201] ++ [seg 203, seg 204] :=
  ⟨free_of _ (by decide +kernel), by decide, by decide, by decide, some_of (x := seg 203) rfl (by decide), by decide +kernel⟩

theorem witness_TrackRead : HostFree rolling ∧ CapacityOk rolling :=
  ⟨free_of _ (by decide +kernel), by unfold CapacityOk; decide +kernel⟩

/-- Streams of a SET_REPORTS at both ends of their counts and beyond both ends of their period. -/
def askedStreams : Vector Stream 4 :=
  vtab fun i =>
    { enabled := decide (i = 0), chans := if i = 0 then [25] else [0, 1, 2, 3, 4, 5, 6, 7],
      period := if i = 0 then 0 else 65535, timer := none }

theorem witness_SetReports :
    HostFree idle ∧ ∀ i, 1 ≤ (vget askedStreams i).chans.length ∧ (vget askedStreams i).chans.length ≤ 8 ∧
      (vget askedStreams i).period < 65536 :=
  ⟨free_of _ (by decide +kernel), by decide +kernel⟩

/-- A stream of a SET_REPORTS body that fails in none of its items. -/
theorem streamFine_of (body : List Byte) (o : Nat)
    (h : rd8 body o ≤ 1 ∧ 1 ≤ rd8 body (o + 1) ∧ rd8 body (o + 1) ≤ 8 ∧ ∀ n, n < rd8 body (o + 1) → rd8 body (o + 2 + n) ≤ 31) :
    ∀ bad, ¬StreamFails body o bad := by
  rintro bad (⟨h1, -⟩ | ⟨-, h1, -⟩ | ⟨-, -, -, n, hn, h1, -⟩)
  · omega
  · omega
  · exact absurd (h.2.2.2 n hn) (by omega)

/-- A SET_REPORTS body with four streams of eight channels. -/
def eightEach : List Byte := 63 :: (List.replicate 4 [1, 8, 0, 1, 2, 3, 28, 29, 30, 31, 0, 10]).flatten

/-- A mask beyond the six kinds; the first stream's enabled flag and count, and the last channel of the last stream. -/
theorem witness_SetReports_refused :
    eightEach.length = 49 ∧ 63 < rd8 (eightEach.set 0 64) 0 ∧ StreamFails (eightEach.set 1 2) 1 1 ∧
      StreamFails (eightEach.set 2 0) 1 2 ∧ StreamFails (eightEach.set 2 9) 1 2 ∧
      (∀ j : StreamId, j < 3 → ∀ bad, ¬StreamFails (eightEach.set 46 32) (1 + 12 * j.val) bad) ∧
      StreamFails (eightEach.set 46 32) (1 + 12 * (3 : StreamId).val) 10 :=
  ⟨by decide +kernel, by decide +kernel, .inl (by decide +kernel), .inr (.inl (by decide +kernel)),
    .inr (.inl (by decide +kernel)), fun j hj => streamFine_of _ _ (by revert hj j; decide +kernel),
    .inr (.inr ⟨by decide +kernel, by decide +kernel, by decide +kernel, 7, by decide +kernel⟩)⟩

theorem witness_SetAux : HostFree State.reset := free_of _ (by decide +kernel)

/-- A mode of AUX 1 and a level of AUX 2 out of their ranges, each the first that is. -/
theorem witness_SetAux_refused :
    AuxItemBad [4, 1, 3, 2] 0 ∧ AuxItemBad [3, 1, 3, 2] 3 ∧ ∀ j, j < 3 → ¬AuxItemBad [3, 1, 3, 2] j := by
  unfold AuxItemBad
  decide

/-! ### States that the invariants hold in, and that a step leaves -/

/-- `rolling` with an advance of stand 3 waiting. -/
def stepping : State := { accAt 1499436000 with pending := [.encoderPulse 2 ⟨true, 1000⟩] }

theorem stepping_steps : ∃ t, step stepping = .next t := ⟨_, rfl⟩

theorem witness_StepKeepsTripTable :
    TableOk { tripTable with pending := [.stop 1 []] } ∧ HeldOk supplyLow ∧ supplyLow.inReset = true := by
  unfold TableOk HeldOk
  decide +kernel

theorem witness_StepKeepsScopes : ScopesOk stepping := scopes_of _ (by decide +kernel)

theorem witness_StepKeepsHostLine : QueueOk stepping ∧ LineOk stepping :=
  ⟨by unfold QueueOk; decide +kernel, line_of _ (by decide +kernel)⟩

theorem witness_StepKeepsSequencer : (∀ k, SeqOk stepping k) ∧ SlotsOk stepping := by
  refine ⟨fun k => ?_, by unfold SlotsOk; decide +kernel⟩
  have no : ∀ k, (stepping.seq k).handover = none := by decide +kernel
  refine ⟨by revert k; decide +kernel, by revert k; decide +kernel, none_of (no k) _, by revert k; decide +kernel,
    by revert k; decide +kernel, by revert k; decide +kernel, by revert k; decide +kernel⟩

theorem witness_StepKeepsPass : PassOk stepping := by
  have no : ∀ k, (stepping.seq k).handover = none := by decide +kernel
  refine ⟨by decide +kernel, by decide +kernel, by decide +kernel, ?_, ?_⟩
  · intro k h st e
    rw [no k] at e
    cases e
  · intro k h e
    rw [no k] at e
    cases e

theorem witness_StepKeepsBalance : PassOk stepping ∧ BalanceOk stepping := by
  refine ⟨witness_StepKeepsPass, by decide +kernel, by decide +kernel, by decide +kernel, by decide +kernel,
    by decide +kernel, fun h => ?_⟩
  have settled : stepping.plu.settled = true := by decide +kernel
  rw [settled] at h
  cases h

theorem bank3_ranges : RangesOk bank3 := by
  refine ⟨some_of (x := mill3) rfl (by decide +kernel), fun k r h => ?_⟩
  have all : ∀ k, ((vget bank3.stands k).elim true StandRecord.inRange) = true := by decide +kernel
  have one := all k
  rw [h] at one
  exact one

theorem gap_of (s : State) (k : Stand) (r : StandRecord) (n : Nat) (h : s.record k = some r)
    (hn : (s.gap k).timer = some n ∧ n ≤ r.tCtl ∧ (s.gap k).trim.natAbs ≤ r.trimMax ∧ (s.gap k).integ.natAbs ≤ r.iLim) :
    GapOk s k := by
  simp only [GapOk, h]
  exact ⟨⟨n, hn.1, hn.2.1⟩, hn.2.2⟩

theorem gap_none (s : State) (k : Stand) (h : s.record k = none)
    (hn : (s.gap k).timer = none ∧ (s.gap k).trim = 0 ∧ (s.gap k).integ = 0) : GapOk s k := by
  simp only [GapOk, h]
  exact hn

theorem witness_StepKeepsBanks : BanksOk (committed stepping) ∧ ∀ k, GapOk (committed stepping) k := by
  refine ⟨⟨bank3_ranges, bank3_ranges,
    (by decide +kernel : validationFault bank3 = none ∧ 1 ≤ 4 ∧ 4 ≤ 65535),
    (by decide +kernel : validationFault bank3 = none ∧ 1 ≤ 5 ∧ 5 ≤ 65535 ∧ 5 ≠ 4 ∧ 5 ≠ 6), by decide +kernel⟩, fun k => ?_⟩
  by_cases hk : k.val < 4
  · cases h : (committed stepping).record k with
    | none =>
      have all : ∀ k : Stand, k.val < 4 → (committed stepping).record k ≠ none := by decide +kernel
      exact absurd h (all k hk)
    | some r =>
      refine gap_of _ k r 5 h ?_
      have all : ∀ k : Stand, k.val < 4 → (((committed stepping).record k).elim true fun r =>
          decide (((committed stepping).gap k).timer = some 5 ∧ 5 ≤ r.tCtl ∧
            ((committed stepping).gap k).trim.natAbs ≤ r.trimMax ∧
            ((committed stepping).gap k).integ.natAbs ≤ r.iLim)) = true := by decide +kernel
      have one := all k hk
      rw [h] at one
      simpa using one
  · exact gap_none _ k (by revert k; decide +kernel) (by revert k; decide +kernel)

theorem witness_StepKeepsInputs :
    PresenceOk stepping ∧ (∀ c, ChannelOk stepping c) ∧ AssemblersOk stepping ∧ ConfigOk stepping ∧ CapacityOk stepping := by
  refine ⟨⟨by decide +kernel, by decide +kernel, fun i h => ?_⟩, fun c => ?_, ⟨fun held h => ?_, fun len held h => ?_⟩,
    by unfold ConfigOk; decide +kernel, by unfold CapacityOk; decide +kernel⟩
  · have no : (∀ k : Stand, (stepping.filter (.hmd k)).due = false) ∧ (∀ n : StopNo, (stepping.filter (.stop n)).due = false) ∧
        ∀ k : Stand, (stepping.filter (.panel k)).due = false := by decide +kernel
    cases i with
    | hmd k => rw [no.1 k] at h; cases h
    | stop n => rw [no.2.1 n] at h; cases h
    | panel k => rw [no.2.2 k] at h; cases h
  · unfold ChannelOk
    revert c
    decide +kernel
  · have no : stepping.flc.asm = .hunting := by decide +kernel
    rw [no] at h
    cases h
  · have no : stepping.hlk.rx = .hunting := by decide +kernel
    rw [no] at h
    cases h

theorem witness_PowerOnAndResetPin :
    (∃ (held : ResetHold → State) (t : State),
      (∀ r, held r = { State.cleared stepping.hlk.straps with
        resets := r, freeIx := stepping.freeIx, pending := stepping.pending }) ∧
      t = { State.reset with
        hlk := { State.reset.hlk with straps := 2 }, freeIx := stepping.freeIx, pending := stepping.pending }) ∧
      (999 < 1000 ∧ 1000 ≤ 1000) ∧ stepping.resets.pin = false ∧ supplyLow.resets.supply = true ∧
      (after (.resetPin 1000 .hold) stepping).resets.pin = true :=
  ⟨⟨_, _, fun _ => rfl, rfl⟩, by decide, by decide +kernel, by decide +kernel, by decide +kernel⟩

end Sys2Proof.Tests
end

section
/-! PROOFS. Pass schedules: the taking of a request at a free host line (R171 to R174), and CLEAR_PENDING (R10). -/

namespace Sys2Proof.Machine

/-! ## A request at a free host line -/

/-- An event acts where no reset is held (R193). -/
theorem event_of_not_inReset (f : State → State) (s : State) (h : s.inReset = false) : event f s = .next (f s) := by
  simp [event, h]

/-- A request is taken as it arrives when the reply slot and the hold place are empty (R171). -/
theorem arriveRequest_of_free (q : HostFrame) (s : State) (hk : q.kind.toNat < 128) (hf : HostFree s) :
    arriveRequest q s = takeRequest q s := by
  obtain ⟨-, hslot, hheld⟩ := hf
  obtain ⟨hk', -⟩ | ⟨-, ⟨hheld', -⟩ | ⟨-, hslot', -⟩ | ⟨-, -, e⟩⟩ := arriveRequest_cases q s
  · omega
  · exact absurd hheld hheld'
  · exact absurd hslot hslot'
  · exact e

/-- With no request held, an idle line takes the reply in the slot and nothing else (R174). -/
theorem endEvent_sends_slot (r : HostFrame) (s : State) (htx : s.hlk.tx = none) (hslot : s.hlk.slot = some r)
    (hheld : s.hlk.held = none) : endEvent s = s.withHlk { s.hlk with slot := none, tx := some r } := by
  obtain ⟨h, -⟩ | ⟨-, r', hr, e⟩ | ⟨-, h, -⟩ | ⟨-, h, -⟩ := pumpWith_cases takeRequest s
  · exact absurd htx h
  · obtain rfl : r = r' := Option.some.inj (hslot.symm.trans hr)
    rw [endEvent, e]
    simp only [startReply, withHlk_hlk, hheld]
  · simp [hslot] at h
  · simp [hslot] at h

/-- A reply composed with no request held begins on an idle line, and stays in the slot behind a frame in transmission
(R174). -/
theorem endEvent_composed (f : HostFrame) (s : State) (hslot : s.hlk.slot = none) (hheld : s.hlk.held = none) :
    endEvent (s.withHlk { s.hlk with slot := some f }) = sendReply f s := by
  cases htx : s.hlk.tx with
  | some g =>
    rw [endEvent_busy _ (by simp [htx])]
    simp only [sendReply, htx]
  | none =>
    rw [endEvent_sends_slot f _ (by simp [htx]) (by simp) (by simp [hheld])]
    simp only [sendReply, htx, State.withHlk, hslot]

/-- A request at a free host line: what it is answered leaves as its reply, when its effects compose none and hold none
(R171, R173, R174). -/
theorem event_request_of_free (kind tag : Byte) (body : List Byte) (s : State) (hk : kind.toNat < 128) (hf : HostFree s)
    (hslot : (answer kind.toNat body s).1.hlk.slot = none) (hheld : (answer kind.toNat body s).1.hlk.held = none) :
    event (request kind tag body) s =
      .next (reply kind tag (answer kind.toNat body s).2 (answer kind.toNat body s).1) := by
  obtain ⟨hreset, -⟩ := id hf
  rw [event_of_not_inReset _ _ hreset, request, arriveRequest_of_free _ _ hk hf]
  exact congrArg _ (endEvent_composed _ _ hslot hheld)

/-! ## CLEAR_PENDING -/

theorem exec_clearPending (tag : Byte) (body : List Byte) (s : State) :
    exec (.clearPending tag body) s = event (request 0x0A tag body) s := rfl

/-- CLEAR_PENDING with its empty body is taken in every state (R10, R172). -/
theorem answer_clearPending (s : State) :
    answer 0x0A [] s =
      (s.withSch { s.sch with pendingBank := PendingBank.none },
        okReply (enc8 (pendingCode s.sch.pendingBank.state))) := rfl

/-- Settles O41: the answer holds in every state, and the schedule store's update leaves the host line free for its reply. -/
theorem clearPending : Obligations.ClearPending := by
  intro tag s hf
  obtain ⟨-, hslot, hheld⟩ := id hf
  have hans := answer_clearPending s
  calc exec (.clearPending tag []) s
      = .next (reply 0x0A tag (answer 0x0A [] s).2 (answer 0x0A [] s).1) := by
        rw [exec_clearPending]
        exact event_request_of_free 0x0A tag [] s (by decide) hf (by simp [hans, hslot]) (by simp [hans, hheld])
    _ = _ := by
        rw [hans]
        rfl

end Sys2Proof.Machine
end

section
/-! PROOFS. Field line and measurement channels: the end of an event of a running part (R174), a frame delivered to the
channel of its winning entry (R22, R24), and the duplicate rule (R29). -/

namespace Sys2Proof.Machine

/-! ## The end of an event of a running part -/

/-- Where a request is held only behind a busy line, the end of an event takes none: it changes the host link alone
(R171, R174). -/
theorem endEvent_changes_hlk (s : State) (h : s.hlk.tx = none → s.hlk.held = none) :
    ∃ l, endEvent s = s.withHlk l := by
  by_cases htx : s.hlk.tx = none
  · exact ⟨_, endEvent_of_not_held s (h htx)⟩
  · exact ⟨s.hlk, endEvent_busy s htx⟩

/-- A line that leaves nothing waiting while it is idle has nothing to take at the end of an event (R174). -/
theorem endEvent_of_lineOk (s : State) (h : LineOk s) : endEvent s = s := by
  by_cases htx : s.hlk.tx = none
  · obtain ⟨hslot, hqueue⟩ := h.1 htx
    exact endEvent_idle s hslot hqueue
  · exact endEvent_busy s htx

/-- Behind an idle line no request is held (R171, R174). -/
theorem not_held_of_idle (s : State) (h : LineOk s) (htx : s.hlk.tx = none) : s.hlk.held = none := by
  obtain ⟨hidle, hheld⟩ := h
  by_contra hne
  exact hheld hne (hidle htx).1

/-! ## A frame delivered to its channel -/

/-- A frame that passes its checks is delivered to the channel of its winning entry (R22, R24). -/
theorem takeFrame_of_frameFor (frame : List Byte) (n : EntryNo) (s : State) (h : FrameFor s frame n) :
    takeFrame frame s = deliver (entryChannel s n) n (fieldFields frame) s := by
  obtain ⟨hlen, hstart, hcheck, hzero, hfifteen, hwin⟩ := h
  simp [takeFrame, hlen, hstart, hcheck, hzero, hfifteen, hwin, entryChannel]

/-- A duplicate is ignored whole (R29). -/
theorem deliver_of_duplicate (c : Chan) (hit : EntryNo) (f : FieldFrame) (s : State)
    (h : (s.chan c).lastSeq = some f.seq) : deliver c hit f s = s :=
  if_pos h

/-- A frame that is no duplicate leaves its channel as R30 or R31 states, whatever its takers do. -/
theorem deliver_chan_of_new (c : Chan) (hit : EntryNo) (f : FieldFrame) (s : State)
    (h : (s.chan c).lastSeq ≠ some f.seq) :
    (deliver c hit f s).chan c =
      if 2 ≤ f.health then (s.chan c).fault f.seq hit
      else (s.chan c).sample f.seq hit (f.health == 1) f.value (vget s.sch.config.freshness c) := by
  rw [State.chan, deliver_mch, if_neg h]
  split <;> exact vget_vset_self _ _ _

/-! ## FIELD_FRAME -/

/-- FIELD_FRAME of a running part: the frame is delivered, and the event ends (R22, R24, R174). -/
theorem exec_fieldFrame_of_frameFor (frame : List Byte) (n : EntryNo) (s : State) (hrun : Running s)
    (hfor : FrameFor s frame n) :
    exec (.fieldFrame frame) s = .next (endEvent (deliver (entryChannel s n) n (fieldFields frame) s)) := by
  obtain ⟨hreset, -⟩ := hrun
  calc exec (.fieldFrame frame) s
      = event (fieldFrameEvent frame) s := rfl
    _ = .next (fieldFrameEvent frame s) := event_of_not_inReset _ s hreset
    _ = _ := by rw [fieldFrameEvent, takeFrame_of_frameFor frame n s hfor]

/-- The end of a frame's event leaves the measurement channels as the frame's delivery made them (R174). -/
theorem endEvent_deliver_chan (c d : Chan) (hit : EntryNo) (f : FieldFrame) (s : State) (h : LineOk s) :
    (endEvent (deliver c hit f s)).chan d = (deliver c hit f s).chan d := by
  obtain ⟨l, e⟩ := endEvent_changes_hlk (deliver c hit f s) (by simpa using not_held_of_idle s h)
  rw [e, withHlk_chan_views]

/-- Settles O19: a duplicate's delivery and the end of its event both leave the state as it is; any other frame's record
in its channel stands through its takers and the end of the event. -/
theorem duplicateFrameIgnored : Obligations.DuplicateFrameIgnored := by
  intro frame n s hrun hfor
  have hexec := exec_fieldFrame_of_frameFor frame n s hrun hfor
  obtain ⟨-, hline⟩ := hrun
  constructor
  · intro hdup
    rw [hexec, deliver_of_duplicate _ _ _ _ hdup, endEvent_of_lineOk s hline]
  · intro hnew
    refine ⟨_, hexec, ?_⟩
    rw [endEvent_deliver_chan _ _ _ _ s hline, deliver_chan_of_new _ _ _ _ hnew]
    by_cases hfault : 2 ≤ (fieldFields frame).health
    · rw [if_pos hfault]
      exact ⟨rfl, rfl, fun _ => rfl, fun hgood => absurd hfault (by omega)⟩
    · rw [if_neg hfault]
      exact ⟨rfl, rfl, fun hbad => absurd hbad hfault, fun _ => ⟨rfl, rfl⟩⟩

end Sys2Proof.Machine
end

section
/-! PROOFS. Strip tracking: the evaluation of the scopes where they all hold (R139, R141), a change of the mill state that
leaves EXIT_STALE's scope as it is (R65, R149), and ARM and DISARM (R66, R67). -/

namespace Sys2Proof.Machine

/-! ## The scopes where they all hold -/

/-- Counters that are 0 wherever `p` fails are kept by clearing them there. -/
theorem vtab_clear_eq_self {n : Nat} (v : Vector Nat n) (p : Fin n → Bool) (h : ∀ k, p k = false → vget v k = 0) :
    (vtab fun k => if p k then vget v k else 0) = v := by
  refine vec_ext fun k => ?_
  cases hp : p k with
  | true => simp [hp]
  | false => simp [hp, h k hp]

/-- Counters that are 0 out of scope have none to clear (R141). -/
theorem clearCounters_of_scopesOk (s : State) (h : ScopesOk s) : clearCounters s = s := by
  obtain ⟨-, hforce, hgap, -⟩ := h
  rw [clearCounters, vtab_clear_eq_self _ _ hforce, vtab_clear_eq_self _ _ hgap]
  rfl

/-- With every present key in scope and no counter out of it, an evaluation of the scopes changes nothing (R139, R141). -/
theorem evalScopes_of_scopesOk (s : State) (h : ScopesOk s) : evalScopes s = s := by
  have hclear := clearCounters_of_scopesOk s h
  obtain ⟨hpresent, -⟩ := h
  rw [evalScopes_of_present s (by rwa [hclear]), hclear]

/-- No scope reads the host link. -/
theorem scopeHolds_withHlk (s : State) (l : HostLink) (key : Key) :
    scopeHolds (s.withHlk l) key = scopeHolds s key := by
  cases key with
  | stand c k => cases c <;> rfl
  | resetStop | hostStop | stopInput | exitStale => rfl

/-- Of the tracker the scopes read no more than whether the mill is in ROLLING or TAILOUT (R149). -/
theorem scopeHolds_withStk (s : State) (t : Tracker) (h : t.mill.running = s.stk.mill.running) (key : Key) :
    scopeHolds (s.withStk t) key = scopeHolds s key := by
  cases key with
  | exitStale => exact h
  | stand c k => cases c <;> rfl
  | resetStop | hostStop | stopInput => rfl

theorem scopesOk_withHlk (s : State) (l : HostLink) (h : ScopesOk s) : ScopesOk (s.withHlk l) := by
  simpa [ScopesOk, scopeHolds_withHlk] using h

theorem scopesOk_withStk (s : State) (t : Tracker) (ht : t.mill.running = s.stk.mill.running) (h : ScopesOk s) :
    ScopesOk (s.withStk t) := by
  simpa [ScopesOk, scopeHolds_withStk s t ht] using h

theorem scopesOk_updateNotice (b : NoticeBody) (s : State) (h : ScopesOk s) : ScopesOk (updateNotice b s) := by
  obtain ⟨-, e⟩ | ⟨-, e⟩ := updateNotice_cases b s
  · rw [e]
    exact scopesOk_withHlk s _ h
  · rwa [e]

/-! ## A change of the mill state -/

/-- Between IDLE and ARMED, or between ROLLING and TAILOUT, a change of the mill state is that state and its notice alone
(R65, R149). -/
theorem setMill_of_running_eq (m : MillState) (s : State) (h : ScopesOk s) (hm : m.running = s.stk.mill.running) :
    setMill m s =
      updateNotice (.millState m s.stk.coil s.sch.active.serial) (s.withStk { s.stk with mill := m }) :=
  evalScopes_of_scopesOk _ (scopesOk_updateNotice _ _ (scopesOk_withStk s _ hm h))

/-- A change of the mill state leaves the reply slot and the hold place as they are. -/
theorem setMill_keeps_slot_held (m : MillState) (s : State) :
    (setMill m s).hlk.slot = s.hlk.slot ∧ (setMill m s).hlk.held = s.hlk.held := by
  simp [setMill]

/-! ## ARM and DISARM -/

/-- Outside the OPEN class an action is neither OPEN nor MILL_STOP (R115). -/
theorem openClass_eq_false_iff (a : Action) : a.openClass = false ↔ a ≠ .open_ ∧ a ≠ .millStop := by
  cases a <;> simp [Action.openClass]

/-- The model's test of ARM is R66's four conditions. -/
theorem canArm_iff (s : State) :
    canArm s = true ↔
      s.stk.mill = .idle ∧ s.sch.active.state = .valid ∧ (∀ k, s.inSet k = true → (s.seq k).state = .ready) ∧
        ∀ r ∈ s.tmx.table, r.action ≠ .open_ ∧ r.action ≠ .millStop := by
  simp [canArm, State.openClassExists, State.inSet, openClass_eq_false_iff, and_assoc]

theorem answer_arm (s : State) :
    answer 0x0C [] s = if canArm s then (setMill .armed s, okReply []) else refuse s (codeReply .wrongState) := rfl

theorem answer_disarm (s : State) :
    answer 0x0D [] s = if s.stk.mill = .armed then (setMill .idle s, okReply []) else refuse s (codeReply .wrongState) :=
  rfl

/-- A request at a free host line whose answer is known, and leaves the slot and the hold place as they are (R171, R173,
R174). -/
theorem event_request_of_answer {kind : Byte} {body content : List Byte} {s t : State} (tag : Byte)
    (hk : kind.toNat < 128) (hf : HostFree s) (hans : answer kind.toNat body s = (t, content))
    (hkeep : t.hlk.slot = s.hlk.slot ∧ t.hlk.held = s.hlk.held) :
    event (request kind tag body) s = .next (reply kind tag content t) := by
  obtain ⟨-, hslot, hheld⟩ := id hf
  obtain ⟨hslot', hheld'⟩ := hkeep
  rw [event_request_of_free kind tag body s hk hf (by rw [hans]; exact hslot'.trans hslot)
    (by rw [hans]; exact hheld'.trans hheld), hans]

theorem exec_arm_of_canArm (tag : Byte) (s : State) (hf : HostFree s) (h : canArm s = true) :
    exec (.arm tag []) s = .next (reply 0x0C tag (okReply []) (setMill .armed s)) :=
  event_request_of_answer tag (by decide) hf ((answer_arm s).trans (if_pos h)) (setMill_keeps_slot_held _ s)

theorem exec_arm_of_not_canArm (tag : Byte) (s : State) (hf : HostFree s) (h : ¬canArm s = true) :
    exec (.arm tag []) s = .next (reply 0x0C tag (codeReply .wrongState) s) :=
  event_request_of_answer tag (by decide) hf ((answer_arm s).trans (if_neg h)) ⟨rfl, rfl⟩

theorem exec_disarm_of_armed (tag : Byte) (s : State) (hf : HostFree s) (h : s.stk.mill = .armed) :
    exec (.disarm tag []) s = .next (reply 0x0D tag (okReply []) (setMill .idle s)) :=
  event_request_of_answer tag (by decide) hf ((answer_disarm s).trans (if_pos h)) (setMill_keeps_slot_held _ s)

theorem exec_disarm_of_not_armed (tag : Byte) (s : State) (hf : HostFree s) (h : s.stk.mill ≠ .armed) :
    exec (.disarm tag []) s = .next (reply 0x0D tag (codeReply .wrongState) s) :=
  event_request_of_answer tag (by decide) hf ((answer_disarm s).trans (if_neg h)) ⟨rfl, rfl⟩

/-- Settles O42: neither IDLE nor ARMED is a running state, so between them no scope ceases to hold, and a taken request
leaves the new mill state and its notice alone. -/
theorem armAndDisarm : Obligations.ArmAndDisarm := by
  intro tag conditions s hf hscopes hconditions
  have hcan : conditions ↔ canArm s = true := hconditions.trans (canArm_iff s).symm
  refine ⟨fun h => ?_, fun h => ?_, fun h => ?_, fun h => ?_⟩
  · obtain ⟨hidle, -⟩ := hconditions.mp h
    rw [exec_arm_of_canArm tag s hf (hcan.mp h), setMill_of_running_eq .armed s hscopes (by rw [hidle]; rfl)]
    rfl
  · exact exec_arm_of_not_canArm tag s hf (mt hcan.mpr h)
  · rw [exec_disarm_of_armed tag s hf h, setMill_of_running_eq .idle s hscopes (by rw [h]; rfl)]
    rfl
  · exact exec_disarm_of_not_armed tag s hf h

end Sys2Proof.Machine
end

section
/-! PROOFS. Host link: IDENTIFY (R175). -/

namespace Sys2Proof.Machine

/-- IDENTIFY with its empty body is taken in every state and leaves it as it is: the part code, the revision, the nine
capacities and the strap code in force (R172, R175). -/
theorem answer_identify (s : State) :
    answer 0x01 [] s =
      (s, [0, 0x0E, 0x08, 1, 8, 32, 24, 24, 32, 71, 96, 4, 26, BitVec.ofNat 8 s.hlk.straps.toNat]) := rfl

/-- Settles O32: the answer changes no state, so the free host line takes the reply and nothing else moves. -/
theorem identify : Obligations.Identify := fun tag s hf =>
  event_request_of_answer tag (by decide) hf (answer_identify s) ⟨rfl, rfl⟩

end Sys2Proof.Machine
end

section
/-! PROOFS. What a step can do: the effect of every request, the effects of every event, and the moves that a command of a
running part is made of. An invariant is proved of these and so of every step. -/

namespace Sys2Proof.Machine

/-! ## Effects of requests -/

/-- What the taking of a request can make of the part (R172): each request's effect under the checks that it has passed. A
request that reads, and one refused, leaves the part as it is or spends free values (log 9). -/
inductive RequestEffect (s : State) : State → Prop where
  | nothing : RequestEffect s s
  | spend : RequestEffect s s.spendFree
  | configure (body : List Byte) (hmill : s.stk.mill = .idle) (hfault : configureFault body = none) :
      RequestEffect s
        ((s.withSch { s.sch with config := configured body s.sch.config }).withFlc { s.flc with
          slots := vtab fun k => if vget (configured body s.sch.config).tags k = 0 then none else vget s.flc.slots k })
  | setAccept (body : List Byte) : RequestEffect s (s.withFlc { s.flc with accept := acceptWritten body s.flc.accept })
  | setActions (body : List Byte) (hfault : actionsFault (actionItems body) = none) :
      RequestEffect s
        (s.withSch { s.sch with
          config := { s.sch.config with actions := actionsWritten (actionItems body) s.sch.config.actions } })
  | loadStand (k : Stand) (body : List Byte) (hfield : standBadField body 1 = none) :
      RequestEffect s
        (s.withSch { s.sch with
          pendingBank := loaded { s.sch.pendingBank.bank with
            stands := vset s.sch.pendingBank.bank.stands k (some (rdStand body 1)) } })
  | loadMill (body : List Byte) (hfield : millBadField body = none) :
      RequestEffect s
        (s.withSch { s.sch with
          pendingBank := loaded { s.sch.pendingBank.bank with mill := some (rdMill body) } })
  | commit (hstate : s.sch.pendingBank.state = .editing) (hvalid : validationFault s.sch.pendingBank.bank = none) :
      RequestEffect s (commitPending s)
  | swap (hmill : s.stk.mill = .idle) (hstate : s.sch.pendingBank.state = .committed) : RequestEffect s (swapBank s)
  | commitSwap (hmill : s.stk.mill = .idle) (hstate : s.sch.pendingBank.state = .editing)
      (hvalid : validationFault s.sch.pendingBank.bank = none) : RequestEffect s (swapBank (commitPending s))
  | clearPending : RequestEffect s (s.withSch { s.sch with pendingBank := PendingBank.none })
  | arm (harm : canArm s = true) : RequestEffect s (setMill .armed s)
  | disarm (hmill : s.stk.mill = .armed) : RequestEffect s (setMill .idle s)
  | clearMill (hclear : canClearMill s = true) : RequestEffect s (clearMill s)
  | setTrim (k : Stand) (r : StandRecord) (x : Int) (hrecord : s.record k = some r) :
      RequestEffect s (s.modGap k fun g => { g with trim := saturate (-(r.trimMax : Int)) r.trimMax x })
  | stop : RequestEffect s (pulseKey .hostStop s)
  | ackTrip (keys : List Key) : RequestEffect s (ackKeys keys s).1
  | restoreAll : RequestEffect s (restoreAll s).1
  | restore (k : Stand) : RequestEffect s (restoreOne k s)
  | handover (k : Stand) (dir : Direction) (seconds : Nat) (hstate : (s.seq k).state ≠ .handover)
      (hcan : canHandover k dir s = true) : RequestEffect s (takeHandover k dir seconds s)
  | setReports (body : List Byte) (hlen : body.length = 49) (hfault : reportsFault body = none) :
      RequestEffect s
        (s.withHlk { s.hlk with
          mask := BitVec.ofNat 6 (rd8 body 0)
          queue := maskedQueue (BitVec.ofNat 6 (rd8 body 0)) s.hlk.queue
          streams := vtab fun i => rdStream body (streamAt i) }).spendFree
  | setAux (body : List Byte) : RequestEffect s (s.withHlk { s.hlk with aux := vtab (rdAux body) })
  | reset (hthreaded : s.anyThreaded = false) : RequestEffect s (softReset s)

/-- A request of a fixed length has the effect of its taking, or none (R172). -/
theorem withLength_effect (n : Nat) (body : List Byte) (s : State) (t : Taken)
    (h : body.length = n → RequestEffect s t.1) : RequestEffect s (withLength n body s t).1 := by
  unfold withLength
  split
  · rename_i hlen
    exact h hlen
  · exact .nothing

theorem spendIf_effect (used : Bool) (s : State) : RequestEffect s (s.spendIf used) := by
  cases used
  · exact .nothing
  · exact .spend

theorem reqConfigure_effect (body : List Byte) (s : State) : RequestEffect s (reqConfigure body s).1 := by
  refine withLength_effect _ _ _ _ fun _ => ?_
  split
  · exact .nothing
  · rename_i hmill
    split
    · exact .nothing
    · rename_i hfault
      exact .configure body (by simpa using hmill) hfault

theorem reqSetAccept_effect (body : List Byte) (s : State) : RequestEffect s (reqSetAccept body s).1 := by
  unfold reqSetAccept
  split
  · exact .nothing
  split
  · exact .nothing
  split
  · exact .nothing
  split
  · exact .nothing
  · exact .setAccept body

theorem reqReadAccept_effect (body : List Byte) (s : State) : RequestEffect s (reqReadAccept body s).1 := by
  refine withLength_effect _ _ _ _ fun _ => ?_
  split <;> exact .nothing

theorem reqSetActions_effect (body : List Byte) (s : State) : RequestEffect s (reqSetActions body s).1 := by
  simp only [reqSetActions]
  split
  · exact .nothing
  split
  · exact .nothing
  split
  · exact .nothing
  · rename_i hfault
    exact .setActions body hfault

theorem reqLoadStand_effect (body : List Byte) (s : State) : RequestEffect s (reqLoadStand body s).1 := by
  refine withLength_effect _ _ _ _ fun _ => ?_
  split
  · exact .nothing
  · split
    · exact .nothing
    · rename_i hfield
      exact .loadStand _ body hfield

theorem reqLoadMill_effect (body : List Byte) (s : State) : RequestEffect s (reqLoadMill body s).1 := by
  refine withLength_effect _ _ _ _ fun _ => ?_
  split
  · exact .nothing
  · rename_i hfield
    exact .loadMill body hfield

theorem reqCommit_effect (body : List Byte) (s : State) : RequestEffect s (reqCommit body s).1 := by
  refine withLength_effect _ _ _ _ fun _ => ?_
  split
  · exact .nothing
  · rename_i hstate
    unfold swapOrDefer
    split
    · rename_i hmill
      exact .swap hmill hstate
    · exact .nothing
  · rename_i hstate
    split
    · exact .nothing
    · rename_i hvalid
      unfold swapOrDefer
      split
      · rename_i hmill
        exact .commitSwap hmill hstate hvalid
      · exact .commit hstate hvalid

theorem reqReadBank_effect (body : List Byte) (s : State) : RequestEffect s (reqReadBank body s).1 := by
  refine withLength_effect _ _ _ _ fun _ => ?_
  split
  · exact .nothing
  split
  · exact .nothing
  · exact spendIf_effect _ s

theorem reqArm_effect (body : List Byte) (s : State) : RequestEffect s (reqArm body s).1 := by
  refine withLength_effect _ _ _ _ fun _ => ?_
  split
  · rename_i harm
    exact .arm harm
  · exact .nothing

theorem reqDisarm_effect (body : List Byte) (s : State) : RequestEffect s (reqDisarm body s).1 := by
  refine withLength_effect _ _ _ _ fun _ => ?_
  split
  · rename_i hmill
    exact .disarm hmill
  · exact .nothing

theorem reqClearMill_effect (body : List Byte) (s : State) : RequestEffect s (reqClearMill body s).1 := by
  refine withLength_effect _ _ _ _ fun _ => ?_
  split
  · rename_i hclear
    exact .clearMill hclear
  · exact .nothing

theorem reqSetTrim_effect (body : List Byte) (s : State) : RequestEffect s (reqSetTrim body s).1 := by
  refine withLength_effect _ _ _ _ fun _ => ?_
  split
  · exact .nothing
  · split
    · exact .nothing
    · split
      · exact .nothing
      · rename_i r hrecord
        exact .setTrim _ r _ hrecord

theorem reqAckTrip_effect (body : List Byte) (s : State) : RequestEffect s (reqAckTrip body s).1 := by
  refine withLength_effect _ _ _ _ fun _ => ?_
  split
  · exact .nothing
  · exact .ackTrip _

theorem reqRestore_effect (body : List Byte) (s : State) : RequestEffect s (reqRestore body s).1 := by
  refine withLength_effect _ _ _ _ fun _ => ?_
  split
  · exact .nothing
  · split
    · dsimp only
      exact .restoreAll
    · rename_i k _
      split
      · rename_i hok
        have h := RequestEffect.restore (s := s) k
        rwa [restoreOne, if_pos hok] at h
      · exact .nothing

theorem reqHandover_effect (body : List Byte) (s : State) : RequestEffect s (reqHandover body s).1 := by
  refine withLength_effect _ _ _ _ fun _ => ?_
  split
  · exact .nothing
  · exact .nothing
  · rename_i k dir _ _
    split
    · exact .nothing
    · rename_i hstate
      split
      · exact .nothing
      · rename_i hcan
        have hcan : canHandover k dir s = true := by simpa using hcan
        exact RequestEffect.handover k dir (timeoutInForce (rd8 body 2)) hstate hcan

theorem reqReadChannels_effect (body : List Byte) (s : State) : RequestEffect s (reqReadChannels body s).1 := by
  refine withLength_effect _ _ _ _ fun _ => ?_
  split <;> exact .nothing

theorem reqReadTrack_effect (body : List Byte) (s : State) : RequestEffect s (reqReadTrack body s).1 := by
  refine withLength_effect _ _ _ _ fun _ => ?_
  split <;> exact .nothing

theorem reqReadSegments_effect (body : List Byte) (s : State) : RequestEffect s (reqReadSegments body s).1 := by
  refine withLength_effect _ _ _ _ fun _ => ?_
  split <;> exact .nothing

theorem reqReadTrips_effect (body : List Byte) (s : State) : RequestEffect s (reqReadTrips body s).1 := by
  refine withLength_effect _ _ _ _ fun _ => ?_
  split <;> exact .nothing

theorem reqSetReports_effect (body : List Byte) (s : State) : RequestEffect s (reqSetReports body s).1 := by
  refine withLength_effect _ _ _ _ fun hlen => ?_
  split
  · exact .nothing
  · rename_i hfault
    exact .setReports body hlen hfault

theorem reqSetAux_effect (body : List Byte) (s : State) : RequestEffect s (reqSetAux body s).1 := by
  refine withLength_effect _ _ _ _ fun _ => ?_
  split
  · exact .nothing
  · exact .setAux body

theorem reqReset_effect (body : List Byte) (s : State) : RequestEffect s (reqReset body s).1 := by
  refine withLength_effect _ _ _ _ fun _ => ?_
  split
  · exact .nothing
  · rename_i hthreaded
    exact .reset (by simpa using hthreaded)

/-- What a request is answered has one of the effects (R172). -/
theorem answer_effect (kind : Nat) (body : List Byte) (s : State) : RequestEffect s (answer kind body s).1 := by
  unfold answer
  split
  · exact withLength_effect _ _ _ _ fun _ => .nothing
  · exact withLength_effect _ _ _ _ fun _ => spendIf_effect _ s
  · exact reqConfigure_effect body s
  · exact reqSetAccept_effect body s
  · exact reqReadAccept_effect body s
  · exact reqSetActions_effect body s
  · exact reqLoadStand_effect body s
  · exact reqLoadMill_effect body s
  · exact reqCommit_effect body s
  · exact withLength_effect _ _ _ _ fun _ => .clearPending
  · exact reqReadBank_effect body s
  · exact reqArm_effect body s
  · exact reqDisarm_effect body s
  · exact reqClearMill_effect body s
  · exact reqSetTrim_effect body s
  · exact withLength_effect _ _ _ _ fun _ => .stop
  · exact reqAckTrip_effect body s
  · exact reqRestore_effect body s
  · exact reqHandover_effect body s
  · exact reqReadChannels_effect body s
  · exact reqReadTrack_effect body s
  · exact reqReadSegments_effect body s
  · exact reqReadTrips_effect body s
  · exact reqSetReports_effect body s
  · exact reqSetAux_effect body s
  · exact reqReset_effect body s
  · exact .nothing

end Sys2Proof.Machine
end

section
/-! PROOFS. The effects of events, and the moves that the commands of a running part are made of. -/

namespace Sys2Proof.Machine

/-! ## Effects of events -/

/-- What an event that ends at the transmit line can make of the part before that end (R174), under the conditions on which
it happens. -/
inductive Effect (s : State) : State → Prop where
  | accept (i : FilterId) (hdue : (s.filter i).due = true) : Effect s (acceptFilter i s)
  | pulse (k : Stand) : Effect s (forwardAt k s)
  | frame (frame : List Byte) : Effect s (takeFrame frame s)
  | channel (c : Chan) (hdue : (s.chan c).expired = true) : Effect s (expireChannel c s)
  | update (k : Stand) (hdue : (s.gap k).timer = some 0) : Effect s (expireUpdate k s)
  | setpoint (hbusy : s.flc.tx ≠ none) : Effect s (evalScopes (nextSetpoint s))
  | handover (k : Stand) (h : Handover) (hpending : (s.seq k).handover = some h) (hdue : h.remaining = 0) :
      Effect s (expireHandover k h s)
  | stream (i : StreamId) (hdue : (vget s.hlk.streams i).timer = some 0) : Effect s (expireStream i s)

/-- The first tick up to the end of its event (R54). -/
def settleCore (pins : InputPins) (s : State) : State :=
  allStops.foldl (settleStop pins) (eachStand standNotice (evalScopes (settleInputs pins (countDown s))))

/-- What an event that brings nothing to the transmit line makes of the part: a byte that completes no frame, an inter-byte
limit, an interval's end, and a tick behind the due events (R21, R42, R125, R126, R169). -/
inductive Quiet (s : State) : State → Prop where
  | fieldByte (b : Byte) (framingError : Bool) :
      Quiet s (s.withFlc { s.flc with asm := (s.flc.asm.take b framingError).1 })
  | fieldTimeout : Quiet s (s.withFlc { s.flc with asm := .hunting })
  | hostByte (b : Byte) (framingError : Bool) :
      Quiet s (s.withHlk { s.hlk with rx := (s.hlk.rx.take b framingError).1 })
  | hostTimeout : Quiet s (s.withHlk { s.hlk with rx := .hunting })
  | nonOverlap (k : Stand) (hdue : (s.seq k).nonOverlap = some 0) :
      Quiet s (s.modSeq k fun q => { q with nonOverlap := none, fastOpen := true })
  | equalize (k : Stand) (hdue : (s.seq k).equalize = some 0) : Quiet s (s.modSeq k fun q => { q with equalize := none })
  | tick (pins : InputPins) (hsettled : s.plu.settled = true) : Quiet s (sampleFilters pins (countDown s))

/-! ## Moves -/

/-- The moves that commands of a running part are made of. -/
inductive Move (s : State) : State → Prop where
  | quiet {t : State} (h : Quiet s t) : Move s t
  | event {t : State} (h : Effect s t) : Move s (endEvent t)
  | settle (pins : InputPins) (hsettled : s.plu.settled = false) : Move s (endEvent (settleCore pins s))
  | arrive (q : HostFrame) : Move s (endEvent (arriveRequest q s))
  | sent (hbusy : s.hlk.tx ≠ none) : Move s (endEvent (s.withHlk { s.hlk with tx := none }))

/-- Moves one after another. -/
abbrev Moves : State → State → Prop := Relation.ReflTransGen Move

end Sys2Proof.Machine
end

section
/-! PROOFS. The part's smallest changes: a property that each of them keeps is kept by the effect of every event. The
changes carry what their callers know of them, so that invariants of the tables, the banks, the inputs and the queue are
properties of this kind. -/

namespace Sys2Proof.Machine

/-! ## The smallest changes -/

/-- The bank swap before it places the stands (R15, R86, R113, R165). -/
def swapStart (s : State) : State :=
  let p := s.sch.pendingBank
  let s := s.withSch { s.sch with
    active := { state := .valid, bank := p.bank, serial := p.serial }
    pendingBank := PendingBank.none }
  let s := s.modGaps fun k g =>
    { g with trim := 0, integ := 0, timer := (s.record k).map (·.tCtl) }
  let s := s.withPlu { s.plu with acc := Vector.replicate 8 0 }
  let s := s.withFlc { s.flc with slots := vtab fun k => swapSlot (s.record k) (vget s.flc.slots k) }
  let s := s.withTmx { s.tmx with forceCnt := Vector.replicate 8 0, gapCnt := Vector.replicate 8 0 }
  s.withStk { s.stk with hold := 0 }

theorem swapBank_eq (s : State) : swapBank s = millNotice (evalScopes (eachStand placeAtSwap (swapStart s))) := rfl

/-- What a detector's level makes of the presence logic of its stand (R48 to R50). -/
def Presence.sense (p : Presence) (level : Bool) : Presence :=
  match level, p.state with
  | true, .present => p
  | true, _ => { state := .present, measurer := 0 }
  | false, .present => { state := .dropout, measurer := 0 }
  | false, _ => p

/-- A detector's filter accepts its level, and the presence logic of the stand follows (R42, R48 to R50). -/
def senseStrip (k : Stand) (s : State) : State :=
  let level := pinActive s.plu.pins (.hmd k)
  (s.setFilter (.hmd k) { level := level, count := 0, due := false }).modPresence k (·.sense level)

/-- A record's removal with the stop line after it (R157, R162). -/
def dropRecord (r : TripRecord) (s : State) : State :=
  evalStopLine (s.withTmx { s.tmx with table := s.tmx.table.filter fun q => !(q.key == r.key) })

/-- A new record with the stop line after it (R154, R162). -/
def addRecord (key : Key) (s : State) : State :=
  evalStopLine (s.withTmx { s.tmx with table := s.tmx.table ++ [newRecord key s] })

/-- A property that the smallest changes of the part keep. A change that the property does not read keeps it by itself. -/
structure Closed (P : State → Prop) : Prop where
  /-- an update of a notice (R179) -/
  queue (b : NoticeBody) {s : State} (henabled : kindEnabled s.hlk.mask b.source = true) :
    P s → P (s.withHlk { s.hlk with queue := enterNotice s.hlk.queue b }) := by intros; assumption
  /-- a change of a sequencer record (R114) -/
  seq (k : Stand) (f : SeqRecord → SeqRecord) {s : State} : P s → P (s.modSeq k f) := by intros; assumption
  /-- a change of a gap record but for its timer, trim and integrator (R87) -/
  gap (k : Stand) (f : GapRecord → GapRecord) {s : State}
    (hf : ∀ g, (f g).timer = g.timer ∧ (f g).trim = g.trim ∧ (f g).integ = g.integ) : P s → P (s.modGap k f) := by
    intros; assumption
  /-- an update timer reloaded (R88) -/
  reload (k : Stand) (r : StandRecord) {s : State} (hrecord : s.record k = some r) :
    P s → P (s.modGap k fun g => { g with timer := some r.tCtl }) := by intros; assumption
  /-- the integrators stepped (R108) -/
  integrators (eX : Int) (km : Nat) {s : State} : P s → P (stepIntegrators eX km s) := by intros; assumption
  /-- the locked flags cleared (R99) -/
  unlock {s : State} : P s → P (s.modGaps fun _ g => { g with locked := false }) := by intros; assumption
  /-- a change of the persistence counters (R141) -/
  counters (a b : Vector Nat 8) {s : State} : P s → P (s.withTmx { s.tmx with forceCnt := a, gapCnt := b }) := by
    intros; assumption
  /-- the records of a key with another state (R155, R156) -/
  mark (key : Key) (st : RecState) {s : State} : P s → P (s.modRecord key fun r => { r with state := st }) := by
    intros; assumption
  /-- a HELD record raised again (R154) -/
  reraise (key : Key) {s : State} :
    P s → P (s.modRecord key fun r => { r with state := .raised, occ := satSucc 255 r.occ }) := by intros; assumption
  /-- a new record (R154) -/
  add (key : Key) {s : State} (hnew : s.recordOf key = none) : P s → P (addRecord key s) := by intros; assumption
  /-- a record removed (R157) -/
  drop (r : TripRecord) {s : State} : P s → P (dropRecord r s) := by intros; assumption
  /-- a change of the slots, the frame in transmission and the sequences (R36 to R39) -/
  field (slots : Vector (Option Setpoint) 8) (tx : Option SetpointFrame) (seqs : Vector (BitVec 4) 8) {s : State} :
    P s → P (s.withFlc { s.flc with slots := slots, tx := tx, seqs := seqs }) := by intros; assumption
  /-- a COMMITTED bank made active (R15) -/
  swap {s : State} (hstate : s.sch.pendingBank.state = .committed) : P s → P (swapStart s) := by intros; assumption
  /-- a change of the mill state and the tail marks (R65, R75) -/
  mill (m : MillState) (marks : Vector Bool 8) {s : State} :
    P s → P (s.withStk { s.stk with mill := m, tailMarks := marks }) := by intros; assumption
  /-- the counters of a new coil (R68) -/
  coil {s : State} :
    P s → P (s.withStk { s.stk with
      coil := succ65535 s.stk.coil, allocated := 0, retired := 0, tailMarks := Vector.replicate 8 false }) := by
    intros; assumption
  /-- a change of the monitor hold count (R78) -/
  hold (n : Nat) {s : State} : P s → P (s.withStk { s.stk with hold := n }) := by intros; assumption
  /-- a span without its oldest record (R71, R77) -/
  pop (j : SpanId) (g : Segment) (rest : List Segment) {s : State} (hspan : s.span j = g :: rest) :
    P s → P (s.setSpan j rest) := by intros; assumption
  /-- a record pushed onto a span that has a place, or has just given one up (R62) -/
  push (j : SpanId) (g : Segment) {s : State}
    (hroom : (s.span j).length < 24 ∨ ∃ t, P t ∧ (s.span j).length < (t.span j).length) :
    P s → P (s.setSpan j (s.span j ++ [g])) := by intros; assumption
  /-- a span emptied (R75) -/
  emptySpan (j : SpanId) {s : State} : P s → P (s.setSpan j []) := by intros; assumption
  /-- a change of a bite slot (R73) -/
  bite (k : Stand) (b : Option Segment) {s : State} : P s → P (s.setBite k b) := by intros; assumption
  /-- a record in the retired ring (R64) -/
  ring (g : Segment) {s : State} :
    P s → P (s.withStk { s.stk with ring := enterRing s.stk.ring g, retired := satSucc 65535 s.stk.retired }) := by
    intros; assumption
  /-- an allocation (R70) -/
  allocate (k : Stand) {s : State} : P s → P (allocate k s) := by intros; assumption
  /-- a change of the length accumulators (R44) -/
  lengths (acc : Vector Nat 8) {s : State} : P s → P (s.withPlu { s.plu with acc := acc }) := by intros; assumption
  /-- a detector's level accepted (R42, R48 to R50) -/
  sense (k : Stand) {s : State} (hdue : (s.filter (.hmd k)).due = true) : P s → P (senseStrip k s) := by
    intros; assumption
  /-- the level of a stop loop accepted (R42) -/
  stopInput (n : StopNo) {s : State} :
    P s → P (s.setFilter (.stop n) { level := pinActive s.plu.pins (.stop n), count := 0, due := false }) := by
    intros; assumption
  /-- the level of a panel switch accepted (R42) -/
  panelInput (k : Stand) {s : State} :
    P s → P (s.setFilter (.panel k) { level := pinActive s.plu.pins (.panel k), count := 0, due := false }) := by
    intros; assumption
  /-- a step of a dropout measurer (R51) -/
  measured (k : Stand) (n : Nat) {s : State} (hstate : (s.presence k).state = .dropout) :
    P s → P (s.modPresence k fun p => { p with measurer := n }) := by intros; assumption
  /-- the end of a dropout by a tail (R51) -/
  absent (k : Stand) {s : State} (hstate : (s.presence k).state = .dropout) :
    P s → P (s.modPresence k fun _ => { state := .absent, measurer := 0 }) := by intros; assumption
  /-- a FAULT frame's record (R30) -/
  fault (c : Chan) (sequence : BitVec 4) (hit : EntryNo) {s : State} : P s → P (s.modChan c fun ch => ch.fault sequence hit) := by
    intros; assumption
  /-- a sample's record (R31) -/
  sample (c : Chan) (sequence : BitVec 4) (hit : EntryNo) (warn : Bool) (value : Int) (timeout : Nat) {s : State} :
    P s → P (s.modChan c fun ch => ch.sample sequence hit warn value timeout) := by intros; assumption
  /-- a FRESH channel gone STALE (R32) -/
  stale (c : Chan) {s : State} (hdue : (s.chan c).expired = true) :
    P s → P (s.modChan c fun ch => { ch with state := .stale }) := by intros; assumption
  /-- a stream's timer reloaded (R182) -/
  stream (i : StreamId) {s : State} (hdue : (vget s.hlk.streams i).timer = some 0) :
    P s → P (s.withHlk { s.hlk with
      streams := vset s.hlk.streams i
        { vget s.hlk.streams i with timer := some (vget s.hlk.streams i).period } }) := by intros; assumption

theorem Closed.notice {P : State → Prop} (h : Closed P) (b : NoticeBody) {s : State} (hs : P s) : P (updateNotice b s) := by
  unfold updateNotice
  split
  · rename_i henabled
    exact h.queue b henabled hs
  · exact hs

variable {P : State → Prop}

/-! ## Notices, setpoints and stands -/

theorem Closed.after_eachStand (f : Stand → State → State) (hf : ∀ k {s}, P s → P (f k s)) {s : State} (hs : P s) :
    P (eachStand f s) :=
  eachStand_inv P f (fun k _ h => hf k h) s hs

/-- What each change of a list keeps, the changes one after another keep. -/
theorem foldl_inv {β : Type} (f : State → β → State) (hf : ∀ b {s}, P s → P (f s b)) (l : List β) {s : State}
    (hs : P s) : P (l.foldl f s) := by
  induction l generalizing s with
  | nil => exact hs
  | cons b l ih => exact ih (hf b hs)

theorem Closed.after_standNotice (h : Closed P) (k : Stand) {s : State} (hs : P s) : P (standNotice k s) := h.notice _ hs

theorem Closed.after_millNotice (h : Closed P) {s : State} (hs : P s) : P (millNotice s) := h.notice _ hs

theorem Closed.after_tripNotice (h : Closed P) (key : Key) {s : State} (hs : P s) : P (tripNotice key s) := by
  unfold tripNotice
  split
  · exact h.notice _ hs
  · exact hs

theorem Closed.after_startSetpoint (h : Closed P) (k : Stand) (p : Setpoint) {s : State} (hs : P s) :
    P (startSetpoint k p s) :=
  h.gap k (fun g => { g with lastSent := some p, windowRef := if p.mode = .open_ then g.windowRef else some p.gap })
    (fun _ => ⟨rfl, rfl, rfl⟩)
    (h.field (vset s.flc.slots k none)
      (some { stand := k, tag := vget s.sch.config.tags k, seq := vget s.flc.seqs k, setpoint := p })
      (vset s.flc.seqs k (vget s.flc.seqs k + 1)) hs)

theorem Closed.after_emptySlot (h : Closed P) (k : Stand) {s : State} (hs : P s) : P (emptySlot k s) :=
  h.field _ s.flc.tx s.flc.seqs hs

theorem Closed.after_produce (h : Closed P) (k : Stand) (mode : Mode) (ref : Int) {s : State} (hs : P s) :
    P (produce k mode ref s) := by
  have href : P (s.modGap k fun g => { g with sRef := ref }) := h.gap k _ (fun _ => ⟨rfl, rfl, rfl⟩) hs
  obtain ⟨-, e⟩ | ⟨-, -, e⟩ | ⟨-, -, e⟩ := produce_cases k mode ref s <;> rw [e]
  · exact h.after_emptySlot k href
  · exact h.after_startSetpoint k _ href
  · exact h.field _ s.flc.tx s.flc.seqs href

theorem Closed.after_nextSetpoint (h : Closed P) {s : State} (hs : P s) : P (nextSetpoint s) := by
  unfold nextSetpoint
  split
  · exact h.after_startSetpoint _ _ hs
  · exact h.field s.flc.slots none s.flc.seqs hs

theorem Closed.after_evalDemand (h : Closed P) (k : Stand) {s : State} (hs : P s) : P (evalDemand k s) := h.seq k _ hs

theorem Closed.after_setStandState (h : Closed P) (k : Stand) (st : StandState) {s : State} (hs : P s) :
    P (setStandState k st s) := h.after_evalDemand k (h.seq k _ hs)

theorem Closed.after_placeStand (h : Closed P) (k : Stand) (st : StandState) {s : State} (hs : P s) :
    P (placeStand k st s) := h.after_standNotice k (h.after_setStandState k st hs)

theorem Closed.after_tripStand (h : Closed P) (k : Stand) {s : State} (hs : P s) : P (tripStand k s) := by
  have hstate := h.seq k (fun q => { q with state := .tripped, equalize := none }) hs
  unfold tripStand
  refine h.after_evalDemand k ?_
  split <;> split
  · exact h.gap k _ (fun _ => ⟨rfl, rfl, rfl⟩) (h.after_produce k _ _ hstate)
  · exact h.gap k _ (fun _ => ⟨rfl, rfl, rfl⟩) hstate
  · exact h.after_produce k _ _ hstate
  · exact hstate

theorem Closed.after_enterTripped (h : Closed P) (k : Stand) {s : State} (hs : P s) : P (enterTripped k s) :=
  h.after_standNotice k (h.after_tripStand k hs)

theorem Closed.after_enterState (h : Closed P) (k : Stand) (st : StandState) {s : State} (hs : P s) :
    P (enterState k st s) := by
  unfold enterState
  split
  · exact h.after_tripStand k hs
  · exact h.after_setStandState k st hs

theorem Closed.after_evalFrozen (h : Closed P) (k : Stand) {s : State} (hs : P s) : P (evalFrozen k s) := by
  unfold evalFrozen
  split
  · exact hs
  · exact h.after_standNotice k (h.seq k _ hs)

theorem Closed.after_leaveHandover (h : Closed P) (k : Stand) (st : StandState) {s : State} (hs : P s) :
    P (leaveHandover k st s) := h.after_enterState k st (h.seq k _ hs)

theorem Closed.after_endHandover (h : Closed P) (k : Stand) (dir : Direction) (st : StandState)
    (result : HandoverResult) {s : State} (hs : P s) : P (endHandover k dir st result s) :=
  h.notice _ (h.after_standNotice k (h.after_leaveHandover k st hs))

theorem Closed.after_abortHandover (h : Closed P) (k : Stand) {s : State} (hs : P s) : P (abortHandover k s) := by
  unfold abortHandover
  split
  · exact h.after_endHandover k _ _ _ hs
  · exact hs

theorem Closed.after_openCreationAt (h : Closed P) (k : Stand) {s : State} (hs : P s) : P (openCreationAt k s) := by
  unfold openCreationAt
  split
  case h_6 => exact h.after_abortHandover k hs
  case h_7 | h_8 | h_9 => exact hs
  all_goals exact h.after_enterTripped k hs

theorem Closed.after_windowTest (h : Closed P) (k : Stand) {s : State} (hs : P s) : P (windowTest k s) := by
  unfold windowTest
  split
  · exact h.after_placeStand k _ hs
  · exact hs

/-! ## The trip table -/

theorem Closed.after_removeRecord (h : Closed P) (r : TripRecord) {s : State} (hs : P s) : P (removeRecord r s) :=
  h.notice _ (Closed.after_eachStand evalDemand h.after_evalDemand
    (Closed.after_eachStand evalFrozen h.after_evalFrozen (h.drop r hs)))

theorem Closed.after_goneKey (h : Closed P) (key : Key) {s : State} (hs : P s) : P (goneKey key s) := by
  obtain ⟨-, e⟩ | ⟨r, -, ⟨-, e⟩ | ⟨-, e⟩ | ⟨-, e⟩⟩ := goneKey_cases key s <;> rw [e]
  · exact hs
  · exact h.after_tripNotice key (h.mark key _ hs)
  · exact h.after_removeRecord r hs
  · exact hs

theorem Closed.after_evalScopes (h : Closed P) {s : State} (hs : P s) : P (evalScopes s) := by
  refine foldl_inv _ (fun key s hs => ?_) _ (h.counters _ _ hs)
  unfold goneOutOfScope
  split
  · exact h.after_goneKey key hs
  · exact hs

theorem Closed.after_handCreation (h : Closed P) (r : TripRecord) {s : State} (hs : P (evalStopLine s)) :
    P (handCreation r s) := by
  refine Closed.after_eachStand evalDemand h.after_evalDemand
    (Closed.after_eachStand evalFrozen h.after_evalFrozen ?_)
  split
  · refine Closed.after_eachStand _ (fun k s hs => ?_) hs
    split
    · exact h.after_openCreationAt k hs
    · exact hs
  · exact hs

/-! ## The bank swap and the mill -/

theorem Closed.after_placeAtSwap (h : Closed P) (k : Stand) {s : State} (hs : P s) : P (placeAtSwap k s) := by
  unfold placeAtSwap
  split
  · exact h.seq k _ hs
  · exact hs
  · exact hs
  · dsimp only
    split
    · exact hs
    · exact h.after_standNotice k (h.after_enterState k _ hs)

theorem Closed.after_swapBank (h : Closed P) {s : State} (hstate : s.sch.pendingBank.state = .committed) (hs : P s) :
    P (swapBank s) :=
  h.after_millNotice (h.after_evalScopes (Closed.after_eachStand placeAtSwap h.after_placeAtSwap (h.swap hstate hs)))

theorem Closed.after_setMill (h : Closed P) (m : MillState) {s : State} (hs : P s) : P (setMill m s) :=
  h.after_evalScopes (h.after_millNotice (h.mill m s.stk.tailMarks hs))

theorem Closed.after_tailToSetup (h : Closed P) (k : Stand) {s : State} (hs : P s) : P (tailToSetup k s) := by
  unfold tailToSetup
  split
  · exact h.after_placeStand k _ hs
  · exact hs

theorem Closed.after_millEmpty (h : Closed P) {s : State} (hs : P s) : P (millEmpty s) := by
  unfold millEmpty
  refine h.after_setMill _ (h.mill _ (Vector.replicate 8 false)
    (h.after_evalScopes (Closed.after_eachStand tailToSetup h.after_tailToSetup ?_)))
  split
  · rename_i hstate
    exact h.after_swapBank hstate hs
  · exact hs

theorem Closed.after_millEmptyTest (h : Closed P) {s : State} (hs : P s) : P (millEmptyTest s) := by
  unfold millEmptyTest
  split
  · exact h.after_millEmpty hs
  · exact hs

/-! ## Raising a key -/

theorem Closed.after_createRecord (h : Closed P) (inTracker : Bool) (key : Key) {s : State}
    (hnew : s.recordOf key = none) (hs : P s) : P (createRecord inTracker key s) := by
  have hcreated := h.after_handCreation (newRecord key s) (h.add key hnew hs)
  refine h.after_evalScopes (h.after_tripNotice key ?_)
  split
  · exact h.after_millEmptyTest hcreated
  · exact hcreated

theorem Closed.after_raiseKey (h : Closed P) (inTracker : Bool) (key : Key) {s : State} (hs : P s) :
    P (raiseKey inTracker key s) := by
  obtain ⟨hnew, e⟩ | ⟨r, -, ⟨-, e⟩ | ⟨-, e⟩⟩ := raiseKey_cases inTracker key s <;> rw [e]
  · exact h.after_createRecord inTracker key hnew hs
  · exact h.after_tripNotice key (h.reraise key hs)
  · exact hs

theorem Closed.after_pulseKey (h : Closed P) (key : Key) {s : State} (hs : P s) : P (pulseKey key s) :=
  h.after_goneKey key (h.after_raiseKey false key hs)

theorem Closed.after_levelKey (h : Closed P) (key : Key) (holds : Bool) {s : State} (hs : P s) :
    P (levelKey key holds s) := by
  unfold levelKey
  split
  · exact h.after_raiseKey false key hs
  · exact h.after_goneKey key hs

end Sys2Proof.Machine
end

section
/-! PROOFS. A property that the smallest changes keep is kept by the tracker's events, by the inputs, the encoders and the
channels, by the updates, and so by the effect of every event. -/

namespace Sys2Proof.Machine

variable {P : State → Prop}

/-! ## The strip tracker -/

theorem Closed.after_retire (h : Closed P) (g : Segment) {s : State} (hs : P s) : P (retire g s) := h.notice _ (h.ring g hs)

theorem Closed.after_offerMonitor (h : Closed P) (meas : Option Nat) {s : State} (hs : P s) : P (offerMonitor meas s) := by
  unfold offerMonitor
  split
  · split
    · dsimp only
      split
      · exact hs
      · exact h.hold _ (h.integrators _ _ hs)
    · exact h.hold _ hs
  · exact hs

theorem Closed.after_takeExitStale (h : Closed P) (fresh : Bool) {s : State} (hs : P s) : P (takeExitStale fresh s) := by
  unfold takeExitStale
  split
  · exact h.after_goneKey _ hs
  · split
    · exact h.after_raiseKey _ _ hs
    · exact hs

theorem Closed.after_arrive (h : Closed P) (g : Segment) {s : State} (hs : P s) : P (arrive g s) :=
  h.after_retire _ (h.after_offerMonitor _ (h.after_takeExitStale _ hs))

theorem Closed.after_popExit (h : Closed P) {s : State} (hs : P s) : P (popExit s) := by
  unfold popExit
  split
  · rename_i g rest hspan
    exact h.after_arrive g (h.pop _ g rest hspan hs)
  · exact hs

/-- A push onto a span with a place goes behind its records. -/
theorem pushSpan_of_room (j : SpanId) (g : Segment) (s : State) (hroom : (s.span j).length < 24) :
    pushSpan j g s = s.setSpan j (s.span j ++ [g]) := by
  have hplace : ¬Config.spanPlaces ≤ (s.span j).length := by simpa [Config.spanPlaces] using hroom
  simp only [pushSpan, if_neg hplace]

/-- A push onto a full span retires its oldest record LOST first (R62). -/
theorem pushSpan_of_full (j : SpanId) (g old : Segment) (rest : List Segment) (s : State) (hspan : s.span j = old :: rest)
    (hfull : 24 ≤ (s.span j).length) :
    pushSpan j g s = (retire old.asLost (s.setSpan j rest)).setSpan j (rest ++ [g]) := by
  have hplace : Config.spanPlaces ≤ (s.span j).length := hfull
  have hkeep : (retire old.asLost (s.setSpan j rest)).span j = rest := by simp [State.span, State.setSpan]
  rw [pushSpan, if_pos hplace]
  simp only [hspan, hkeep]

theorem Closed.after_pushSpan (h : Closed P) (j : SpanId) (g : Segment) {s : State} (hs : P s) : P (pushSpan j g s) := by
  by_cases hroom : (s.span j).length < 24
  · rw [pushSpan_of_room j g s hroom]
    exact h.push j g (.inl hroom) hs
  · obtain ⟨old, rest, hspan⟩ : ∃ old rest, s.span j = old :: rest := by
      cases hspan : s.span j with
      | nil => simp [hspan] at hroom
      | cons old rest => exact ⟨old, rest, rfl⟩
    rw [pushSpan_of_full j g old rest s hspan (by omega)]
    have hkeep : (retire old.asLost (s.setSpan j rest)).span j = rest := by simp [State.span, State.setSpan]
    have hpush := h.push j g (s := retire old.asLost (s.setSpan j rest)) (.inr ⟨s, hs, by simp [hkeep, hspan]⟩)
      (h.after_retire _ (h.pop j old rest hspan hs))
    rwa [hkeep] at hpush

theorem Closed.after_pushOut (h : Closed P) (k : Stand) (g : Segment) {s : State} (hs : P s) : P (pushOut k g s) := by
  unfold pushOut
  split
  · split
    · exact h.after_retire _ hs
    · exact h.after_pushSpan _ g hs
  · dsimp only
    split
    · exact h.after_popExit (h.after_pushSpan _ g hs)
    · exact h.after_pushSpan _ g hs

theorem Closed.after_pushBite (h : Closed P) (k : Stand) {s : State} (hs : P s) : P (pushBite k s) := by
  unfold pushBite
  split
  · exact h.after_pushOut k _ (h.bite k none hs)
  · exact hs

theorem Closed.after_takeIntoBite (h : Closed P) (k : Stand) {s : State} (hs : P s) : P (takeIntoBite k s) := by
  unfold takeIntoBite
  split
  · rename_i g rest hspan
    exact h.bite k _ (h.pop _ g rest hspan hs)
  · exact hs

theorem Closed.after_refill (h : Closed P) (k : Stand) {s : State} (hs : P s) : P (refill k s) := by
  unfold refill
  split
  · split
    · exact hs
    · exact h.allocate k hs
  · exact h.after_takeIntoBite k hs

theorem Closed.after_takeCount (h : Closed P) (key : Key) (beyond : Bool) {s : State} (hs : P s) :
    P (takeCount key beyond s) := by
  unfold takeCount
  split
  · split
    · exact h.after_raiseKey true key hs
    · exact hs
  · exact h.after_goneKey key hs

theorem Closed.after_handCount (h : Closed P) (k : Stand) (count : Nat) {s : State} (hs : P s) :
    P (handCount k count s) := by
  unfold handCount
  split
  · exact h.after_takeCount _ _ (h.after_takeCount _ _ (h.after_takeCount _ _ hs))
  · exact hs

theorem Closed.after_endTracker (h : Closed P) (before : State) {s : State} (hs : P s) : P (endTracker before s) :=
  h.after_millEmptyTest (foldl_inv _ (fun k _ hs => h.after_handCount k _ hs) _ hs)

theorem Closed.after_tailMark (h : Closed P) (marks : Vector Bool 8) {s : State} (hs : P s) :
    P (s.withStk { s.stk with tailMarks := marks }) := h.mill s.stk.mill marks hs

theorem Closed.after_threadEntry (h : Closed P) (k : Stand) {s : State} (hs : P s) : P (threadEntry k s) := by
  have hmark := h.after_tailMark (vset s.stk.tailMarks k false) hs
  refine h.after_endTracker s ?_
  dsimp only
  split
  · exact h.allocate k hmark
  · exact h.after_takeIntoBite k hmark

theorem Closed.after_trackHead (h : Closed P) (k : Stand) {s : State} (hs : P s) : P (trackHead k s) := by
  unfold trackHead
  split
  · exact h.after_threadEntry k hs
  · exact hs

theorem Closed.after_trackAdvance (h : Closed P) (k : Stand) {s : State} (hs : P s) : P (trackAdvance k s) := by
  unfold trackAdvance
  split
  · exact hs
  split
  · exact h.after_endTracker s (h.after_popExit hs)
  split
  · exact h.after_endTracker s (h.after_refill k (h.after_pushBite k hs))
  · exact hs

theorem Closed.after_discardSpan (h : Closed P) (j : SpanId) {s : State} (hs : P s) : P (discardSpan j s) :=
  foldl_inv _ (fun _ _ hs => h.after_retire _ hs) _ (h.emptySpan j hs)

/-- The tracker's part of a tail before its mill-state and end-of-event effects: the push, the span given up, the mark (R75,
R76). -/
def giveTail (k : Stand) (s : State) : State :=
  let t := pushBite k s
  let t := if t.isFirst k then t else discardSpan (spanInto k) t
  t.withStk { t.stk with tailMarks := vset t.stk.tailMarks k true }

/-- What the first stand's tail makes of the mill (R75). -/
def tailMill (k : Stand) (s : State) : State :=
  if s.isFirst k && s.stk.mill == .rolling then setMill .tailout s else s

theorem trackTail_eq (k : Stand) (s : State) :
    trackTail k s =
      if s.inSet k && s.stk.mill.running then endTracker s (tailMill k (giveTail k s)) else s := rfl

theorem Closed.after_giveTail (h : Closed P) (k : Stand) {s : State} (hs : P s) : P (giveTail k s) := by
  refine h.after_tailMark _ ?_
  split
  · exact h.after_pushBite k hs
  · exact h.after_discardSpan _ (h.after_pushBite k hs)

theorem Closed.after_tailMill (h : Closed P) (k : Stand) {s : State} (hs : P s) : P (tailMill k s) := by
  unfold tailMill
  split
  · exact h.after_setMill _ hs
  · exact hs

theorem Closed.after_trackTail (h : Closed P) (k : Stand) {s : State} (hs : P s) : P (trackTail k s) := by
  rw [trackTail_eq]
  split
  · exact h.after_endTracker s (h.after_tailMill k (h.after_giveTail k hs))
  · exact hs

theorem Closed.after_lockOn (h : Closed P) (k : Stand) {s : State} (hs : P s) : P (lockOn k s) := by
  unfold lockOn
  split
  · exact h.after_evalScopes (h.after_placeStand k _
      (h.gap k (fun g => { g with hLock := _, sRefLock := g.sRef, locked := true }) (fun _ => ⟨rfl, rfl, rfl⟩) hs))
  · exact hs

theorem Closed.after_countAdvance (h : Closed P) (k : Stand) {s : State} (hs : P s) : P (countAdvance k s) := by
  unfold countAdvance
  split
  · split
    · have hcount := h.gap k (fun g => { g with lockCount := g.lockCount + 1 }) (fun _ => ⟨rfl, rfl, rfl⟩) hs
      dsimp only
      split
      · exact h.after_lockOn k hcount
      · exact hcount
    · exact hs
  · exact hs

theorem Closed.after_biteAdvance (h : Closed P) (k : Stand) {s : State} (hs : P s) : P (biteAdvance k s) :=
  h.after_countAdvance k (h.after_trackAdvance k hs)

/-! ## Heads and tails -/

theorem Closed.after_startCoil (h : Closed P) {s : State} (hs : P s) : P (startCoil s) :=
  h.after_setMill _ (h.unlock (h.coil hs))

theorem Closed.after_staleAtThread (h : Closed P) (k : Stand) {s : State} (hs : P s) : P (staleAtThread k s) := by
  unfold staleAtThread
  split
  · exact h.after_raiseKey false _ hs
  · exact hs

theorem Closed.after_threadStand (h : Closed P) (k : Stand) {s : State} (hs : P s) : P (threadStand k s) := by
  have hthread := h.gap k GapRecord.enterThread (fun _ => ⟨rfl, rfl, rfl⟩) (h.after_setStandState k .thread hs)
  refine h.after_staleAtThread k (h.after_evalScopes (h.after_standNotice k ?_))
  split
  · exact h.after_startCoil hthread
  · exact hthread

theorem Closed.after_sequenceHead (h : Closed P) (k : Stand) {s : State} (hs : P s) : P (sequenceHead k s) := by
  unfold sequenceHead
  split
  case h_1 =>
    split
    · exact h.after_threadStand k hs
    · exact h.after_pulseKey _ hs
  case h_2 | h_3 => exact h.after_pulseKey _ hs
  all_goals exact hs

theorem Closed.after_seqHead (h : Closed P) (k : Stand) {s : State} (hs : P s) : P (seqHead k s) := by
  unfold seqHead
  split
  · exact h.after_evalScopes (h.after_sequenceHead k hs)
  · exact hs

/-- A new strip present at a stand, taken by the sequencer and the tracker (R48). -/
def headEvent (k : Stand) (s : State) : State := standNotice k (trackHead k (seqHead k s))

/-- A value written back into its place changes nothing. -/
theorem vset_vget {α : Type} {n : Nat} (v : Vector α n) (i : Fin n) : vset v i (vget v i) = v := by
  refine vec_ext fun j => ?_
  rw [vget_vset]
  split
  · rename_i hji
    rw [hji]
  · rfl

/-- A change that leaves the presence logic of a stand as it is changes nothing. -/
theorem modPresence_same (k : Stand) (f : Presence → Presence) (s : State) (hf : f (s.presence k) = s.presence k) :
    s.modPresence k f = s := by
  rw [State.modPresence, hf, State.presence, vset_vget]

/-- A change of a stand's presence logic depends on what it makes of the present one alone. -/
theorem modPresence_congr (k : Stand) (f g : Presence → Presence) (s : State) (hfg : f (s.presence k) = g (s.presence k)) :
    s.modPresence k f = s.modPresence k g := by
  simp only [State.modPresence, hfg]

/-- The accept of a detector's filter: the presence logic follows the level, and a level that makes strip present brings a
head event (R48 to R50). -/
theorem acceptFilter_hmd (k : Stand) (s : State) :
    acceptFilter (.hmd k) s =
      if pinActive s.plu.pins (.hmd k) = true ∧ (s.presence k).state = .absent then headEvent k (senseStrip k s)
      else senseStrip k s := by
  simp only [acceptFilter, filteredChange, senseStrip]
  generalize hlevel : pinActive s.plu.pins (.hmd k) = level
  have hpres (f : Filter) : (s.setFilter (.hmd k) f).presence k = s.presence k := rfl
  cases level <;> cases hstate : (s.presence k).state <;>
    simp only [hmdOn, hmdOff, headEvent, hpres, hstate, if_true, if_false, and_true, and_false, reduceCtorEq,
      Bool.false_eq_true]
  case false.absent | false.dropout | true.present =>
    exact (modPresence_same k _ _ (by simp [Presence.sense, hpres, hstate])).symm
  case false.present | true.dropout =>
    exact modPresence_congr k _ _ _ (by simp [Presence.sense, hpres, hstate])
  case true.absent =>
    rw [modPresence_congr k _ (fun p => p.sense true) _ (by simp [Presence.sense, hpres, hstate])]

theorem Closed.after_headEvent (h : Closed P) (k : Stand) {s : State} (hs : P s) : P (headEvent k s) :=
  h.after_standNotice k (h.after_trackHead k (h.after_seqHead k hs))

theorem Closed.after_seqTail (h : Closed P) (k : Stand) {s : State} (hs : P s) : P (seqTail k s) := by
  unfold seqTail
  split
  · have htail := h.after_evalScopes (h.after_standNotice k
      (h.gap k (fun g => { g with lockCount := 0 }) (fun _ => ⟨rfl, rfl, rfl⟩) (h.after_setStandState k .tail hs)))
    dsimp only
    split
    · exact h.after_millEmptyTest htail
    · exact htail
  · exact hs

theorem Closed.after_tailConfirmed (h : Closed P) (k : Stand) {s : State} (hstate : (s.presence k).state = .dropout)
    (hs : P s) : P (tailConfirmed k s) :=
  h.after_standNotice k (h.after_trackTail k (h.after_seqTail k (h.absent k hstate hs)))

/-! ## Panel changes, accepts and pulses -/

theorem Closed.after_completeToCoord (h : Closed P) (k : Stand) {s : State} (hs : P s) : P (completeToCoord k s) :=
  h.after_evalScopes (h.after_endHandover k _ _ _ hs)

theorem Closed.after_panelChange (h : Closed P) (k : Stand) (active : Bool) {s : State} (hs : P s) :
    P (panelChange k active s) := by
  unfold panelChange
  split
  · split <;> split
    · exact h.after_evalScopes (h.after_endHandover k _ _ _ hs)
    · exact hs
    · exact hs
    · exact h.after_completeToCoord k hs
  · exact hs

theorem Closed.after_acceptFilter (h : Closed P) (i : FilterId) {s : State} (hdue : (s.filter i).due = true) (hs : P s) :
    P (acceptFilter i s) := by
  cases i with
  | hmd k =>
    rw [acceptFilter_hmd]
    have hsense := h.sense k hdue hs
    split
    · exact h.after_headEvent k hsense
    · exact hsense
  | stop n => exact h.after_levelKey _ _ (h.stopInput n hs)
  | panel k => exact h.after_panelChange k _ (h.panelInput k hs)

theorem Closed.after_accumulate (h : Closed P) (k : Stand) {s : State} (hs : P s) : P (accumulate k s) := by
  unfold accumulate
  split
  · dsimp only
    split
    · exact h.after_biteAdvance k (h.lengths _ hs)
    · exact h.lengths _ hs
  · exact hs

theorem Closed.after_measure (h : Closed P) (k : Stand) (record : Option StandRecord) {s : State} (hs : P s) :
    P (measure k record s) := by
  unfold measure
  split
  · rename_i hstate
    dsimp only
    split
    · exact h.after_tailConfirmed k hstate hs
    · exact h.measured k _ hstate hs
  · exact hs

theorem Closed.after_forwardAt (h : Closed P) (k : Stand) {s : State} (hs : P s) : P (forwardAt k s) :=
  h.after_measure k _ (h.after_accumulate k hs)

/-! ## Frames and channels -/

theorem Closed.after_takeForce (h : Closed P) (k : Stand) (value : Int) {s : State} (hs : P s) :
    P (takeForce k value s) := by
  unfold takeForce
  split
  · dsimp only
    have hcount (a : Vector Nat 8) := h.counters a s.tmx.gapCnt hs
    split
    · exact h.after_raiseKey false _ (hcount _)
    · split
      · exact hcount _
      · exact h.after_goneKey _ (hcount _)
  · exact hs

theorem Closed.after_takeWindow (h : Closed P) (k : Stand) (value : Int) {s : State} (hs : P s) :
    P (takeWindow k value s) := by
  unfold takeWindow
  split
  · dsimp only
    have hcount (a : Vector Nat 8) := h.counters s.tmx.forceCnt a hs
    split
    · exact h.after_raiseKey false _ (hcount _)
    · split
      · exact hcount _
      · exact h.after_goneKey _ (hcount _)
  · exact hs

theorem Closed.after_clearStale (h : Closed P) (k : Stand) {s : State} (hs : P s) : P (clearStale k s) := by
  unfold clearStale
  split
  · exact h.after_goneKey _ hs
  · exact hs

theorem Closed.after_lapseAt (h : Closed P) (k : Stand) {s : State} (hs : P s) : P (takeLapse.lapseAt k s) := by
  unfold takeLapse.lapseAt
  split
  · exact h.after_raiseKey false _ hs
  · exact hs

theorem Closed.after_takeLapse (h : Closed P) (c : Chan) {s : State} (hs : P s) : P (takeLapse c s) := by
  unfold takeLapse
  split
  · exact h.after_lapseAt _ hs
  · exact h.after_lapseAt _ hs
  · exact hs

theorem Closed.after_takeSample (h : Closed P) (c : Chan) (value : Int) {s : State} (hs : P s) :
    P (takeSample c value s) := by
  unfold takeSample
  split
  · exact h.after_clearStale _ (h.after_takeForce _ _ hs)
  · exact h.after_windowTest _ (h.after_clearStale _ (h.after_takeWindow _ _ hs))
  · exact h.after_levelKey _ _ hs
  · exact hs

theorem Closed.after_deliver (h : Closed P) (c : Chan) (hit : EntryNo) (f : FieldFrame) {s : State} (hs : P s) :
    P (deliver c hit f s) := by
  unfold deliver
  split
  · exact hs
  split
  · dsimp only
    split
    · exact h.fault c _ hit hs
    · exact h.after_takeLapse c (h.fault c _ hit hs)
  · exact h.after_evalScopes (h.after_takeSample c _ (h.sample c _ hit _ _ _ hs))

theorem Closed.after_takeFrame (h : Closed P) (frame : List Byte) {s : State} (hs : P s) : P (takeFrame frame s) := by
  unfold takeFrame
  dsimp only
  split
  · exact hs
  split
  · exact hs
  split
  · exact h.after_deliver _ _ _ hs
  · exact hs

theorem Closed.after_expireChannel (h : Closed P) (c : Chan) {s : State} (hdue : (s.chan c).expired = true) (hs : P s) :
    P (expireChannel c s) := h.after_takeLapse c (h.stale c hdue hs)

/-! ## Updates -/

theorem Closed.after_estimate (h : Closed P) (k : Stand) (r : StandRecord) {s : State} (hs : P s) :
    P (estimate k r s) := by
  unfold estimate
  split
  · exact h.gap k (fun g => g.compute _) (fun _ => ⟨rfl, rfl, rfl⟩) hs
  · exact h.gap k (fun g => { g with stale := true }) (fun _ => ⟨rfl, rfl, rfl⟩) hs

theorem Closed.after_rollUpdate (h : Closed P) (k : Stand) (r : StandRecord) (hGm : Nat) {s : State} (hs : P s) :
    P (rollUpdate k r hGm s) :=
  h.after_produce k _ _
    (h.gap k (fun g => { g with limited := _, slewing := _ }) (fun _ => ⟨rfl, rfl, rfl⟩) hs)

theorem Closed.after_updateOut (h : Closed P) (k : Stand) (r : StandRecord) {s : State} (hs : P s) :
    P (updateOut k r s) := by
  unfold updateOut
  split
  · exact h.after_produce k _ _ hs
  · exact h.after_produce k _ _ hs
  · exact hs
  · exact hs

theorem Closed.after_updateSetup (h : Closed P) (k : Stand) (r : StandRecord) {s : State} (hs : P s) :
    P (updateSetup k r s) := by
  refine h.after_windowTest k ?_
  split
  · exact hs
  · exact h.after_produce k _ _ hs

theorem Closed.after_updateReady (h : Closed P) (k : Stand) (r : StandRecord) {s : State} (hs : P s) :
    P (updateReady k r s) := by
  unfold updateReady
  split
  · exact hs
  · exact h.after_produce k _ _ hs

theorem Closed.after_updateThread (h : Closed P) (k : Stand) (r : StandRecord) {s : State} (hs : P s) :
    P (updateThread k r s) := by
  have hsent := h.after_produce k .hold r.sPreset (h.after_estimate k r hs)
  unfold updateThread
  dsimp only
  split
  · exact h.after_lockOn k hsent
  · exact hsent

theorem Closed.after_updateRoll (h : Closed P) (k : Stand) (r : StandRecord) {s : State} (hs : P s) :
    P (updateRoll k r s) := by
  unfold updateRoll
  dsimp only
  split
  · exact h.after_rollUpdate k r _ (h.after_estimate k r hs)
  · exact h.after_produce k _ _ (h.after_estimate k r hs)

theorem Closed.after_update (h : Closed P) (k : Stand) (r : StandRecord) {s : State} (hs : P s) : P (update k r s) := by
  unfold update
  split
  · exact h.after_updateOut k r hs
  · exact h.after_updateSetup k r hs
  · exact h.after_updateReady k r hs
  · exact h.after_updateThread k r hs
  · exact h.after_updateRoll k r hs
  · exact h.after_produce k _ _ hs
  · exact h.after_produce k _ _ hs
  · exact h.after_emptySlot k hs
  · exact h.after_emptySlot k hs

theorem Closed.after_expireUpdate (h : Closed P) (k : Stand) {s : State} (hs : P s) : P (expireUpdate k s) := by
  unfold expireUpdate
  split
  · rename_i r hrecord
    exact h.after_evalScopes (h.after_update k r (h.reload k r hrecord hs))
  · exact hs

/-! ## Every event -/

theorem Closed.after_expireStream (h : Closed P) (i : StreamId) {s : State}
    (hdue : (vget s.hlk.streams i).timer = some 0) (hs : P s) : P (expireStream i s) := h.notice _ (h.stream i hdue hs)

/-- What the smallest changes keep, the effect of every event keeps. -/
theorem Closed.after_effect (h : Closed P) {s t : State} (e : Effect s t) (hs : P s) : P t := by
  cases e with
  | accept i hdue => exact h.after_acceptFilter i hdue hs
  | pulse k => exact h.after_forwardAt k hs
  | frame frame => exact h.after_takeFrame frame hs
  | channel c hdue => exact h.after_expireChannel c hdue hs
  | update k hdue => exact h.after_expireUpdate k hs
  | setpoint hbusy => exact h.after_evalScopes (h.after_nextSetpoint hs)
  | handover k ho hpending hdue => exact h.after_evalScopes (h.after_endHandover k _ _ _ hs)
  | stream i hdue => exact h.after_expireStream i hdue hs

end Sys2Proof.Machine
end

section
/-! PROOFS. The changes that requests, the transmit line, the assemblers and the ticks make besides; a property that every
change keeps is kept by every step. -/

namespace Sys2Proof.Machine

variable {P : State → Prop}

/-! ## Every change -/

/-- A property that the changes of events and of requests keep. -/
structure RequestClosed (P : State → Prop) : Prop extends Closed P where
  /-- free values spent (log 9) -/
  spend {s : State} : P s → P s.spendFree := by intros; assumption
  /-- CONFIGURE (R18) -/
  configure (body : List Byte) {s : State} (hfault : configureFault body = none) :
    P s → P ((s.withSch { s.sch with config := configured body s.sch.config }).withFlc { s.flc with
      slots := vtab fun k => if vget (configured body s.sch.config).tags k = 0 then none else vget s.flc.slots k }) := by
    intros; assumption
  /-- SET_ACCEPT (R25) -/
  accept (entries : Vector AcceptEntry 24) {s : State} :
    P s → P (s.withFlc { s.flc with accept := entries }) := by intros; assumption
  /-- SET_ACTIONS (R152) -/
  actions (body : List Byte) {s : State} (hfault : actionsFault (actionItems body) = none) :
    P s → P (s.withSch { s.sch with
      config := { s.sch.config with actions := actionsWritten (actionItems body) s.sch.config.actions } }) := by
    intros; assumption
  /-- LOAD_STAND (R8) -/
  loadStand (k : Stand) (body : List Byte) {s : State} (hfield : standBadField body 1 = none) :
    P s → P (s.withSch { s.sch with
      pendingBank := loaded { s.sch.pendingBank.bank with
        stands := vset s.sch.pendingBank.bank.stands k (some (rdStand body 1)) } }) := by
    intros; assumption
  /-- LOAD_MILL (R9) -/
  loadMill (body : List Byte) {s : State} (hfield : millBadField body = none) :
    P s → P (s.withSch { s.sch with
      pendingBank := loaded { s.sch.pendingBank.bank with mill := some (rdMill body) } }) := by
    intros; assumption
  /-- a pending bank COMMITTED (R2, R13) -/
  commit {s : State} (hstate : s.sch.pendingBank.state = .editing)
    (hvalid : validationFault s.sch.pendingBank.bank = none) : P s → P (commitPending s) := by intros; assumption
  /-- CLEAR_PENDING (R10) -/
  clearPending {s : State} : P s → P (s.withSch { s.sch with pendingBank := PendingBank.none }) := by intros; assumption
  /-- SET_TRIM (R105) -/
  trim (k : Stand) (r : StandRecord) (x : Int) {s : State} (hrecord : s.record k = some r) :
    P s → P (s.modGap k fun g => { g with trim := saturate (-(r.trimMax : Int)) r.trimMax x }) := by
    intros; assumption
  /-- accumulators and measurers cleared (R53, R56, R81) -/
  measurers {s : State} : P s → P (s.withPlu (clearMeasurers s.plu)) := by intros; assumption
  /-- SET_REPORTS (R183) -/
  reports (body : List Byte) {s : State} (hlen : body.length = 49) (hfault : reportsFault body = none) :
    P s → P (s.withHlk { s.hlk with
      mask := BitVec.ofNat 6 (rd8 body 0)
      queue := maskedQueue (BitVec.ofNat 6 (rd8 body 0)) s.hlk.queue
      streams := vtab fun i => rdStream body (streamAt i) }) := by
    intros; assumption
  /-- SET_AUX (R184) -/
  aux (pins : Vector AuxPin 2) {s : State} : P s → P (s.withHlk { s.hlk with aux := pins }) := by intros; assumption
  /-- the report queue emptied (R185) -/
  emptyQueue {s : State} : P s → P (resetReports s) := by intros; assumption
  /-- trims and integrators cleared and the update timers restarted (R112) -/
  restartGaps {s : State} : P s → P (resetGaps s) := by intros; assumption
  /-- the tracker cleared (R85) -/
  restartTracker {s : State} : P s → P (s.withStk s.stk.softReset) := by intros; assumption

/-- A property that every change of a running part keeps. -/
structure Kept (P : State → Prop) : Prop extends RequestClosed P where
  /-- a reply composed (R171) -/
  compose (reply : HostFrame) {s : State} : P s → P (s.withHlk { s.hlk with slot := some reply }) := by
    intros; assumption
  /-- a request held, or taken from its place (R171) -/
  holdRequest (q : Option HostFrame) {s : State} : P s → P (s.withHlk { s.hlk with held := q }) := by intros; assumption
  /-- a transmission ended (R174) -/
  sent {s : State} : P s → P (s.withHlk { s.hlk with tx := none }) := by intros; assumption
  /-- a reply begins transmission (R174) -/
  sendReply (reply : HostFrame) {s : State} : P s → P (s.withHlk { s.hlk with slot := none, tx := some reply }) := by
    intros; assumption
  /-- the oldest notice begins transmission (R174) -/
  sendNotice (n : Notice) (rest : List Notice) {s : State} (hqueue : s.hlk.queue = n :: rest) :
    P s → P (s.withHlk { s.hlk with queue := rest, tx := some n.frame }) := by
    intros; assumption
  /-- a byte taken by the field-in assembler (R21) -/
  fieldByte (b : Byte) (framingError : Bool) {s : State} :
    P s → P (s.withFlc { s.flc with asm := (s.flc.asm.take b framingError).1 }) := by
    intros; assumption
  /-- the bytes of field-in discarded (R21) -/
  fieldTimeout {s : State} : P s → P (s.withFlc { s.flc with asm := .hunting }) := by intros; assumption
  /-- a byte taken by the receive assembler (R169) -/
  hostByte (b : Byte) (framingError : Bool) {s : State} :
    P s → P (s.withHlk { s.hlk with rx := (s.hlk.rx.take b framingError).1 }) := by
    intros; assumption
  /-- the bytes of the host line discarded (R169) -/
  hostTimeout {s : State} : P s → P (s.withHlk { s.hlk with rx := .hunting }) := by intros; assumption
  /-- the timers counted down (R114) -/
  count {s : State} : P s → P (countDown s) := by intros; assumption
  /-- the filters sampled (R42) -/
  sampled (pins : InputPins) {s : State} : P s → P (sampleFilters pins s) := by intros; assumption
  /-- the inputs settled (R54, R55) -/
  settled (pins : InputPins) {s : State} : P s → P (settleInputs pins s) := by intros; assumption

/-! ## Requests -/

theorem Closed.after_ackKey (h : Closed P) (key : Key) {s : State} (hs : P s) : P (ackKey key s).1 := by
  unfold ackKey
  split
  · exact hs
  · split
    · exact h.after_tripNotice key (h.mark key _ hs)
    · exact h.after_removeRecord _ hs
    · exact hs

theorem Closed.after_ackKeys (h : Closed P) (keys : List Key) {s : State} (hs : P s) : P (ackKeys keys s).1 := by
  suffices ∀ t : State × Nat, P t.1 → P (keys.foldl (fun t key => let u := ackKey key t.1; (u.1, t.2 + u.2)) t).1 from
    this (s, 0) hs
  induction keys with
  | nil => exact fun _ ht => ht
  | cons key keys ih => exact fun t ht => ih _ (h.after_ackKey key ht)

theorem Closed.after_restoreStand (h : Closed P) (k : Stand) {s : State} (hs : P s) : P (restoreStand k s) := by
  have hreleased := h.seq k (fun q => { q with fastOpen := false, nonOverlap := none }) hs
  refine h.after_evalScopes (h.after_standNotice k ?_)
  split
  · exact h.seq k _ (h.after_setStandState k _ hreleased)
  · exact h.after_setStandState k _ hreleased

theorem Closed.after_restoreOne (h : Closed P) (k : Stand) {s : State} (hs : P s) : P (restoreOne k s) := by
  unfold restoreOne
  split
  · exact h.after_restoreStand k hs
  · exact hs

theorem Closed.after_restoreAll (h : Closed P) {s : State} (hs : P s) : P (restoreAll s).1 := by
  suffices ∀ (l : List Stand) (t : State × List (Stand × ReplyCode)), P t.1 →
      P (l.foldl (fun t k => (restoreOne k t.1, t.2 ++ [(k, restoreOutcome k t.1)])) t).1 from this allStands (s, []) hs
  intro l
  induction l with
  | nil => exact fun _ ht => ht
  | cons k l ih => exact fun t ht => ih _ (h.after_restoreOne k ht)

theorem Closed.after_enterHandover (h : Closed P) (k : Stand) (ho : Handover) {s : State} (hs : P s) :
    P (enterHandover k ho s) :=
  h.after_evalScopes (h.after_standNotice k (h.seq k _
    (h.after_setStandState k _ (h.after_emptySlot k (h.seq k _ hs)))))

theorem Closed.after_takeHandover (h : Closed P) (k : Stand) (dir : Direction) (seconds : Nat) {s : State} (hs : P s) :
    P (takeHandover k dir seconds s) := by
  unfold takeHandover
  split
  · exact h.after_enterHandover k _ hs
  · split
    · exact h.after_completeToCoord k hs
    · exact h.after_enterHandover k _ hs

theorem Closed.after_discardBite (h : Closed P) (k : Stand) {s : State} (hs : P s) : P (discardBite k s) := by
  unfold discardBite
  split
  · exact h.after_retire _ (h.bite k none hs)
  · exact hs

theorem RequestClosed.after_clearMill (h : RequestClosed P) {s : State} (hs : P s) : P (clearMill s) :=
  h.after_endTracker s (h.after_setMill _ (h.after_tailMark _ (h.measurers
    (foldl_inv _ (fun j _ hs => h.after_discardSpan j hs) _ (Closed.after_eachStand _ h.after_discardBite hs)))))

theorem Closed.after_resetHandover (h : Closed P) (k : Stand) {s : State} (hs : P s) : P (resetHandover k s) := by
  unfold resetHandover
  split
  · exact h.notice _ (h.after_leaveHandover k _ hs)
  · exact hs

theorem Closed.after_placeAtReset (h : Closed P) (k : Stand) {s : State} (hs : P s) : P (placeAtReset k s) := by
  unfold placeAtReset
  split
  · exact hs
  · exact hs
  · exact hs
  · unfold placeIfChanged
    split
    · exact hs
    · exact h.after_enterState k _ hs

theorem Closed.after_resetStands (h : Closed P) {s : State} (hs : P s) : P (resetStands s) :=
  h.after_evalScopes (Closed.after_eachStand _ h.after_standNotice (Closed.after_eachStand _ h.after_evalDemand
    (Closed.after_eachStand _ h.after_placeAtReset (Closed.after_eachStand _ h.after_resetHandover hs))))

theorem RequestClosed.after_softReset (h : RequestClosed P) {s : State} (hs : P s) : P (softReset s) := by
  have hslots := h.field (Vector.replicate 8 none) s.flc.tx s.flc.seqs (h.emptyQueue hs)
  have hcounters := h.counters (Vector.replicate 8 0) (Vector.replicate 8 0) (h.restartGaps (h.measurers hslots))
  exact h.after_pulseKey _ (h.after_setMill _ (h.restartTracker (h.after_resetStands hcounters)))

/-- What every change keeps, the taking of every request keeps. -/
theorem RequestClosed.after_request (h : RequestClosed P) {s t : State} (e : RequestEffect s t) (hs : P s) : P t := by
  cases e with
  | nothing => exact hs
  | spend => exact h.spend hs
  | configure body hmill hfault => exact h.configure body hfault hs
  | setAccept body => exact h.accept _ hs
  | setActions body hfault => exact h.actions body hfault hs
  | loadStand k body hfield => exact h.loadStand k body hfield hs
  | loadMill body hfield => exact h.loadMill body hfield hs
  | commit hstate hvalid => exact h.commit hstate hvalid hs
  | swap hmill hstate => exact h.after_swapBank hstate hs
  | commitSwap hmill hstate hvalid => exact h.after_swapBank rfl (h.commit hstate hvalid hs)
  | clearPending => exact h.clearPending hs
  | arm harm => exact h.after_setMill _ hs
  | disarm hmill => exact h.after_setMill _ hs
  | clearMill hclear => exact h.after_clearMill hs
  | setTrim k r x hrecord => exact h.trim k r x hrecord hs
  | stop => exact h.after_pulseKey _ hs
  | ackTrip keys => exact h.after_ackKeys keys hs
  | restoreAll => exact h.after_restoreAll hs
  | restore k => exact h.after_restoreOne k hs
  | handover k dir seconds hstate hcan => exact h.after_takeHandover k dir seconds hs
  | setReports body hlen hfault => exact h.spend (h.reports body hlen hfault hs)
  | setAux body => exact h.aux _ hs
  | reset hthreaded => exact h.after_softReset hs

/-! ## The transmit line -/

theorem Kept.after_takeRequest (h : Kept P) (q : HostFrame) {s : State} (hs : P s) : P (takeRequest q s) :=
  h.compose _ (h.after_request (answer_effect q.kind.toNat q.body s) hs)

theorem Kept.after_endEvent (h : Kept P) {s : State} (hs : P s) : P (endEvent s) := by
  unfold endEvent pumpWith
  split
  · exact hs
  · rename_i reply _ _
    have hsent := h.sendReply reply hs
    unfold startReply
    dsimp only
    split
    · exact h.after_takeRequest _ (h.holdRequest none hsent)
    · exact hsent
  · rename_i hqueue
    exact h.sendNotice _ _ hqueue hs
  · exact hs

theorem Kept.after_arriveRequest (h : Kept P) (q : HostFrame) {s : State} (hs : P s) : P (arriveRequest q s) := by
  unfold arriveRequest
  split
  · exact hs
  · split
    · exact hs
    · exact h.holdRequest _ hs
    · exact h.after_takeRequest q hs

/-! ## Moves -/

theorem Kept.after_settleCore (h : Kept P) (pins : InputPins) {s : State} (hs : P s) : P (settleCore pins s) := by
  refine foldl_inv _ (fun n s hs => ?_) _
    (Closed.after_eachStand _ h.after_standNotice (h.after_evalScopes (h.settled pins (h.count hs))))
  unfold settleStop
  split
  · exact h.after_raiseKey false _ hs
  · exact hs

theorem Kept.after_quiet (h : Kept P) {s t : State} (m : Quiet s t) (hs : P s) : P t := by
  cases m with
  | fieldByte b framingError => exact h.fieldByte b framingError hs
  | fieldTimeout => exact h.fieldTimeout hs
  | hostByte b framingError => exact h.hostByte b framingError hs
  | hostTimeout => exact h.hostTimeout hs
  | nonOverlap k hdue => exact h.seq k _ hs
  | equalize k hdue => exact h.seq k _ hs
  | tick pins hsettled => exact h.sampled pins (h.count hs)

theorem Kept.after_move (h : Kept P) {s t : State} (m : Move s t) (hs : P s) : P t := by
  cases m with
  | quiet m => exact h.after_quiet m hs
  | event e => exact h.after_endEvent (h.after_effect e hs)
  | settle pins hsettled => exact h.after_endEvent (h.after_settleCore pins hs)
  | arrive q => exact h.after_endEvent (h.after_arriveRequest q hs)
  | sent hbusy => exact h.after_endEvent (h.sent hs)

/-- No move touches the queue of commands and the sources of a reset, and a settled part stays settled. -/
theorem keeps_pending (p : List Instr) : Kept fun s => s.pending = p := {}

theorem keeps_resets (r : ResetHold) : Kept fun s => s.resets = r := {}

theorem keeps_settled : Kept fun s => s.plu.settled = true where
  settled := fun _ _ _ => rfl

end Sys2Proof.Machine
end

section
/-! PROOFS. Every command goes on: a command of a running part is a run of moves, and the reset sources hold the part or
release it. -/

namespace Sys2Proof.Machine

/-! ## Commands as moves -/

/-- The changes of a list, each none or one move, are moves. -/
theorem moves_foldl {β : Type} (f : State → β → State) (hf : ∀ b s, f s b = s ∨ Move s (f s b)) (l : List β) (s : State) :
    Moves s (l.foldl f s) := by
  induction l generalizing s with
  | nil => exact .refl
  | cons b l ih =>
    obtain e | hmove := hf b s
    · rw [List.foldl_cons, e]
      exact ih s
    · exact .head hmove (ih _)

theorem filterAccept_move (i : FilterId) (s : State) : filterAccept i s = s ∨ Move s (filterAccept i s) := by
  unfold filterAccept
  split
  · rename_i hdue
    exact .inr (.event (.accept i hdue))
  · exact .inl rfl

theorem channelExpiry_move (c : Chan) (s : State) : channelExpiry c s = s ∨ Move s (channelExpiry c s) := by
  unfold channelExpiry
  split
  · rename_i hdue
    exact .inr (.event (.channel c hdue))
  · exact .inl rfl

theorem updateExpiry_move (k : Stand) (s : State) : updateExpiry k s = s ∨ Move s (updateExpiry k s) := by
  unfold updateExpiry
  split
  · rename_i hdue
    exact .inr (.event (.update k hdue))
  · exact .inl rfl

theorem nonOverlapExpiry_move (k : Stand) (s : State) : nonOverlapExpiry k s = s ∨ Move s (nonOverlapExpiry k s) := by
  unfold nonOverlapExpiry
  split
  · rename_i hdue
    exact .inr (.quiet (.nonOverlap k hdue))
  · exact .inl rfl

theorem equalizeExpiry_move (k : Stand) (s : State) : equalizeExpiry k s = s ∨ Move s (equalizeExpiry k s) := by
  unfold equalizeExpiry
  split
  · rename_i hdue
    exact .inr (.quiet (.equalize k hdue))
  · exact .inl rfl

theorem handoverExpiry_move (k : Stand) (s : State) : handoverExpiry k s = s ∨ Move s (handoverExpiry k s) := by
  unfold handoverExpiry
  split
  · rename_i h hpending
    split
    · rename_i hdue
      exact .inr (.event (.handover k h hpending hdue))
    · exact .inl rfl
  · exact .inl rfl

theorem streamExpiry_move (i : StreamId) (s : State) : streamExpiry i s = s ∨ Move s (streamExpiry i s) := by
  unfold streamExpiry
  split
  · rename_i hdue
    exact .inr (.event (.stream i hdue))
  · exact .inl rfl

/-- The due events are moves, one after another. -/
theorem takeDue_moves (s : State) : Moves s (takeDue s) :=
  (moves_foldl _ filterAccept_move _ s).trans <| (moves_foldl _ channelExpiry_move _ _).trans <|
    (moves_foldl _ updateExpiry_move _ _).trans <| (moves_foldl _ nonOverlapExpiry_move _ _).trans <|
      (moves_foldl _ equalizeExpiry_move _ _).trans <| (moves_foldl _ handoverExpiry_move _ _).trans <|
        moves_foldl _ streamExpiry_move _ _

/-- What every change keeps, moves keep. -/
theorem Kept.after_moves {P : State → Prop} (h : Kept P) {s t : State} (m : Moves s t) (hs : P s) : P t := by
  induction m with
  | refl => exact hs
  | tail _ m ih => exact h.after_move m ih

/-- A tick after the first is the due events and the tick behind them. -/
theorem runTick_moves (pins : InputPins) (s : State) (hsettled : s.plu.settled = true) : Moves s (runTick pins s) := by
  have hdue := takeDue_moves s
  exact hdue.tail (.quiet (.tick pins (keeps_settled.after_moves hdue hsettled)))

theorem takeFieldByte_move (b : Byte) (framingError : Bool) (s : State) : Moves s (takeFieldByte b framingError s) := by
  unfold takeFieldByte
  dsimp only
  have hbyte : Move s (s.withFlc { s.flc with asm := (s.flc.asm.take b framingError).1 }) := .quiet (.fieldByte b framingError)
  split
  · exact .head hbyte (.single (.event (.frame _)))
  · exact .single hbyte

theorem takeHostByte_move (b : Byte) (framingError : Bool) (s : State) : Moves s (takeHostByte b framingError s) := by
  unfold takeHostByte
  dsimp only
  have hbyte : Move s (s.withHlk { s.hlk with rx := (s.hlk.rx.take b framingError).1 }) := .quiet (.hostByte b framingError)
  split
  · exact .head hbyte (.single (.arrive _))
  · exact .single hbyte

/-- The command is no edge of a reset source. -/
def Ordinary (c : Instr) : Prop := (∀ edge, c ≠ .powerOn edge) ∧ ∀ ns edge, c ≠ .resetPin ns edge

theorem moves_of_none_or_one {s t : State} (h : t = s ∨ Move s t) : Moves s t := by
  obtain rfl | h := h
  · exact .refl
  · exact .single h

/-- A command that is no edge of a reset source is an event made of moves (R193). -/
theorem exec_event (c : Instr) (hc : Ordinary c) : ∃ f, (∀ s, exec c s = event f s) ∧ ∀ s, Moves s (f s) := by
  have hrequest (kind tag : Byte) (body : List Byte) (s : State) : Moves s (request kind tag body s) := .single (.arrive _)
  obtain ⟨hpower, hpin⟩ := hc
  cases c with
  | powerOn edge => exact absurd rfl (hpower edge)
  | resetPin ns edge => exact absurd rfl (hpin ns edge)
  | firstTick pins =>
    refine ⟨_, fun _ => rfl, fun s => ?_⟩
    split
    · exact .refl
    · rename_i hsettled
      exact .single (.settle pins (by simpa using hsettled))
  | tick pins =>
    refine ⟨_, fun _ => rfl, fun s => ?_⟩
    split
    · rename_i hsettled
      exact runTick_moves pins s hsettled
    · rename_i hsettled
      exact .single (.settle pins (by simpa using hsettled))
  | filterAccept i => exact ⟨_, fun _ => rfl, fun s => moves_of_none_or_one (filterAccept_move i s)⟩
  | encoderPulse k edge =>
    refine ⟨_, fun _ => rfl, fun s => ?_⟩
    split
    · exact .single (.event (.pulse k))
    · exact .refl
  | fieldByteReceived line stop =>
    refine ⟨_, fun _ => rfl, fun s => ?_⟩
    cases lineByte line stop with
    | none => exact .refl
    | some r => exact takeFieldByte_move r.1 r.2 s
  | fieldInterByteTimeout => exact ⟨_, fun _ => rfl, fun s => .single (.quiet .fieldTimeout)⟩
  | fieldFrame frame => exact ⟨_, fun _ => rfl, fun s => .single (.event (.frame frame))⟩
  | freshnessExpiry c => exact ⟨_, fun _ => rfl, fun s => moves_of_none_or_one (channelExpiry_move c s)⟩
  | updateTimerExpiry k => exact ⟨_, fun _ => rfl, fun s => moves_of_none_or_one (updateExpiry_move k s)⟩
  | fieldOutTxEnd =>
    refine ⟨_, fun _ => rfl, fun s => ?_⟩
    split
    · rename_i hbusy
      exact .single (.event (.setpoint (by simp [hbusy])))
    · exact .refl
  | nonOverlapExpiry k => exact ⟨_, fun _ => rfl, fun s => moves_of_none_or_one (nonOverlapExpiry_move k s)⟩
  | equalizeExpiry k => exact ⟨_, fun _ => rfl, fun s => moves_of_none_or_one (equalizeExpiry_move k s)⟩
  | handoverTimerExpiry k => exact ⟨_, fun _ => rfl, fun s => moves_of_none_or_one (handoverExpiry_move k s)⟩
  | streamTimerExpiry i => exact ⟨_, fun _ => rfl, fun s => moves_of_none_or_one (streamExpiry_move i s)⟩
  | hostByteReceived line stop =>
    refine ⟨_, fun _ => rfl, fun s => ?_⟩
    cases lineByte line stop with
    | none => exact .refl
    | some r => exact takeHostByte_move r.1 r.2 s
  | hostInterByteTimeout => exact ⟨_, fun _ => rfl, fun s => .single (.quiet .hostTimeout)⟩
  | hostTxEnd =>
    refine ⟨_, fun _ => rfl, fun s => ?_⟩
    split
    · rename_i hbusy
      exact .single (.sent (by simp [hbusy]))
    · exact .refl
  | _ => exact ⟨_, fun _ => rfl, hrequest _ _ _⟩

end Sys2Proof.Machine
end

section
/-! PROOFS. A change made at each of the eight stands: what it makes of each stand. -/

namespace Sys2Proof.Machine

theorem mem_allStands (k : Stand) : k ∈ allStands := by
  revert k
  decide

theorem allStands_nodup : allStands.Nodup := by decide

/-- A change at each stand that changes nothing leaves the state as it is. -/
theorem eachStand_fixed (f : Stand → State → State) (s : State) (h : ∀ k, f k s = s) : eachStand f s = s := by
  unfold eachStand
  induction allStands with
  | nil => rfl
  | cons k l ih => rw [List.foldl_cons, h k, ih]

/-- The changes at the stands of a list, each of which makes `g` of its own stand's view by a context that all keep. -/
theorem foldl_view {α β : Type} (view : Stand → State → α) (ctx : State → β) (f : Stand → State → State)
    (g : β → Stand → α → α) (hctx : ∀ k s, ctx (f k s) = ctx s)
    (hview : ∀ k j s, view j (f k s) = if j = k then g (ctx s) k (view k s) else view j s) (l : List Stand)
    (hl : l.Nodup) (j : Stand) (s : State) :
    view j (l.foldl (fun s k => f k s) s) = if j ∈ l then g (ctx s) j (view j s) else view j s := by
  induction l generalizing s with
  | nil => simp
  | cons k l ih =>
    obtain ⟨hk, hl⟩ := List.nodup_cons.mp hl
    rw [List.foldl_cons, ih hl, hctx, hview]
    by_cases hjk : j = k
    · subst hjk
      simp [hk]
    · simp [hjk]

/-- What the changes at all stands make of one stand, where each changes its own stand's view by a context that all keep. -/
theorem eachStand_view {α β : Type} (view : Stand → State → α) (ctx : State → β) (f : Stand → State → State)
    (g : β → Stand → α → α) (hctx : ∀ k s, ctx (f k s) = ctx s)
    (hview : ∀ k j s, view j (f k s) = if j = k then g (ctx s) k (view k s) else view j s) (j : Stand) (s : State) :
    view j (eachStand f s) = g (ctx s) j (view j s) := by
  rw [eachStand, foldl_view view ctx f g hctx hview allStands allStands_nodup, if_pos (mem_allStands j)]

/-- The evaluation of every FAST_OPEN demand (R125). -/
theorem eachStand_evalDemand_seq (s : State) (j : Stand) :
    (eachStand evalDemand s).seq j = (s.seq j).evalDemand s.millStopExists ((s.record j).elim 0 (·.tNo)) :=
  eachStand_view (fun j s => s.seq j) (fun s => (s.tmx, s.sch)) evalDemand
    (fun c k q => q.evalDemand (c.1.table.any fun r => r.action == .millStop) ((vget c.2.active.bank.stands k).elim 0 (·.tNo)))
    (fun k s => by simp) (fun k j s => modSeq_seq s k j _) j s

/-- Of all the state the evaluation of the demands changes the sequencer records alone (R125). -/
theorem eachStand_evalDemand_eq (s : State) :
    eachStand evalDemand s =
      { s with ssq := vtab fun j => (s.seq j).evalDemand s.millStopExists ((s.record j).elim 0 (·.tNo)) } := by
  obtain ⟨q, hq⟩ : ∃ q, eachStand evalDemand s = { s with ssq := q } :=
    eachStand_inv (fun t => ∃ q, t = { s with ssq := q }) evalDemand
      (by rintro k t ⟨q, rfl⟩; exact ⟨_, rfl⟩) s ⟨s.ssq, rfl⟩
  rw [hq]
  congr 1
  refine vec_ext fun j => ?_
  have hj := eachStand_evalDemand_seq s j
  rw [hq] at hj
  rw [vget_vtab]
  exact hj

/-- The evaluation of every FREEZE cover (R115). -/
theorem eachStand_evalFrozen_seq (s : State) (j : Stand) :
    (eachStand evalFrozen s).seq j = { s.seq j with frozen := s.freezeCover j } := by
  refine eachStand_view (fun j s => s.seq j) (fun s => s.tmx) evalFrozen
    (fun c k q => { q with frozen := c.table.any fun r => r.action == .freeze && r.covers k }) (fun k s => by simp) ?_ j s
  intro k j s
  unfold evalFrozen
  split
  · rename_i hsame
    split
    · rename_i hjk
      subst hjk
      show s.seq j = { s.seq j with frozen := s.freezeCover j }
      rw [← hsame]
    · rfl
  · simp only [standNotice_keeps, State.seq]
    exact vget_vset _ _ _ _

end Sys2Proof.Machine
end

section
/-! PROOFS. The release of a reset leaves the part as after reset (R163, R185, R193). -/

namespace Sys2Proof.Machine

@[simp] theorem vget_replicate {α : Type} {n : Nat} (x : α) (i : Fin n) : vget (Vector.replicate n x) i = x := by
  simp [vget]

/-- The part as the release finds it: every block at its power-on value. -/
def freshState (straps : BitVec 2) (s : State) : State :=
  { State.cleared straps with freeIx := s.freeIx, pending := s.pending }

/-- The STAND_STATE notices of all stands, where their kind is enabled: the queue alone changes. -/
theorem eachStand_standNotice_eq (s : State) (hmask : ∀ k, kindEnabled s.hlk.mask (.standState k) = true) :
    eachStand standNotice s =
      s.withHlk { s.hlk with
        queue := allStands.foldl
          (fun q k => enterNotice q (.standState k (s.seq k).state (s.seq k).frozen (s.stripPresent k))) s.hlk.queue } := by
  have hone (q : List Notice) (k : Stand) :
      standNotice k (s.withHlk { s.hlk with queue := q }) =
        s.withHlk { s.hlk with
          queue := enterNotice q (.standState k (s.seq k).state (s.seq k).frozen (s.stripPresent k)) } :=
    if_pos (hmask k)
  suffices ∀ (l : List Stand) (q : List Notice),
      l.foldl (fun s k => standNotice k s) (s.withHlk { s.hlk with queue := q }) =
        s.withHlk { s.hlk with
          queue := l.foldl
            (fun q k => enterNotice q (.standState k (s.seq k).state (s.seq k).frozen (s.stripPresent k))) q } from
    this allStands s.hlk.queue
  intro l
  induction l with
  | nil => exact fun q => rfl
  | cons k l ih =>
    intro q
    rw [List.foldl_cons, hone, ih, List.foldl_cons]

/-- The reset's first notices (R185). -/
def releaseNotices : List Notice :=
  { body := .millState .idle 0 0, occ := 1 } :: allStands.map fun k => { body := .standState k .out false false, occ := 1 }

/-- Outside the tests of the mask every kind is enabled after a reset (R181). -/
theorem kindEnabled_default (src : NoticeSource) : kindEnabled (0x3F : BitVec 6) src = true := by
  unfold kindEnabled
  generalize src.kindIx = i
  revert i
  decide

/-- The part with the reset's first notices in its report queue. -/
def noticedState (straps : BitVec 2) (s : State) : State :=
  (freshState straps s).withHlk { (freshState straps s).hlk with queue := releaseNotices }

theorem release_notices (straps : BitVec 2) (s : State) :
    eachStand standNotice (millNotice (freshState straps s)) = noticedState straps s := by
  have hmill : millNotice (freshState straps s) =
      (freshState straps s).withHlk { (freshState straps s).hlk with
        queue := enterNotice [] (.millState .idle 0 0) } := if_pos (kindEnabled_default .millState)
  have hviews (q : List Notice) (k : Stand) :
      ((freshState straps s).withHlk { (freshState straps s).hlk with queue := q }).stripPresent k = false ∧
        ((freshState straps s).withHlk { (freshState straps s).hlk with queue := q }).seq k = SeqRecord.cleared := by
    simp [State.stripPresent, State.presence, State.seq, State.withHlk, freshState, State.cleared, PresenceUnit.cleared]
  have hqueue : allStands.foldl (fun q k => enterNotice q (.standState k .out false false))
      (enterNotice [] (.millState .idle 0 0)) = releaseNotices := by decide +kernel
  rw [hmill, eachStand_standNotice_eq _ fun k => kindEnabled_default _, noticedState, ← hqueue]
  simp only [hviews]
  rfl

/-- The RESET_STOP record as the release creates it (R163). -/
def raisedStop : TripRecord := { resetStopRecord with state := .raised }

/-- The part with the RESET_STOP record in its table, in state `st`, every FAST_OPEN asserted, and the report queue `q`. -/
def stoppedState (straps : BitVec 2) (s : State) (r : TripRecord) (q : List Notice) : State :=
  { freshState straps s with
    hlk := { HostLink.cleared straps with queue := q }
    ssq := Vector.replicate 8 { SeqRecord.cleared with fastOpen := true }
    tmx := { TripMatrix.cleared with table := [r] } }

/-- RESET_STOP's creation at the release: nothing but the FAST_OPEN demands follows from it (R125, R157). -/
theorem release_handCreation (straps : BitVec 2) (s : State) :
    handCreation raisedStop ((noticedState straps s).withTmx { (noticedState straps s).tmx with table := [raisedStop] }) =
      stoppedState straps s raisedStop releaseNotices := by
  generalize hu : (noticedState straps s).withTmx { (noticedState straps s).tmx with table := [raisedStop] } = u
  have hseq (k : Stand) : u.seq k = SeqRecord.cleared := by
    rw [← hu]
    exact vget_replicate _ _
  have hrecord (k : Stand) : u.record k = none := by
    rw [← hu]
    exact vget_replicate _ _
  have hstop : u.millStopExists = true := by rw [← hu]; rfl
  have hline : evalStopLine u = u := by rw [← hu]; rfl
  have hcover (k : Stand) : u.freezeCover k = false := by rw [← hu]; rfl
  have hopen : eachStand (fun k s => if raisedStop.covers k then openCreationAt k s else s) u = u := by
    refine eachStand_fixed _ u fun k => ?_
    rw [show raisedStop.covers k = true from rfl, if_pos rfl, openCreationAt, hseq k]
    rfl
  have hfrozen : eachStand evalFrozen u = u := by
    refine eachStand_fixed _ u fun k => ?_
    rw [evalFrozen, hseq k, hcover k]
    exact if_pos rfl
  have hdemand : (vtab fun k => (u.seq k).evalDemand u.millStopExists ((u.record k).elim 0 (·.tNo))) =
      Vector.replicate 8 { SeqRecord.cleared with fastOpen := true } := by
    refine vec_ext fun k => ?_
    rw [vget_vtab, vget_replicate, hseq k, hrecord k, hstop]
    rfl
  have hclass : raisedStop.action.openClass = true := rfl
  simp only [handCreation, hline, hclass, if_true, hopen, hfrozen]
  rw [eachStand_evalDemand_eq, hdemand, ← hu]
  rfl

/-- The report queue behind the release, the oldest notice not yet begun (R185). -/
def releaseQueue (st : RecState) (occ : Nat) : List Notice :=
  releaseNotices ++ [{ body := .trip { resetStopRecord with state := st } (some st), occ := occ }]

theorem tripNotice_stoppedState (straps : BitVec 2) (s : State) (r : TripRecord) (hr : r.key = .resetStop)
    (q : List Notice) :
    tripNotice .resetStop (stoppedState straps s r q) =
      stoppedState straps s r (enterNotice q (.trip r (some r.state))) := by
  have hrec : (stoppedState straps s r q).recordOf .resetStop = some r := by
    simp [State.recordOf, stoppedState, hr]
  rw [tripNotice, hrec]
  exact if_pos (kindEnabled_default _)

/-- RESET_STOP is always in scope, and nothing else is present behind the release (R139, R141). -/
theorem evalScopes_stoppedState (straps : BitVec 2) (s : State) (r : TripRecord) (hr : r.key = .resetStop)
    (q : List Notice) : evalScopes (stoppedState straps s r q) = stoppedState straps s r q := by
  refine evalScopes_of_scopesOk _ ⟨fun key hkey => ?_, fun k _ => vget_replicate _ _, fun k _ => vget_replicate _ _,
    fun k => ⟨?_, ?_⟩⟩
  · have hsame : key = .resetStop := by
      by_contra hne
      have hrec : (stoppedState straps s r q).recordOf key = none := by
        simp [State.recordOf, stoppedState, hr, Ne.symm hne]
      simp [State.present, hrec] at hkey
    rw [hsame]
    rfl
  · exact (vget_replicate 0 k).trans_le (by omega)
  · exact (vget_replicate 0 k).trans_le (by omega)

theorem release_raise (straps : BitVec 2) (s : State) :
    raiseKey false .resetStop (noticedState straps s) = stoppedState straps s raisedStop (releaseQueue .raised 1) := by
  have hnone : (noticedState straps s).recordOf .resetStop = none := rfl
  have hleft (u v : State) (hv : v.activeSet = []) : leftRolling u v = false := by simp [leftRolling, hv]
  have hcreated := release_handCreation straps s
  have hqueue : enterNotice releaseNotices (.trip raisedStop (some .raised)) = releaseQueue .raised 1 := by
    decide +kernel
  have hnew : newRecord .resetStop (noticedState straps s) = raisedStop := rfl
  have htable : (noticedState straps s).tmx.table ++ [raisedStop] = [raisedStop] := rfl
  simp only [raiseKey, hnone, createRecord, hnew, htable, hcreated]
  rw [hleft _ _ rfl]
  simp only [Bool.not_false, Bool.and_false, Bool.false_eq_true, if_false]
  rw [tripNotice_stoppedState _ _ _ rfl, evalScopes_stoppedState _ _ _ rfl]
  exact congrArg _ hqueue

theorem release_gone (straps : BitVec 2) (s : State) :
    goneKey .resetStop (stoppedState straps s raisedStop (releaseQueue .raised 1)) =
      stoppedState straps s resetStopRecord (releaseQueue .held 2) := by
  have hrec : (stoppedState straps s raisedStop (releaseQueue .raised 1)).recordOf .resetStop = some raisedStop := rfl
  have hqueue : enterNotice (releaseQueue .raised 1) (.trip resetStopRecord (some .held)) = releaseQueue .held 2 := by
    decide +kernel
  rw [goneKey, hrec, ← hqueue]
  exact tripNotice_stoppedState straps s resetStopRecord rfl (releaseQueue .raised 1)

/-- The release of a reset leaves the part as after reset, the straps sampled (R163, R185, R193). -/
theorem release_eq (straps : BitVec 2) (s : State) :
    release straps s =
      { State.reset with
        hlk := { State.reset.hlk with straps := straps }, freeIx := s.freeIx, pending := s.pending } := by
  have hraised := release_raise straps s
  have hgone := release_gone straps s
  have hpulse : pulseKey .resetStop (eachStand standNotice (millNotice (freshState straps s))) =
      stoppedState straps s resetStopRecord (releaseQueue .held 2) := by
    rw [release_notices, pulseKey, hraised, hgone]
  have hend : endEvent (stoppedState straps s resetStopRecord (releaseQueue .held 2)) =
      { State.reset with
        hlk := { State.reset.hlk with straps := straps }, freeIx := s.freeIx, pending := s.pending } := by
    have hframe : Notice.frame { body := .millState .idle 0 0, occ := 1 } =
        { kind := 0x42, tag := 0, body := [0, 0, 0, 0, 0, 1] } := by decide +kernel
    unfold State.reset
    rw [← hframe]
    rfl
  exact (congrArg endEvent hpulse).trans hend

end Sys2Proof.Machine
end

section
/-! PROOFS. What every step keeps: the rule, and O1, O2, O3. -/

namespace Sys2Proof.Machine

/-! ## The rule -/

/-- No move touches the sources of a reset. -/
theorem move_inReset {s t : State} (m : Move s t) : t.inReset = s.inReset := by
  have h : t.resets = s.resets := (keeps_resets s.resets).after_move m rfl
  simp only [State.inReset, h]

/-- What each move of a running part keeps, its moves keep. -/
theorem moves_keep {P : State → Prop} (hmove : ∀ {s t}, s.inReset = false → Move s t → P s → P t) {s t : State}
    (hrun : s.inReset = false) (m : Moves s t) (hs : P s) : P t := by
  suffices t.inReset = false ∧ P t from this.2
  induction m with
  | refl => exact ⟨hrun, hs⟩
  | tail _ m ih =>
    obtain ⟨hrun', hs'⟩ := ih
    exact ⟨(move_inReset m).trans hrun', hmove hrun' m hs'⟩

/-- What a command leaves: the state it found, a held reset, a released one, or what moves of a running part make (R193). -/
theorem exec_cases {c : Instr} {s t : State} (h : exec c s = .next t) :
    t = s ∨ (∃ r : ResetHold, (r.supply = true ∨ r.pin = true) ∧ t = holdReset r s) ∨ (∃ straps, t = release straps s) ∨
      s.inReset = false ∧ Moves s t := by
  by_cases hc : Ordinary c
  · obtain ⟨f, hexec, hmoves⟩ := exec_event c hc
    rw [hexec] at h
    obtain ⟨-, rfl⟩ | ⟨hrun, rfl⟩ := event_next f s t h
    · exact .inl rfl
    · exact .inr (.inr (.inr ⟨hrun, hmoves s⟩))
  · cases c with
    | powerOn edge =>
      obtain ⟨r, hr, e⟩ | ⟨straps, -, -, e⟩ := execPowerOn_cases edge s
      · cases e.symm.trans h
        exact .inr (.inl ⟨r, hr, rfl⟩)
      · cases e.symm.trans h
        exact .inr (.inr (.inl ⟨straps, rfl⟩))
    | resetPin ns edge =>
      obtain ⟨-, e⟩ | ⟨-, ⟨r, hr, e⟩ | ⟨straps, -, -, e⟩⟩ := execResetPin_cases ns edge s
      · cases e.symm.trans h
        exact .inl rfl
      · cases e.symm.trans h
        exact .inr (.inl ⟨r, hr, rfl⟩)
      · cases e.symm.trans h
        exact .inr (.inr (.inl ⟨straps, rfl⟩))
    | _ => exact absurd ⟨fun _ => by simp, fun _ _ => by simp⟩ hc

/-- A property that each move of a running part keeps, that a held and a released reset have, and that does not read the
queue of commands, is kept by every step. -/
theorem step_keeps {P : State → Prop} (hpending : ∀ s p, P s → P { s with pending := p })
    (hheld : ∀ (r : ResetHold) s, r.supply = true ∨ r.pin = true → P (holdReset r s)) (hrelease : ∀ straps s, P (release straps s))
    (hmove : ∀ {s t}, s.inReset = false → Move s t → P s → P t) {s t : State} (hs : P s) (hstep : step s = .next t) :
    P t := by
  unfold step at hstep
  split at hstep
  · cases hstep
    exact hs
  · rename_i c rest _
    have hs := hpending s rest hs
    obtain rfl | ⟨r, hr, rfl⟩ | ⟨straps, rfl⟩ | ⟨hrun, hmoves⟩ := exec_cases hstep
    · exact hs
    · exact hheld r _ hr
    · exact hrelease straps _
    · exact moves_keep hmove hrun hmoves hs

/-! ## The machine -/

/-- Settles O1: the step's queue is the front command before the rest, and the idle step is `step`'s first case. -/
theorem stepRunsFrontCommand : Obligations.StepRunsFrontCommand := by
  intro c s
  refine ⟨rfl, fun hempty => ?_⟩
  rw [step, hempty]

/-- Settles O2: an ordinary command is an event made of moves, none of which touches the queue; a reset's edge holds the part
or releases it. -/
theorem everyCommandGoesOn : Obligations.EveryCommandGoesOn := by
  intro c s
  obtain ⟨t, h⟩ : ∃ t, exec c s = .next t := by
    by_cases hc : Ordinary c
    · obtain ⟨f, hexec, -⟩ := exec_event c hc
      exact ⟨_, hexec s⟩
    · cases c with
      | powerOn edge => exact ⟨_, rfl⟩
      | resetPin ns edge => exact ⟨_, rfl⟩
      | _ => exact absurd ⟨fun _ => by simp, fun _ _ => by simp⟩ hc
  refine ⟨t, h, ?_⟩
  obtain rfl | ⟨r, -, rfl⟩ | ⟨straps, rfl⟩ | ⟨-, hmoves⟩ := exec_cases h
  · rfl
  · rfl
  · rw [release_eq]
  · exact (keeps_pending s.pending).after_moves hmoves rfl

/-! ## The resets -/

theorem exec_powerOn (edge : ResetEdge) (s : State) : exec (.powerOn edge) s = execPowerOn edge s := rfl

theorem exec_resetPin (ns : Nat) (edge : ResetEdge) (s : State) : exec (.resetPin ns edge) s = execResetPin ns edge s := rfl

/-- Settles O3: the hold and the release of each source, the release by `release_eq`; the pins of a held reset are those of
the cleared blocks. -/
theorem powerOnAndResetPin : Obligations.PowerOnAndResetPin := by
  intro straps ns held s t hheld ht
  have hhold (r : ResetHold) : holdReset r s = held r := (hheld r).symm
  have hrelease : release straps s = t := by rw [release_eq, ht]
  have hend (r : ResetHold) : endReset r straps s = if r.supply || r.pin then held r else t := by
    rw [endReset, hhold, hrelease]
  refine ⟨fun hshort edge => ?_, ?_, ?_, fun hlong => ⟨?_, ?_⟩, fun hreset c hpower hpin => ?_, fun r k i => ?_, fun k i => ?_,
    ?_, fun k => ⟨rfl, rfl⟩⟩
  · simp only [exec_resetPin, execResetPin, if_pos hshort]
  · rw [exec_powerOn, execPowerOn, hhold]
  · rw [exec_powerOn, execPowerOn, hend]
    cases hpin : s.resets.pin <;> simp [hpin]
  · rw [exec_resetPin, execResetPin, if_neg (by omega), hhold]
  · rw [exec_resetPin, execResetPin, if_neg (by omega), hend]
    cases hsupply : s.resets.supply <;> simp [hsupply]
  · obtain ⟨f, hexec, -⟩ := exec_event c ⟨hpower, hpin⟩
    rw [hexec, event_held f s ((inReset_eq_true s).mpr hreset)]
  · rw [hheld r]
    refine ⟨rfl, ?_, ?_, ?_, fun n => ⟨rfl, rfl⟩⟩
    · simp [State.fastOpenPin, State.seq, State.cleared, SeqRecord.cleared, driven]
    · simp [State.localReqPin, State.seq, State.cleared, SeqRecord.cleared, driven]
    · simp [State.auxPin, State.cleared, HostLink.cleared]
  · rw [ht]
    refine ⟨rfl, ?_, ?_, ?_⟩
    · simp [State.fastOpenPin, State.seq, State.reset, SeqRecord.cleared, driven]
    · simp [State.localReqPin, State.seq, State.reset, SeqRecord.cleared, driven]
    · simp [State.auxPin, State.reset, State.cleared, HostLink.cleared]
  · cases hline : s.tmx.stopLine <;> simp [State.stopLinePin, driven, hline]

end Sys2Proof.Machine
end

section
/-! PROOFS. Every step keeps the trip table, the stop line and what a held reset holds (O53), the report queue and the
transmit line (O55). -/

namespace Sys2Proof.Machine

/-! ## Trip table and stop line -/

/-- The trip table and the stop line of a part whose reset is not held (R153, R162). -/
def TableHolds (s : State) : Prop :=
  (s.tmx.stopLine = true ↔ ∃ r ∈ s.tmx.table, r.action = .millStop) ∧ (s.tmx.table.map (·.key)).Nodup ∧
    (s.tmx.table.filter (·.firstOut)).length ≤ 1 ∧ ∀ r ∈ s.tmx.table, 1 ≤ r.occ ∧ r.occ ≤ 255

theorem tableOk_iff (s : State) (hrun : s.inReset = false) : TableOk s ↔ TableHolds s := by
  simp [TableOk, TableHolds, hrun]

/-- The stop line after its evaluation is asserted exactly while a MILL_STOP record exists (R162). -/
theorem evalStopLine_iff (s : State) :
    (evalStopLine s).tmx.stopLine = true ↔ ∃ r ∈ (evalStopLine s).tmx.table, r.action = .millStop := by
  simp [State.millStopExists]

/-- Changes of records that keep key, action and first-out mark, and the range of occurrences, keep the table. -/
theorem tableHolds_modRecord (key : Key) (f : TripRecord → TripRecord) (s : State)
    (hkey : ∀ r, (f r).key = r.key) (haction : ∀ r, (f r).action = r.action) (hfirst : ∀ r, (f r).firstOut = r.firstOut)
    (hocc : ∀ r, 1 ≤ r.occ ∧ r.occ ≤ 255 → 1 ≤ (f r).occ ∧ (f r).occ ≤ 255) (h : TableHolds s) :
    TableHolds (s.modRecord key f) := by
  obtain ⟨hline, hnodup, hout, hrange⟩ := h
  have htable : (s.modRecord key f).tmx.table = s.tmx.table.map fun r => if r.key == key then f r else r := rfl
  have hsame (r : TripRecord) : (if r.key == key then f r else r).key = r.key ∧
      (if r.key == key then f r else r).action = r.action ∧ (if r.key == key then f r else r).firstOut = r.firstOut := by
    split
    · exact ⟨hkey r, haction r, hfirst r⟩
    · exact ⟨rfl, rfl, rfl⟩
  refine ⟨?_, ?_, ?_, ?_⟩
  · rw [show (s.modRecord key f).tmx.stopLine = s.tmx.stopLine from rfl, hline, htable]
    simp only [List.mem_map, exists_exists_and_eq_and]
    simp only [(hsame _).2.1]
  · rw [htable, List.map_map]
    simpa only [Function.comp_def, (hsame _).1] using hnodup
  · rw [htable, List.filter_map, List.length_map]
    simpa only [Function.comp_def, (hsame _).2.2] using hout
  · intro r hr
    rw [htable, List.mem_map] at hr
    obtain ⟨q, hq, rfl⟩ := hr
    split
    · exact hocc q (hrange q hq)
    · exact hrange q hq

theorem recordOf_none_iff (s : State) (key : Key) : s.recordOf key = none ↔ key ∉ s.tmx.table.map (·.key) := by
  simp only [State.recordOf, List.find?_eq_none, List.mem_map, not_exists, not_and, beq_iff_eq]

theorem tableHolds_addRecord (key : Key) (s : State) (hnew : s.recordOf key = none) (h : TableHolds s) :
    TableHolds (addRecord key s) := by
  obtain ⟨-, hnodup, hout, hrange⟩ := h
  have htable : (addRecord key s).tmx.table = s.tmx.table ++ [newRecord key s] := rfl
  refine ⟨evalStopLine_iff _, ?_, ?_, ?_⟩
  · rw [htable, List.map_append, List.nodup_append]
    refine ⟨hnodup, List.nodup_singleton _, fun a ha b hb => ?_⟩
    obtain rfl : b = key := by simpa [newRecord] using hb
    rintro rfl
    exact (recordOf_none_iff s a).mp hnew ha
  · rw [htable, List.filter_append]
    cases hempty : s.tmx.table with
    | nil => exact List.length_filter_le _ [newRecord key s]
    | cons r rest => simpa [newRecord, hempty] using hempty ▸ hout
  · intro r hr
    rw [htable, List.mem_append, List.mem_singleton] at hr
    obtain hr | rfl := hr
    · exact hrange r hr
    · exact ⟨le_refl 1, show 1 ≤ 255 by decide⟩

theorem tableHolds_dropRecord (r : TripRecord) (s : State) (h : TableHolds s) : TableHolds (dropRecord r s) := by
  obtain ⟨-, hnodup, hout, hrange⟩ := h
  have htable : (dropRecord r s).tmx.table = s.tmx.table.filter fun q => !(q.key == r.key) := rfl
  refine ⟨evalStopLine_iff _, ?_, ?_, ?_⟩
  · rw [htable]
    exact hnodup.sublist (List.filter_sublist.map _)
  · rw [htable]
    exact (List.filter_sublist.filter _).length_le.trans hout
  · intro q hq
    exact hrange q (List.mem_of_mem_filter hq)

theorem satSucc_pos (bound n : Nat) (hbound : 1 ≤ bound) : 1 ≤ satSucc bound n := by
  unfold satSucc
  split <;> omega

theorem keeps_tableHolds : Kept TableHolds where
  mark key st s h := tableHolds_modRecord key _ s (fun _ => rfl) (fun _ => rfl) (fun _ => rfl) (fun _ h => h) h
  reraise key s h :=
    tableHolds_modRecord key _ s (fun _ => rfl) (fun _ => rfl) (fun _ => rfl)
      (fun _ _ => ⟨satSucc_pos _ _ (by decide), satSucc_le _ _⟩) h
  add key _ hnew h := tableHolds_addRecord key _ hnew h
  drop r _ h := tableHolds_dropRecord r _ h

/-- The state after reset has the trip table in its form, and no reset is held. -/
theorem tableOk_reset : TableOk State.reset ∧ State.reset.inReset = false := by
  refine ⟨⟨fun _ => ?_, by decide, by decide, ?_⟩, rfl⟩
  · exact ⟨fun _ => ⟨resetStopRecord, List.mem_singleton_self _, rfl⟩, fun _ => rfl⟩
  · intro r hr
    obtain rfl := List.mem_singleton.mp hr
    decide

/-- Settles O53: the four changes of the table keep its form, and the stop line follows the records at each; a held reset is
what it holds, and no move begins under one. -/
theorem stepKeepsTripTable : Obligations.StepKeepsTripTable := by
  intro s t hstep
  constructor
  · intro hs
    refine step_keeps (fun _ _ h => h) (fun r s hr => ?_) (fun straps s => ?_) (fun hrun m hs => ?_) hs hstep
    · exact ⟨fun hrun => absurd ((inReset_eq_true (holdReset r s)).mpr hr) (by simp [hrun]), List.nodup_nil, by simp [TripMatrix.cleared],
        by simp [TripMatrix.cleared]⟩
    · rw [release_eq]
      exact tableOk_reset.1
    · exact (tableOk_iff _ ((move_inReset m).trans hrun)).mpr (keeps_tableHolds.after_move m ((tableOk_iff _ hrun).mp hs))
  · intro hs
    refine step_keeps (P := HeldOk) (fun s p h hheld => ?_) (fun r s _ _ => rfl) (fun straps s hheld => ?_)
      (fun hrun m _ hheld => ?_) hs hstep
    · exact congrArg (fun u : State => { u with pending := p }) (h hheld)
    · rw [release_eq] at hheld
      exact absurd (show State.reset.inReset = true from hheld) Bool.false_ne_true
    · rw [move_inReset m, hrun] at hheld
      exact absurd hheld (by decide)

/-! ## Report queue and transmit line -/

/-- A queue with one notice at most for a source, each of an enabled kind and with its occurrence in range (R179, R181). -/
def QueueFits (mask : BitVec 6) (q : List Notice) : Prop :=
  (q.map fun n => n.body.source).Nodup ∧ ∀ n ∈ q, kindEnabled mask n.body.source = true ∧ 1 ≤ n.occ ∧ n.occ ≤ 255

theorem QueueFits.sublist {mask : BitVec 6} {q l : List Notice} (h : QueueFits mask q) (hl : List.Sublist l q) :
    QueueFits mask l := by
  obtain ⟨hnodup, hrange⟩ := h
  exact ⟨hnodup.sublist (hl.map _), fun n hn => hrange n (hl.subset hn)⟩

/-- An update enters its own source alone, and each notice stays in its range (R179). -/
theorem QueueFits.enter {mask : BitVec 6} {q : List Notice} (h : QueueFits mask q) (b : NoticeBody)
    (hb : kindEnabled mask b.source = true) : QueueFits mask (enterNotice q b) := by
  obtain ⟨hnodup, hrange⟩ := h
  refine ⟨enterNotice_nodup q b hnodup, fun n hn => ?_⟩
  unfold enterNotice at hn
  split at hn
  · obtain ⟨m, hm, rfl⟩ := List.mem_map.mp hn
    obtain ⟨hkind, hlow, hhigh⟩ := hrange m hm
    by_cases hsame : m.body.source = b.source
    · simp only [hsame, beq_self_eq_true, if_true]
      rw [coalesce_source _ _ hsame]
      exact ⟨hb, satSucc_pos _ _ (by decide), satSucc_le _ _⟩
    · simp only [beq_iff_eq, hsame, if_false]
      exact ⟨hkind, hlow, hhigh⟩
  · obtain hn | hn := List.mem_append.mp hn
    · exact hrange n hn
    · obtain rfl := List.mem_singleton.mp hn
      exact ⟨hb, le_refl 1, show 1 ≤ 255 by decide⟩

theorem keeps_queueOk : Kept QueueOk where
  queue b s henabled h := QueueFits.enter h b henabled
  reports body s _ _ h := by
    obtain ⟨hnodup, hrange⟩ := h
    have hsub : List.Sublist (maskedQueue (BitVec.ofNat 6 (rd8 body 0)) s.hlk.queue) s.hlk.queue := List.filter_sublist
    refine ⟨hnodup.sublist (hsub.map _), fun n hn => ?_⟩
    have hkept := (List.mem_filter.mp hn).2
    exact ⟨(Bool.and_eq_true _ _ ▸ hkept).1, (hrange n (hsub.subset hn)).2⟩
  emptyQueue _ := ⟨List.nodup_nil, fun n hn => absurd hn List.not_mem_nil⟩
  sendNotice n rest s hqueue h := by
    have hsub : List.Sublist rest s.hlk.queue := by
      rw [hqueue]
      exact List.sublist_cons_self n rest
    exact QueueFits.sublist h hsub

/-- A request is held only behind a full slot (R171). -/
def HoldOk (s : State) : Prop := s.hlk.held ≠ none → s.hlk.slot ≠ none

theorem closed_holdOk : RequestClosed HoldOk where

/-- The line's frame in transmission and its places, which effects of events and requests leave alone. -/
theorem closed_line (tx slot held : Option HostFrame) :
    RequestClosed fun s => s.hlk.tx = tx ∧ s.hlk.slot = slot ∧ s.hlk.held = held where

/-- The taking of a request leaves its reply in the slot, and the rest of the line as it was (R171). -/
theorem takeRequest_line (q : HostFrame) (s : State) :
    (takeRequest q s).hlk.tx = s.hlk.tx ∧ (takeRequest q s).hlk.held = s.hlk.held ∧
      (takeRequest q s).hlk.slot ≠ none := by
  obtain ⟨htx, -, hheld⟩ :=
    (closed_line s.hlk.tx s.hlk.slot s.hlk.held).after_request (answer_effect q.kind.toNat q.body s) ⟨rfl, rfl, rfl⟩
  exact ⟨htx, hheld, by simp [takeRequest]⟩

/-- The end of an event leaves nothing waiting on an idle line (R174). -/
theorem endEvent_lineOk (s : State) (h : HoldOk s) : LineOk (endEvent s) := by
  obtain ⟨htx, e⟩ | ⟨htx, reply, hslot, e⟩ | ⟨htx, hslot, n, rest, hqueue, e⟩ | ⟨htx, hslot, hqueue, e⟩ :=
    pumpWith_cases takeRequest s <;> rw [endEvent, e]
  · exact ⟨fun hidle => absurd hidle htx, h⟩
  · unfold startReply
    dsimp only
    split
    · rename_i q _
      obtain ⟨htx', hheld', hslot'⟩ := takeRequest_line q
        ((s.withHlk { s.hlk with slot := none, tx := some reply }).withHlk
          { (s.withHlk { s.hlk with slot := none, tx := some reply }).hlk with held := none })
      exact ⟨fun hidle => absurd (htx'.symm.trans hidle) (by simp), fun _ => hslot'⟩
    · rename_i hheld
      exact ⟨fun hidle => absurd hidle (by simp), fun hne => absurd hheld hne⟩
  · exact ⟨fun hidle => absurd hidle (by simp), h⟩
  · exact ⟨fun _ => ⟨hslot, hqueue⟩, h⟩

theorem arriveRequest_holdOk (q : HostFrame) (s : State) (h : HoldOk s) : HoldOk (arriveRequest q s) := by
  obtain ⟨-, e⟩ | ⟨-, ⟨-, e⟩ | ⟨-, hslot, e⟩ | ⟨-, -, e⟩⟩ := arriveRequest_cases q s <;> rw [e]
  · exact h
  · exact h
  · exact fun _ => hslot
  · exact fun _ => (takeRequest_line q s).2.2

/-- Every move leaves nothing waiting on an idle line. -/
theorem move_lineOk {s t : State} (m : Move s t) (h : LineOk s) : LineOk t := by
  have hhold : HoldOk s := h.2
  cases m with
  | quiet m => cases m <;> exact h
  | event e => exact endEvent_lineOk _ (closed_holdOk.after_effect e hhold)
  | settle pins hsettled =>
    refine endEvent_lineOk _ (foldl_inv _ (fun n s hs => ?_) _ (Closed.after_eachStand _ closed_holdOk.after_standNotice
      (closed_holdOk.after_evalScopes hhold)))
    unfold settleStop
    split
    · exact closed_holdOk.after_raiseKey false _ hs
    · exact hs
  | arrive q => exact endEvent_lineOk _ (arriveRequest_holdOk q s hhold)
  | sent hbusy => exact endEvent_lineOk _ hhold

/-- The queue and the line after reset: the reset's notices behind MILL_STATE in transmission (R185). -/
theorem hostLine_reset : QueueOk State.reset ∧ LineOk State.reset := by
  refine ⟨⟨by decide +kernel, by decide +kernel⟩, fun hidle => absurd hidle (by decide +kernel), fun h => absurd rfl h⟩

/-- Settles O55: an update keeps one notice for its source, and every event ends with the line taking what waits. -/
theorem stepKeepsHostLine : Obligations.StepKeepsHostLine := by
  intro s t hqueue hline hstep
  constructor
  · refine step_keeps (P := QueueOk) (fun _ _ h => h) (fun r s _ => ?_) (fun straps s => ?_)
      (fun _ m h => keeps_queueOk.after_move m h) hqueue hstep
    · exact ⟨List.nodup_nil, fun n hn => absurd hn List.not_mem_nil⟩
    · rw [release_eq]
      exact hostLine_reset.1
  · refine step_keeps (P := LineOk) (fun _ _ h => h) (fun r s _ => ?_) (fun straps s => ?_)
      (fun _ m h => move_lineOk m h) hline hstep
    · exact ⟨fun _ => ⟨rfl, rfl⟩, fun h => absurd rfl h⟩
    · rw [release_eq]
      exact hostLine_reset.2

end Sys2Proof.Machine
end

section
/-! PROOFS. Every step keeps the banks valid and trims, integrators and timers within them (O59). -/

namespace Sys2Proof.Machine

/-! ## Records read from bodies -/

/-- Without a failing check every check passes. -/
theorem firstFail_none {checks : List (Nat × Bool)} (h : firstFail checks = none) : ∀ c ∈ checks, c.2 = true := by
  simpa [firstFail] using h

/-- A stand record without a failing field is in its ranges (R4, R8). -/
theorem rdStand_inRange (body : List Byte) (o : Nat) (h : standBadField body o = none) :
    (rdStand body o).inRange = true := by
  have hall := firstFail_none h
  exact List.all_eq_true.mpr fun c hc => hall c (List.mem_cons_of_mem _ hc)

theorem ascending_iff (l : List Nat) : ascending l = true ↔ (∀ n ∈ l, 1 ≤ n ∧ n ≤ 8) ∧ l.Pairwise (· < ·) := by
  simp [ascending, inNat]

theorem standOfPos_of_range {n : Nat} (h : 1 ≤ n ∧ n ≤ 8) : standOfPos n = some (Fin.ofNat 8 (n - 1)) := if_pos h

/-- An ascending list of position numbers names its stands in ascending order, each once. -/
theorem filterMap_standOfPos (l : List Nat) (hrange : ∀ n ∈ l, 1 ≤ n ∧ n ≤ 8) :
    l.filterMap standOfPos = l.map fun n => Fin.ofNat 8 (n - 1) := by
  rw [← List.filterMap_eq_map]
  exact List.filterMap_congr fun n hn => standOfPos_of_range (hrange n hn)

theorem pairwise_stands (l : List Nat) (hrange : ∀ n ∈ l, 1 ≤ n ∧ n ≤ 8) (hasc : l.Pairwise (· < ·)) :
    (l.filterMap standOfPos).Pairwise (· < ·) := by
  rw [filterMap_standOfPos l hrange, List.pairwise_map]
  refine hasc.imp_of_mem fun {a b} ha hb hab => ?_
  have hra := hrange a ha
  have hrb := hrange b hb
  rw [Fin.lt_def]
  simp only [Fin.val_ofNat]
  omega

/-- A byte other than 0 lies within the body. -/
theorem lt_length_of_rd8_pos {body : List Byte} {i : Nat} (h : 1 ≤ rd8 body i) : i < body.length := by
  by_contra hout
  simp [rd8, List.getElem?_eq_none (not_lt.mp hout)] at h

/-- A mill record without a failing field is in its ranges (R6, R9). -/
theorem rdMill_inRange (body : List Byte) (h : millBadField body = none) :
    (rdMill body).inRange = true := by
  have hall := firstFail_none h
  simp only [List.mem_cons, List.not_mem_nil, or_false, forall_eq_or_imp, forall_eq] at hall
  obtain ⟨hset, hspans, hnx, hentry, -, hkm, hmdb, hhold⟩ := hall
  rw [Bool.and_eq_true, ascending_iff] at hset
  obtain ⟨hcount, hrange, hasc⟩ := hset
  have hne : (rdMill body).activeSet ≠ [] := by
    have hlen : 30 < body.length := lt_length_of_rd8_pos (of_decide_eq_true hnx).1
    have hpos : 1 ≤ rd8 body 0 := (of_decide_eq_true hcount).1
    rw [show (rdMill body).activeSet = (rdPositions body).filterMap standOfPos from rfl, filterMap_standOfPos _ hrange,
      ← List.length_pos_iff]
    simp only [rdPositions, List.length_map, List.length_take, List.length_drop]
    omega
  simp only [MillRecord.inRange, Bool.and_eq_true, Bool.not_eq_true', List.isEmpty_eq_false_iff, decide_eq_true_eq]
  refine ⟨⟨⟨⟨⟨⟨⟨hne, pairwise_stands _ hrange hasc⟩, ?_⟩, hnx⟩, hentry⟩, hkm⟩, hmdb⟩, hhold⟩
  refine List.all_eq_true.mpr fun i hi => ?_
  rw [show vget (rdMill body).spanTable i = rdSpan body i from vget_vtab _ _]
  exact List.all_eq_true.mp hspans i hi

/-! ## Banks -/

theorem rangesOk_none : RangesOk Bank.none :=
  ⟨fun m hm => by simp [Bank.none] at hm, fun k r hr => by simp [Bank.none] at hr⟩

theorem rangesOk_setStand (b : Bank) (k : Stand) (r : StandRecord) (hr : r.inRange = true) (h : RangesOk b) :
    RangesOk { b with stands := vset b.stands k (some r) } := by
  obtain ⟨hmill, hstands⟩ := h
  refine ⟨hmill, fun j q hq => ?_⟩
  rw [vget_vset] at hq
  split at hq
  · cases hq
    exact hr
  · exact hstands j q hq

theorem rangesOk_setMill (b : Bank) (m : MillRecord) (hm : m.inRange = true) (h : RangesOk b) :
    RangesOk { b with mill := some m } := by
  obtain ⟨-, hstands⟩ := h
  refine ⟨fun q hq => ?_, hstands⟩
  cases hq
  exact hm

/-- A load leaves the pending bank EDITING with records in range (R8, R9). -/
theorem banksOk_loaded (b : Bank) (s : State) (hb : RangesOk b) (h : BanksOk s) :
    BanksOk (s.withSch { s.sch with pendingBank := loaded b }) := by
  obtain ⟨hactive, -, hstate, -, hcounter⟩ := h
  exact ⟨hactive, hb, hstate, rfl, hcounter⟩

theorem banksOk_cleared (s : State) (h : BanksOk s) :
    BanksOk (s.withSch { s.sch with pendingBank := PendingBank.none }) := by
  obtain ⟨hactive, -, hstate, -, hcounter⟩ := h
  exact ⟨hactive, rangesOk_none, hstate, rfl, hcounter⟩

/-- The next counter differs from the serial just given and from the active one (R2). -/
theorem advanceCounter_fresh (counter active : Nat) (hlow : 1 ≤ counter) (hhigh : counter ≤ 65535) :
    advanceCounter counter active ≠ counter ∧ advanceCounter counter active ≠ active ∧
      1 ≤ advanceCounter counter active ∧ advanceCounter counter active ≤ 65535 := by
  unfold advanceCounter succ65535
  split_ifs <;> omega

theorem banksOk_commit (s : State) (hvalid : validationFault s.sch.pendingBank.bank = none) (h : BanksOk s) :
    BanksOk (commitPending s) := by
  obtain ⟨hactive, hpending, hstate, -, hlow, hhigh, hne⟩ := h
  obtain ⟨hfresh, hother, hlow', hhigh'⟩ := advanceCounter_fresh s.sch.counter s.sch.active.serial hlow hhigh
  exact ⟨hactive, hpending, hstate, ⟨hvalid, hlow, hhigh, hne, Ne.symm hfresh⟩, hlow', hhigh', hother⟩

theorem banksOk_swap (s : State) (hstate : s.sch.pendingBank.state = .committed) (h : BanksOk s) :
    BanksOk (swapStart s) := by
  obtain ⟨-, hpending, -, hcommitted, hlow, hhigh, -⟩ := h
  rw [hstate] at hcommitted
  obtain ⟨hvalid, hslow, hshigh, -, hcounter⟩ := hcommitted
  exact ⟨hpending, rangesOk_none, ⟨hvalid, hslow, hshigh⟩, rfl, hlow, hhigh, Ne.symm hcounter⟩

/-! ## Gap records -/

/-- A gap record fits the stand record of its position (R88, R105, R108). -/
def GapFits (record : Option StandRecord) (g : GapRecord) : Prop :=
  match record with
  | some r => (∃ n, g.timer = some n ∧ n ≤ r.tCtl) ∧ g.trim.natAbs ≤ r.trimMax ∧ g.integ.natAbs ≤ r.iLim
  | none => g.timer = none ∧ g.trim = 0 ∧ g.integ = 0

theorem gapFits_congr {record : Option StandRecord} {f g : GapRecord} (htimer : g.timer = f.timer) (htrim : g.trim = f.trim)
    (hinteg : g.integ = f.integ) (h : GapFits record f) : GapFits record g := by
  cases record <;> simpa [GapFits, htimer, htrim, hinteg] using h

/-- The gap record that a swap or a soft reset leaves fits (R86, R112). -/
theorem gapFits_restarted (record : Option StandRecord) (g : GapRecord) (hstart : g.timer = record.map (·.tCtl))
    (htrim : g.trim = 0) (hinteg : g.integ = 0) : GapFits record g := by
  cases record <;> simp_all [GapFits]

/-- A change of one gap record that fits keeps them all fitting. -/
theorem gapOk_modGap (k : Stand) (f : GapRecord → GapRecord) (s : State) (h : ∀ j, GapOk s j)
    (hf : GapFits (s.record k) (s.gap k) → GapFits (s.record k) (f (s.gap k))) (j : Stand) : GapOk (s.modGap k f) j := by
  show GapFits (s.record j) ((s.modGap k f).gap j)
  rw [modGap_gap]
  split
  · rename_i hjk
    subst hjk
    exact hf (h j)
  · exact h j

/-- A change of all gap records that each fits keeps them fitting. -/
theorem gapOk_modGaps (f : Stand → GapRecord → GapRecord) (s : State) (h : ∀ j, GapOk s j)
    (hf : ∀ j, GapFits (s.record j) (s.gap j) → GapFits (s.record j) (f j (s.gap j))) (j : Stand) :
    GapOk (s.modGaps f) j := by
  show GapFits (s.record j) ((s.modGaps f).gap j)
  rw [modGaps_gap]
  exact hf j (h j)

theorem saturate_natAbs (n : Nat) (x : Int) : (saturate (-(n : Int)) n x).natAbs ≤ n := by
  have h := saturate_range (-(n : Int)) n x (by omega)
  omega

/-- A monitor step keeps every integrator within its limit (R108). -/
theorem gapOk_stepIntegrators (eX : Int) (km : Nat) (s : State) (h : ∀ j, GapOk s j) (j : Stand) :
    GapOk (stepIntegrators eX km s) j := by
  refine gapOk_modGaps _ s h (fun j hj => ?_) j
  cases hr : s.record j with
  | none => rwa [hr] at hj
  | some r =>
    rw [hr] at hj
    dsimp only
    split
    · exact ⟨hj.1, hj.2.1, saturate_natAbs _ _⟩
    · exact hj

theorem gapOk_countDown (s : State) (h : ∀ j, GapOk s j) (j : Stand) : GapOk (countDown s) j := by
  have hgap : (countDown s).gap j = { s.gap j with timer := countTimer (s.gap j).timer } := vget_vtab _ _
  have hj : GapFits (s.record j) (s.gap j) := h j
  show GapFits (s.record j) ((countDown s).gap j)
  rw [hgap]
  cases hr : s.record j with
  | none =>
    rw [hr] at hj
    obtain ⟨htimer, hrest⟩ := hj
    exact ⟨by simp [htimer, countTimer], hrest⟩
  | some r =>
    rw [hr] at hj
    obtain ⟨⟨n, htimer, hn⟩, hrest⟩ := hj
    exact ⟨⟨n - 1, by simp [htimer, countTimer], by omega⟩, hrest⟩

/-- What the swap makes of a gap record (R86). -/
theorem swapStart_gap (k : Stand) (s : State) :
    (swapStart s).gap k =
      { s.gap k with trim := 0, integ := 0, timer := ((swapStart s).record k).map (·.tCtl) } := vget_vtab _ _

/-- Banks and gap records together (R1, R88). -/
def BanksHold (s : State) : Prop := BanksOk s ∧ ∀ k, GapOk s k

theorem keeps_banksHold : Kept BanksHold where
  gap k f s hf h :=
    ⟨h.1, gapOk_modGap k f s h.2 fun hfits =>
      have ⟨htimer, htrim, hinteg⟩ := hf (s.gap k)
      gapFits_congr htimer htrim hinteg hfits⟩
  reload k r s hrecord h := by
    refine ⟨h.1, gapOk_modGap k _ s h.2 fun hfits => ?_⟩
    rw [hrecord] at hfits ⊢
    obtain ⟨-, hrest⟩ := hfits
    exact ⟨⟨_, rfl, le_refl _⟩, hrest⟩
  integrators eX km s h := ⟨h.1, gapOk_stepIntegrators eX km s h.2⟩
  unlock h := ⟨h.1, gapOk_modGaps _ _ h.2 fun j hfits => gapFits_congr rfl rfl rfl hfits⟩
  swap {s} hstate h := by
    refine ⟨banksOk_swap _ hstate h.1, fun k => ?_⟩
    have hgap := swapStart_gap k s
    exact gapFits_restarted _ _ (congrArg GapRecord.timer hgap) (congrArg GapRecord.trim hgap)
      (congrArg GapRecord.integ hgap)
  loadStand k body _ hfield h := ⟨banksOk_loaded _ _ (rangesOk_setStand _ k _ (rdStand_inRange body 1 hfield) h.1.2.1) h.1, h.2⟩
  loadMill body _ hfield h := ⟨banksOk_loaded _ _ (rangesOk_setMill _ _ (rdMill_inRange body hfield) h.1.2.1) h.1, h.2⟩
  commit hstate hvalid h := ⟨banksOk_commit _ hvalid h.1, h.2⟩
  clearPending h := ⟨banksOk_cleared _ h.1, h.2⟩
  trim k r x s hrecord h := by
    refine ⟨h.1, gapOk_modGap k _ s h.2 fun hfits => ?_⟩
    rw [hrecord] at hfits ⊢
    obtain ⟨htimer, -, hinteg⟩ := hfits
    exact ⟨htimer, saturate_natAbs _ _, hinteg⟩
  restartGaps h := ⟨h.1, gapOk_modGaps _ _ h.2 fun j _ => gapFits_restarted _ _ rfl rfl rfl⟩
  count h := ⟨h.1, gapOk_countDown _ h.2⟩

/-- The banks of a part whose schedule store and gap records are cleared are in order (R19, R111). -/
theorem banksHold_cleared (s : State) (hsch : s.sch = ScheduleStore.cleared)
    (hgce : s.gce = Vector.replicate 8 GapRecord.cleared) : BanksHold s := by
  refine ⟨?_, fun k => ?_⟩
  · rw [BanksOk, hsch]
    exact ⟨rangesOk_none, rangesOk_none, ⟨rfl, rfl⟩, rfl, by decide, by decide, by decide⟩
  · have hgap : s.gap k = GapRecord.cleared := by rw [State.gap, hgce, vget_replicate]
    have hrecord : s.record k = none := by
      rw [State.record, hsch]
      exact vget_replicate _ _
    show GapFits (s.record k) (s.gap k)
    rw [hgap, hrecord]
    exact ⟨rfl, rfl, rfl⟩

/-- Settles O59: loads bring records in range, COMMIT a validated bank with a fresh serial, the swap the committed bank, and
the changes of a gap record stay within its stand record. -/
theorem stepKeepsBanks : Obligations.StepKeepsBanks := by
  intro s t hbanks hgaps hstep
  refine step_keeps (P := BanksHold) (fun _ _ h => h) (fun r s _ => banksHold_cleared _ rfl rfl) (fun straps s => ?_)
    (fun _ m h => keeps_banksHold.after_move m h) ⟨hbanks, hgaps⟩ hstep
  rw [release_eq]
  exact banksHold_cleared _ rfl rfl

end Sys2Proof.Machine
end

section
/-! PROOFS. Every step keeps presence, channels, assemblers, configuration and capacities (O60). -/

namespace Sys2Proof.Machine

/-! ## Presence -/

/-- A level accepted at an input other than a detector keeps the presence logic. -/
theorem presenceOk_setFilter (i : FilterId) (hother : ∀ k, i ≠ .hmd k) (level : Bool) (s : State) (h : PresenceOk s) :
    PresenceOk (s.setFilter i { level := level, count := 0, due := false }) := by
  obtain ⟨hlevel, hmeasurer, hdue⟩ := h
  have hpres (k : Stand) : (s.setFilter i { level := level, count := 0, due := false }).presence k = s.presence k := by
    cases i <;> rfl
  refine ⟨fun k => ?_, fun k => ?_, fun j => ?_⟩
  · rw [hpres, setFilter_filter, if_neg (Ne.symm (hother k))]
    exact hlevel k
  · rw [hpres]
    exact hmeasurer k
  · rw [setFilter_filter]
    split
    · exact fun h => absurd h Bool.false_ne_true
    · simpa using hdue j

theorem sense_present (p : Presence) (level : Bool) : (p.sense level).state = .present ↔ level = true := by
  obtain ⟨state, n⟩ := p
  cases level <;> cases state <;> simp [Presence.sense]

theorem sense_measurer (p : Presence) (level : Bool) (h : p.state ≠ .dropout → p.measurer = 0) :
    (p.sense level).state ≠ .dropout → (p.sense level).measurer = 0 := by
  obtain ⟨state, n⟩ := p
  cases level <;> cases state <;> simp_all [Presence.sense]

theorem presenceOk_senseStrip (k : Stand) (s : State) (h : PresenceOk s) : PresenceOk (senseStrip k s) := by
  obtain ⟨hlevel, hmeasurer, hdue⟩ := h
  have hfilter (i : FilterId) : (senseStrip k s).filter i =
      if i = .hmd k then { level := pinActive s.plu.pins (.hmd k), count := 0, due := false } else s.filter i := by
    rw [senseStrip, modPresence_filter, setFilter_filter]
  have hpres (j : Stand) : (senseStrip k s).presence j =
      if j = k then (s.presence k).sense (pinActive s.plu.pins (.hmd k)) else s.presence j := by
    rw [senseStrip, modPresence_presence]
    rfl
  refine ⟨fun j => ?_, fun j => ?_, fun i => ?_⟩
  · rw [hpres, hfilter]
    by_cases hjk : j = k
    · subst hjk
      simpa using sense_present (s.presence j) _
    · rw [if_neg hjk, if_neg (by simpa using hjk)]
      exact hlevel j
  · rw [hpres]
    split
    · exact sense_measurer _ _ (hmeasurer k)
    · exact hmeasurer j
  · rw [hfilter]
    split
    · exact fun h => absurd h Bool.false_ne_true
    · exact hdue i

/-- A change of a dropout's presence logic that makes no strip present but in the dropout keeps the rest. -/
theorem presenceOk_modPresence (k : Stand) (f : Presence → Presence) (s : State) (hstate : (s.presence k).state = .dropout)
    (hf : (f (s.presence k)).state ≠ .present)
    (hmeas : (f (s.presence k)).state ≠ .dropout → (f (s.presence k)).measurer = 0) (h : PresenceOk s) :
    PresenceOk (s.modPresence k f) := by
  obtain ⟨hlevel, hmeasurer, hdue⟩ := h
  refine ⟨fun j => ?_, fun j => ?_, fun i => ?_⟩
  · rw [modPresence_presence, modPresence_filter, ← hlevel j]
    split
    · rename_i hjk
      subst hjk
      simp [hf, hstate]
    · rfl
  · rw [modPresence_presence]
    split
    · exact hmeas
    · exact hmeasurer j
  · rw [modPresence_filter]
    exact hdue i

/-- A sample keeps the level, and an accept is due only against it (R42). -/
theorem sample_due (f : Filter) (level : Bool) (n : Nat) :
    (f.sample level n).level = f.level ∧ ((f.sample level n).due = true → level ≠ f.level) := by
  unfold Filter.sample
  split
  · exact ⟨rfl, fun h => absurd h Bool.false_ne_true⟩
  · rename_i hne
    exact ⟨rfl, fun _ => hne⟩

theorem sampleFilters_filter (pins : InputPins) (s : State) (i : FilterId) :
    ∃ n, (sampleFilters pins s).filter i = (s.filter i).sample (pinActive pins i) n := by
  cases i <;> exact ⟨_, vget_vtab _ _⟩

theorem presenceOk_sampled (pins : InputPins) (s : State) (h : PresenceOk s) : PresenceOk (sampleFilters pins s) := by
  obtain ⟨hlevel, hmeasurer, -⟩ := h
  refine ⟨fun k => ?_, hmeasurer, fun i => ?_⟩
  · obtain ⟨n, e⟩ := sampleFilters_filter pins s (.hmd k)
    rw [e, (sample_due _ _ _).1]
    exact hlevel k
  · obtain ⟨n, e⟩ := sampleFilters_filter pins s i
    rw [e, (sample_due _ _ _).1]
    exact (sample_due _ _ _).2

theorem settleInputs_filter (pins : InputPins) (s : State) (i : FilterId) :
    (settleInputs pins s).filter i = Filter.settled (pinActive pins i) := by
  cases i <;> exact vget_vtab _ _

theorem settleInputs_presence (pins : InputPins) (s : State) (k : Stand) :
    (settleInputs pins s).presence k =
      { state := if pinActive pins (.hmd k) then .present else .absent, measurer := 0 } := vget_vtab _ _

theorem presenceOk_settled (pins : InputPins) (s : State) : PresenceOk (settleInputs pins s) := by
  refine ⟨fun k => ?_, fun k _ => ?_, fun i => ?_⟩
  · rw [settleInputs_filter, settleInputs_presence, Filter.settled]
    cases pinActive pins (.hmd k) <;> simp
  · rw [settleInputs_presence]
  · rw [settleInputs_filter]
    exact fun h => absurd h Bool.false_ne_true

theorem presenceOk_clearMeasurers (s : State) (h : PresenceOk s) : PresenceOk (s.withPlu (clearMeasurers s.plu)) := by
  obtain ⟨hlevel, -, hdue⟩ := h
  have hpres (k : Stand) : (s.withPlu (clearMeasurers s.plu)).presence k = { s.presence k with measurer := 0 } :=
    vget_vtab _ _
  have hfilter (i : FilterId) : (s.withPlu (clearMeasurers s.plu)).filter i = s.filter i := by cases i <;> rfl
  refine ⟨fun k => ?_, fun k _ => ?_, fun i => ?_⟩
  · rw [hpres, hfilter]
    exact hlevel k
  · rw [hpres]
  · rw [hfilter]
    exact hdue i

theorem keeps_presenceOk : Kept PresenceOk where
  sense k _ _ h := presenceOk_senseStrip k _ h
  stopInput n _ h := presenceOk_setFilter (.stop n) (fun _ => by simp) _ _ h
  panelInput k _ h := presenceOk_setFilter (.panel k) (fun _ => by simp) _ _ h
  measured k n _ hstate h :=
    presenceOk_modPresence k _ _ hstate (by simp [hstate]) (fun hne => absurd hstate hne) h
  absent k _ hstate h := presenceOk_modPresence k _ _ hstate (by simp) (fun _ => rfl) h
  measurers h := presenceOk_clearMeasurers _ h
  sampled pins _ h := presenceOk_sampled pins _ h
  settled pins _ _ := presenceOk_settled pins _

/-! ## Channels -/

/-- A channel record in order (R28 to R32, R35): `ChannelOk`, of the record alone. -/
def ChannelFits (c : Channel) : Prop :=
  (c.state = .empty ↔ c.lastSeq = none) ∧ (c.lastSeq = none ↔ c.hit = none) ∧
    (c.state = .empty → c.value = 0 ∧ c.prev = 0 ∧ c.warn = false) ∧ (c.state ≠ .fresh → c.remaining = 0)

theorem channelOk_modChan (c : Chan) (f : Channel → Channel) (s : State) (hf : ChannelFits (s.chan c) → ChannelFits (f (s.chan c)))
    (h : ∀ d, ChannelOk s d) (d : Chan) : ChannelOk (s.modChan c f) d := by
  show ChannelFits ((s.modChan c f).chan d)
  rw [modChan_chan]
  split
  · exact hf (h c)
  · exact h d

theorem channelFits_stale (c : Channel) (hdue : c.expired = true) (h : ChannelFits c) :
    ChannelFits { c with state := .stale } := by
  simp only [Channel.expired, Bool.and_eq_true, beq_iff_eq] at hdue
  obtain ⟨hfresh, hremaining⟩ := hdue
  obtain ⟨hempty, hhit, -⟩ := h
  rw [hfresh] at hempty
  exact ⟨by simpa using hempty, hhit, fun h => absurd h (by simp), fun _ => hremaining⟩

theorem channelFits_countDown (c : Channel) (h : ChannelFits c) : ChannelFits c.countDown := by
  obtain ⟨hempty, hhit, hreset, hremaining⟩ := h
  unfold Channel.countDown
  split
  · rename_i hfresh
    exact ⟨hempty, hhit, hreset, fun hne => absurd hfresh hne⟩
  · exact ⟨hempty, hhit, hreset, hremaining⟩

/-- Every channel record in order. -/
def ChannelsOk (s : State) : Prop := ∀ c, ChannelOk s c

theorem keeps_channelsOk : Kept ChannelsOk where
  fault c _ _ _ h := channelOk_modChan c _ _ (fun _ => by simp [ChannelFits, Channel.fault]) h
  sample c _ _ _ _ _ _ h := channelOk_modChan c _ _ (fun _ => by simp [ChannelFits, Channel.sample]) h
  stale c _ hdue h := channelOk_modChan c _ _ (channelFits_stale _ hdue) h
  count {s} h c := by
    have hchan : (countDown s).chan c = (s.chan c).countDown := vget_vtab _ _
    show ChannelFits ((countDown s).chan c)
    rw [hchan]
    exact channelFits_countDown _ (h c)

/-! ## Assemblers -/

/-- The bytes that the field-in assembler holds open with the start value and are short of a frame (R21). -/
def FieldHeld (a : FieldAssembler) : Prop := ∀ held, a = .collecting held → held.head? = some 0x5A ∧ held.length ≤ 8

/-- The bytes that the receive assembler holds are short of the frame that LEN announces (R169). -/
def HostHeld (a : RxAssembler) : Prop :=
  ∀ len held, a = .collecting len held → 2 ≤ len.toNat ∧ len.toNat ≤ 250 ∧ held.length ≤ len.toNat + 1

theorem fieldHeld_take (a : FieldAssembler) (b : Byte) (framingError : Bool) (h : FieldHeld a) :
    FieldHeld (a.take b framingError).1 := by
  intro held' hnew
  cases a with
  | hunting =>
    unfold FieldAssembler.take at hnew
    dsimp only at hnew
    split at hnew
    · rename_i hstart
      cases hnew
      simp only [Bool.and_eq_true, beq_iff_eq] at hstart
      simp [hstart.2]
    · cases hnew
  | collecting held =>
    obtain ⟨hhead, -⟩ := h held rfl
    unfold FieldAssembler.take at hnew
    dsimp only at hnew
    split at hnew
    · cases hnew
    split at hnew
    · rename_i hshort
      cases hnew
      rw [List.head?_append, hhead]
      exact ⟨rfl, by simpa using hshort⟩
    · cases hnew

theorem hostHeld_take (a : RxAssembler) (b : Byte) (framingError : Bool) (h : HostHeld a) :
    HostHeld (a.take b framingError).1 := by
  intro len' held' hnew
  cases a with
  | hunting =>
    unfold RxAssembler.take at hnew
    dsimp only at hnew
    split at hnew <;> cases hnew
  | length =>
    unfold RxAssembler.take at hnew
    dsimp only at hnew
    split at hnew
    · rename_i hlen
      cases hnew
      simp only [Bool.and_eq_true, inNat, decide_eq_true_eq] at hlen
      exact ⟨hlen.2.1, hlen.2.2, by simp⟩
    · cases hnew
  | collecting len held =>
    obtain ⟨hlow, hhigh, -⟩ := h len held rfl
    unfold RxAssembler.take at hnew
    dsimp only at hnew
    split at hnew
    · cases hnew
    split at hnew
    · rename_i hshort
      cases hnew
      exact ⟨hlow, hhigh, by rw [List.length_append, List.length_singleton]; omega⟩
    · cases hnew

theorem keeps_assemblersOk : Kept AssemblersOk where
  fieldByte b framingError _ h := ⟨fieldHeld_take _ b framingError h.1, h.2⟩
  fieldTimeout h := ⟨(by intro _ hnew; cases hnew), h.2⟩
  hostByte b framingError _ h := ⟨h.1, hostHeld_take _ b framingError h.2⟩
  hostTimeout h := ⟨h.1, (by intro _ _ hnew; cases hnew)⟩

/-! ## Configuration and streams -/

theorem inNat_iff (lo hi x : Nat) : inNat lo hi x = true ↔ lo ≤ x ∧ x ≤ hi := by simp [inNat]

/-- Without a failing item the counts and the timeouts of a CONFIGURE body are in their ranges (R18). -/
theorem configureFault_none {body : List Byte} (h : configureFault body = none) :
    (2 ≤ rd8 body 0 ∧ rd8 body 0 ≤ 15) ∧ (20 ≤ rd8 body 1 ∧ rd8 body 1 ≤ 250) ∧
      ∀ c : Chan, 1 ≤ rd8 body (18 + c.val) ∧ rd8 body (18 + c.val) ≤ 255 := by
  unfold configureFault at h
  split at h
  · cases h
  rename_i hshort
  split at h
  · cases h
  rename_i hlong
  split at h
  · cases h
  · rw [Option.map_eq_none_iff, List.find?_eq_none] at h
    refine ⟨(inNat_iff _ _ _).mp (by simpa using hshort), (inNat_iff _ _ _).mp (by simpa using hlong), fun c => ?_⟩
    exact (inNat_iff _ _ _).mp (by simpa using h c (List.mem_finRange c))

/-- Without a failing item no item of SET_ACTIONS names a fixed row (R152). -/
theorem actionsFault_none {items : List (Nat × Nat)} (h : actionsFault items = none) :
    ∀ p ∈ items, 3 ≤ p.1 ∧ p.1 ≤ 11 := by
  rw [actionsFault, Option.map_eq_none_iff, List.find?_eq_none] at h
  intro p hp
  obtain ⟨i, hi, rfl⟩ := List.getElem_of_mem hp
  have hbad := h i (List.mem_range.mpr hi)
  simp only [actionItemBad, List.getElem?_eq_getElem hi, Bool.or_eq_true, decide_eq_true_eq, not_or] at hbad
  omega

/-- Without a failing item the count of a stream is 1 to 8 (R183). -/
theorem reportsFault_none {body : List Byte} (h : reportsFault body = none) (i : StreamId) :
    1 ≤ rd8 body (streamAt i + 1) ∧ rd8 body (streamAt i + 1) ≤ 8 := by
  unfold reportsFault at h
  split at h
  · cases h
  · rw [List.findSome?_eq_none_iff] at h
    have hstream := h i (by revert i; decide)
    rw [Option.map_eq_none_iff] at hstream
    exact (inNat_iff _ _ _).mp (firstFail_none hstream _ (List.mem_cons_of_mem _ List.mem_cons_self))

/-- A stream in its ranges, its timer running exactly while it is enabled (R182). -/
def StreamFits (t : Stream) : Prop :=
  (10 ≤ t.period ∧ t.period ≤ 10000) ∧ (1 ≤ t.chans.length ∧ t.chans.length ≤ 8) ∧
    (t.timer ≠ none ↔ t.enabled = true)

theorem rdStream_fits (body : List Byte) (o : Nat) (hcount : 1 ≤ rd8 body (o + 1) ∧ rd8 body (o + 1) ≤ 8)
    (hlen : o + 10 ≤ body.length) : StreamFits (rdStream body o) := by
  refine ⟨?_, ?_, ?_⟩
  · simp only [rdStream]
    omega
  · simp only [rdStream, rdStreamChans, List.length_map, List.length_take, List.length_drop]
    omega
  · simp only [rdStream]
    cases rd8 body o == 1 <;> simp

/-- The configuration's own part of `ConfigOk` (R17, R152). -/
def ConfigFits (c : ConfigRecord) : Prop :=
  2 ≤ c.shortCount ∧ c.shortCount ≤ 15 ∧ 20 ≤ c.longCount ∧ c.longCount ≤ 250 ∧
    (∀ ch, 1 ≤ vget c.freshness ch ∧ vget c.freshness ch ≤ 255) ∧
    ∀ n : Fin 12, n.val ≤ 2 → vget c.actions n = .millStop

theorem configOk_iff (s : State) :
    ConfigOk s ↔ ConfigFits s.sch.config ∧ ∀ i, StreamFits (vget s.hlk.streams i) := by
  simp only [ConfigOk, ConfigFits, StreamFits, and_assoc]

theorem configFits_configured (body : List Byte) (c : ConfigRecord) (hfault : configureFault body = none)
    (h : ConfigFits c) : ConfigFits (configured body c) := by
  obtain ⟨-, -, -, -, -, hfixed⟩ := h
  obtain ⟨⟨hs, hs'⟩, ⟨hl, hl'⟩, htimeouts⟩ := configureFault_none hfault
  exact ⟨hs, hs', hl, hl', fun ch => by simpa [configured] using htimeouts ch, hfixed⟩

theorem configFits_actionsWritten (items : List (Nat × Nat)) (c : ConfigRecord) (hfault : actionsFault items = none)
    (h : ConfigFits c) : ConfigFits { c with actions := actionsWritten items c.actions } := by
  obtain ⟨hs, hs', hl, hl', hf, hfixed⟩ := h
  refine ⟨hs, hs', hl, hl', hf, fun n hn => ?_⟩
  have hnone : items.find? (fun p => p.1 == n.val) = none := by
    rw [List.find?_eq_none]
    intro p hp
    have hrow := actionsFault_none hfault p hp
    rw [beq_iff_eq]
    omega
  simp only [actionsWritten, vget_vtab, hnone, Option.bind_none]
  exact hfixed n hn

/-- A running timer replaced by another keeps a stream in its ranges. -/
theorem streamFits_retimed {t : Stream} (timer : Option Nat) (h : StreamFits t) (htimer : timer ≠ none ↔ t.timer ≠ none) :
    StreamFits { t with timer := timer } := by
  obtain ⟨hperiod, hchans, hrunning⟩ := h
  exact ⟨hperiod, hchans, htimer.trans hrunning⟩

theorem keeps_configOk : Kept ConfigOk where
  stream i s hdue h := by
    rw [configOk_iff] at h ⊢
    obtain ⟨hconfig, hstreams⟩ := h
    refine ⟨hconfig, fun j => ?_⟩
    rw [withHlk_hlk, vget_vset]
    split
    · exact streamFits_retimed _ (hstreams i) (by simp [hdue])
    · exact hstreams j
  configure body _ hfault h := by
    rw [configOk_iff] at h ⊢
    exact ⟨configFits_configured body _ hfault h.1, h.2⟩
  actions body _ hfault h := by
    rw [configOk_iff] at h ⊢
    exact ⟨configFits_actionsWritten _ _ hfault h.1, h.2⟩
  reports body _ hlen hfault h := by
    rw [configOk_iff] at h ⊢
    refine ⟨h.1, fun i => ?_⟩
    have hi := i.isLt
    rw [withHlk_hlk, vget_vtab]
    exact rdStream_fits body _ (reportsFault_none hfault i) (by unfold streamAt; omega)
  count {s} h := by
    rw [configOk_iff] at h ⊢
    refine ⟨h.1, fun i => ?_⟩
    have hstream : vget (countDown s).hlk.streams i =
        { vget s.hlk.streams i with timer := countTimer (vget s.hlk.streams i).timer } := vget_vtab _ _
    rw [hstream]
    exact streamFits_retimed _ (h.2 i) (by simp [countTimer])

/-! ## Capacities -/

theorem capacityOk_setSpan (j : SpanId) (q : List Segment) (s : State) (hq : q.length ≤ 24) (h : CapacityOk s) :
    CapacityOk (s.setSpan j q) := by
  obtain ⟨hspans, hrest⟩ := h
  refine ⟨fun i => ?_, hrest⟩
  rw [setSpan_span]
  split
  · exact hq
  · exact hspans i

theorem keeps_capacityOk : Kept CapacityOk where
  pop j g rest s hspan h := by
    have hfull := h.1 j
    rw [hspan, List.length_cons] at hfull
    exact capacityOk_setSpan j rest s (by omega) h
  push j g s hroom h := by
    have hlen : (s.span j).length < 24 := by
      obtain hroom | ⟨t, ht, hlt⟩ := hroom
      · exact hroom
      · exact hlt.trans_le (ht.1 j)
    exact capacityOk_setSpan j _ s (by rw [List.length_append, List.length_singleton]; omega) h
  emptySpan j s h := capacityOk_setSpan j [] s (Nat.zero_le _) h
  ring g s h := by
    obtain ⟨hspans, hring, hseg⟩ := h
    exact ⟨hspans, enterRing_length _ g hring, hseg⟩
  allocate k s h := by
    obtain ⟨hspans, hring, -⟩ := h
    exact ⟨hspans, hring, succ65535_range _⟩
  restartTracker {s} h := by
    obtain ⟨-, -, hseg⟩ := h
    have hspan (j : SpanId) : (s.withStk s.stk.softReset).span j = [] := vget_replicate _ _
    exact ⟨fun j => by simp [hspan], Nat.zero_le _, hseg⟩

/-! ## The inputs and the capacities together -/

/-- What O60 says every step keeps. -/
def InputsOk (s : State) : Prop := PresenceOk s ∧ ChannelsOk s ∧ AssemblersOk s ∧ ConfigOk s ∧ CapacityOk s

theorem move_inputsOk {s t : State} (m : Move s t) (h : InputsOk s) : InputsOk t := by
  obtain ⟨hpresence, hchannels, hassemblers, hconfig, hcapacity⟩ := h
  exact ⟨keeps_presenceOk.after_move m hpresence, keeps_channelsOk.after_move m hchannels,
    keeps_assemblersOk.after_move m hassemblers, keeps_configOk.after_move m hconfig,
    keeps_capacityOk.after_move m hcapacity⟩

/-- A part whose blocks stand at their power-on values has its inputs in order (R17, R28, R54, R84, R182). -/
theorem inputsOk_cleared (s : State) (hplu : s.plu = PresenceUnit.cleared)
    (hmch : s.mch = Vector.replicate 32 Channel.cleared) (hasm : s.flc.asm = .hunting) (hrx : s.hlk.rx = .hunting)
    (hconfig : s.sch.config = ConfigRecord.default) (hstreams : s.hlk.streams = Vector.replicate 4 Stream.cleared)
    (hstk : s.stk = Tracker.cleared) : InputsOk s := by
  have hfilter (i : FilterId) : s.filter i = Filter.cleared := by
    cases i <;> simp [State.filter, hplu, PresenceUnit.cleared]
  have hpres (k : Stand) : s.presence k = { state := .absent, measurer := 0 } := by
    simp [State.presence, hplu, PresenceUnit.cleared]
  refine ⟨⟨fun k => ?_, fun k _ => ?_, fun i => ?_⟩, fun c => ?_, ⟨fun held h => ?_, fun len held h => ?_⟩, ?_, ?_⟩
  · simp [hpres, hfilter, Filter.cleared]
  · rw [hpres]
  · rw [hfilter]
    exact fun h => absurd h Bool.false_ne_true
  · show ChannelFits (s.chan c)
    rw [State.chan, hmch, vget_replicate]
    simp [ChannelFits, Channel.cleared]
  · rw [hasm] at h
    cases h
  · rw [hrx] at h
    cases h
  · rw [configOk_iff, hconfig, hstreams]
    refine ⟨⟨by decide, by decide, by decide, by decide, fun c => ?_, by decide⟩, fun i => ?_⟩
    · simp [ConfigRecord.default]
    · simp [StreamFits, Stream.cleared]
  · have hspan (j : SpanId) : s.span j = [] := by simp [State.span, hstk, Tracker.cleared]
    refine ⟨fun j => by simp [hspan], ?_, ?_, ?_⟩ <;> rw [hstk] <;> decide

/-- Settles O60: each of the five parts is kept by every change, and a reset leaves the power-on values. -/
theorem stepKeepsInputs : Obligations.StepKeepsInputs := by
  intro s t hpresence hchannels hassemblers hconfig hcapacity hstep
  refine step_keeps (P := InputsOk) (fun _ _ h => h) (fun r s _ => inputsOk_cleared _ rfl rfl rfl rfl rfl rfl rfl)
    (fun straps s => ?_) (fun _ m h => move_inputsOk m h) ⟨hpresence, hchannels, hassemblers, hconfig, hcapacity⟩ hstep
  rw [release_eq]
  exact inputsOk_cleared _ rfl rfl rfl rfl rfl rfl rfl

end Sys2Proof.Machine
end

section
/-! PROOFS. The end of an event where no request waits, and the commands that touch the timers, the assemblers, the length
counts and the detectors' dropouts: O7, O9, O12, O15, O16, O26. -/

namespace Sys2Proof.Machine

/-! ## The end of an event -/

/-- The end of an event of a running part that composed no reply and held no request: behind a frame in transmission nothing
happens, and else the host link alone changes (R174). -/
theorem endEvent_after {s t : State} (hline : LineOk s) (htx : t.hlk.tx = s.hlk.tx) (hheld : t.hlk.held = s.hlk.held) :
    ∃ l, endEvent t = t.withHlk l ∧ (s.hlk.tx ≠ none → l = t.hlk) := by
  by_cases hidle : s.hlk.tx = none
  · obtain ⟨l, e⟩ := endEvent_changes_hlk t fun _ => hheld.trans (not_held_of_idle s hline hidle)
    exact ⟨l, e, fun h => absurd hidle h⟩
  · exact ⟨t.hlk, endEvent_busy t (htx ▸ hidle), fun _ => rfl⟩

/-- The end of an event that left the host link alone changes nothing (R174). -/
theorem endEvent_of_same_hlk {s t : State} (hline : LineOk s) (h : t.hlk = s.hlk) : endEvent t = t :=
  endEvent_of_lineOk t (by rw [LineOk, h]; exact hline)

/-! ## Interval timers -/

/-- Settles O26: each expiry is its own test of its timer. -/
theorem intervalTimers : Obligations.IntervalTimers := by
  intro k s hrun
  exact ⟨event_of_not_inReset (nonOverlapExpiry k) s hrun, event_of_not_inReset (equalizeExpiry k) s hrun⟩

/-! ## A tick with nothing due -/

theorem foldl_fixed {β : Type} (f : State → β → State) (l : List β) (s : State) (h : ∀ b, f s b = s) : l.foldl f s = s := by
  induction l with
  | nil => rfl
  | cons b l ih => rw [List.foldl_cons, h b, ih]

/-- Where nothing is due a tick takes nothing before it (log 2). -/
theorem takeDue_of_nothingDue (s : State) (h : NothingDue s) : takeDue s = s := by
  obtain ⟨hfilter, hchan, hgap, hoverlap, hequalize, hhandover, hstream⟩ := h
  unfold takeDue
  dsimp only
  rw [foldl_fixed _ _ s fun i => if_neg (by simp [hfilter i]), foldl_fixed _ _ s fun c => if_neg (by simp [hchan c]),
    eachStand_fixed updateExpiry s fun k => if_neg (hgap k),
    eachStand_fixed nonOverlapExpiry s fun k => if_neg (hoverlap k),
    eachStand_fixed equalizeExpiry s fun k => if_neg (hequalize k), eachStand_fixed handoverExpiry s fun k => ?_]
  · exact foldl_fixed _ _ s fun i => if_neg (hstream i)
  · unfold handoverExpiry
    split
    · rename_i h hpending
      exact if_neg (hhandover k h hpending)
    · rfl

theorem exec_tick (pins : InputPins) (s : State) (hrun : s.inReset = false) :
    exec (.tick pins) s = .next (if s.plu.settled then runTick pins s else settle pins s) :=
  event_of_not_inReset (fun s => if s.plu.settled then runTick pins s else settle pins s) s hrun

/-- The class count of a filter (R42). -/
def classCount (s : State) (i : FilterId) : Nat :=
  match i with
  | .panel _ => s.sch.config.longCount
  | _ => s.sch.config.shortCount

/-- Each filter takes a sample of its pin at its class count (R42). -/
theorem sampleFilters_filter_eq (pins : InputPins) (s : State) (i : FilterId) :
    (sampleFilters pins s).filter i = (s.filter i).sample (pinActive pins i) (classCount s i) := by
  cases i <;> exact vget_vtab _ _

/-- Settles O7: with nothing due the tick is the count-down and the sampling, each a table of its own entries. -/
theorem tickCountsAndSamples : Obligations.TickCountsAndSamples := by
  intro pins s hrun hsettled hdue
  have hexec : exec (.tick pins) s = .next (sampleFilters pins (countDown s)) := by
    rw [exec_tick pins s hrun, if_pos hsettled, runTick, takeDue_of_nothingDue s hdue]
  refine ⟨_, hexec, rfl, fun c => ?_, fun k => vget_vtab _ k, fun k => vget_vtab _ k, fun i => vget_vtab _ i, fun i => ?_,
    rfl, rfl, rfl, rfl, rfl, rfl, rfl, rfl, rfl, rfl, rfl, rfl⟩
  · refine (vget_vtab _ c).trans ?_
    unfold Channel.countDown
    split <;> rfl
  · rw [sampleFilters_filter_eq]
    rfl

/-! ## Encoder pulses that complete nothing -/

theorem exec_encoderPulse (k : Stand) (edge : PulseEdge) (s : State) (hrun : s.inReset = false) :
    exec (.encoderPulse k edge) s = .next (if forwardPulse edge then endEvent (forwardAt k s) else s) :=
  event_of_not_inReset _ s hrun

/-- A pulse counts exactly where the direction pin is high and its edge is resolved (R44, R194). -/
theorem forwardPulse_iff (edge : PulseEdge) : forwardPulse edge = true ↔ edge.dir = true ∧ 200 ≤ edge.sinceNs := by
  simp [forwardPulse, pulseResolved]

/-- A forward pulse of a part that does not hold a reset (R44). -/
theorem exec_encoderPulse_forward (k : Stand) (edge : PulseEdge) (s : State) (hrun : s.inReset = false)
    (hdir : edge.dir = true) (hns : 200 ≤ edge.sinceNs) :
    exec (.encoderPulse k edge) s = .next (endEvent (forwardAt k s)) := by
  rw [exec_encoderPulse k edge s hrun, if_pos ((forwardPulse_iff edge).mpr ⟨hdir, hns⟩)]

/-- Without a record the accumulator takes nothing (R3, R44). -/
theorem accumulate_of_none (k : Stand) (s : State) (h : s.record k = none) : accumulate k s = s := by
  simp [accumulate, h]

/-- Short of a segment length the accumulator alone advances (R44). -/
theorem accumulate_of_short (k : Stand) (r : StandRecord) (s : State) (h : s.record k = some r)
    (hshort : vget s.plu.acc k + r.e < r.lSeg * 1000000) :
    accumulate k s = s.withPlu { s.plu with acc := vset s.plu.acc k (vget s.plu.acc k + r.e) } := by
  simp only [accumulate, h]
  exact if_neg (by omega)

/-- A pulse that completes a segment is a bite advance (R44, R45). -/
theorem accumulate_of_full (k : Stand) (r : StandRecord) (s : State) (h : s.record k = some r)
    (hfull : r.lSeg * 1000000 ≤ vget s.plu.acc k + r.e) :
    accumulate k s =
      biteAdvance k
        (s.withPlu { s.plu with acc := vset s.plu.acc k (vget s.plu.acc k + r.e - r.lSeg * 1000000) }) := by
  simp only [accumulate, h]
  exact if_pos hfull

/-- Outside a dropout the measurer takes nothing (R51). -/
theorem measure_of_not_dropout (k : Stand) (r : Option StandRecord) (s : State) (h : (s.presence k).state ≠ .dropout) :
    measure k r s = s := if_neg h

/-- In a dropout the measurer advances short of the confirmation length (R51). -/
theorem measure_of_short (k : Stand) (r : Option StandRecord) (s : State) (h : (s.presence k).state = .dropout)
    (hshort : (s.presence k).measurer + (measuring r).1 < (measuring r).2) :
    measure k r s = s.modPresence k fun p => { p with measurer := (s.presence k).measurer + (measuring r).1 } := by
  unfold measure
  rw [if_pos h]
  exact if_neg (by omega)

/-- At the confirmation length the tail is confirmed (R51). -/
theorem measure_of_full (k : Stand) (r : Option StandRecord) (s : State) (h : (s.presence k).state = .dropout)
    (hfull : (measuring r).2 ≤ (s.presence k).measurer + (measuring r).1) : measure k r s = tailConfirmed k s := by
  unfold measure
  rw [if_pos h]
  exact if_pos hfull

/-- A forward pulse that leaves the host link alone ends with what it makes (R44, R174). -/
theorem exec_encoderPulse_of_forwardAt {k : Stand} {edge : PulseEdge} {s t : State} (hrun : Running s)
    (hdir : edge.dir = true) (hns : 200 ≤ edge.sinceNs) (h : forwardAt k s = t) (ht : t.hlk = s.hlk) :
    exec (.encoderPulse k edge) s = .next t := by
  obtain ⟨hreset, hline⟩ := hrun
  rw [exec_encoderPulse_forward k edge s hreset hdir hns, h, endEvent_of_same_hlk hline ht]

/-- Settles O12: the accumulator and the measurer each read their own case, and neither touches the host line. -/
theorem encoderPulseMeasures : Obligations.EncoderPulseMeasures := by
  intro k edge s hrun
  refine ⟨fun hlost => ?_, fun hdir hns hpres => ⟨fun hrec => ?_, fun r hrec hshort => ?_⟩,
    fun hdir hns hpres => ⟨fun hrec hmeas => ?_, fun r hrec hshort hmeas => ?_⟩⟩
  · rw [exec_encoderPulse k edge s hrun.1, if_neg]
    rw [forwardPulse_iff]
    obtain h | h := hlost
    · simp [h]
    · omega
  · refine exec_encoderPulse_of_forwardAt hrun hdir hns ?_ rfl
    rw [forwardAt, accumulate_of_none k s hrec, measure_of_not_dropout k _ s hpres]
  · refine exec_encoderPulse_of_forwardAt hrun hdir hns ?_ rfl
    rw [forwardAt, accumulate_of_short k r s hrec hshort]
    exact measure_of_not_dropout k _ _ hpres
  · refine exec_encoderPulse_of_forwardAt hrun hdir hns ?_ rfl
    rw [forwardAt, accumulate_of_none k s hrec, hrec, measure_of_short k none s hpres hmeas]
    simp only [State.modPresence, hpres]
    rfl
  · refine exec_encoderPulse_of_forwardAt hrun hdir hns ?_ rfl
    rw [forwardAt, accumulate_of_short k r s hrec hshort, hrec]
    have hmeas' : (s.presence k).measurer + (measuring (some r)).1 < (measuring (some r)).2 := hmeas
    refine (measure_of_short k (some r) (s.withPlu { s.plu with acc := vset s.plu.acc k (vget s.plu.acc k + r.e) }) hpres
      hmeas').trans ?_
    have hpres' : (vget s.plu.pres k).state = .dropout := hpres
    simp only [State.modPresence, State.withPlu, State.presence, hpres']
    rfl

/-! ## Dropouts -/

theorem exec_filterAccept_due (i : FilterId) (s : State) (hrun : s.inReset = false) (hdue : (s.filter i).due = true) :
    exec (.filterAccept i) s = .next (endEvent (acceptFilter i s)) := by
  show event (filterAccept i) s = _
  rw [event_of_not_inReset _ s hrun, filterAccept, if_pos hdue]

theorem exec_filterAccept_not_due (i : FilterId) (s : State) (hrun : s.inReset = false) (hdue : (s.filter i).due = false) :
    exec (.filterAccept i) s = .next s := by
  show event (filterAccept i) s = _
  rw [event_of_not_inReset _ s hrun, filterAccept, if_neg (by simp [hdue])]

/-- The filter of a detector settled at the level its pin shows. -/
def takeLevel (k : Stand) (level : Bool) (s : State) : State :=
  s.setFilter (.hmd k) { level := level, count := 0, due := false }

theorem takeLevel_presence (k j : Stand) (level : Bool) (s : State) : (takeLevel k level s).presence j = s.presence j := rfl

theorem acceptFilter_hmd_on (k : Stand) (s : State) (h : pinActive s.plu.pins (.hmd k) = true) :
    acceptFilter (.hmd k) s = hmdOn k (takeLevel k true s) := by
  simp [acceptFilter, filteredChange, h, takeLevel]

theorem acceptFilter_hmd_off (k : Stand) (s : State) (h : pinActive s.plu.pins (.hmd k) = false) :
    acceptFilter (.hmd k) s = hmdOff k (takeLevel k false s) := by
  simp [acceptFilter, filteredChange, h, takeLevel]

/-- Settles O9: each change of the detector's level meets its one row of the presence logic's table. -/
theorem dropoutStartsAndEnds : Obligations.DropoutStartsAndEnds := by
  intro k s hrun hdue
  obtain ⟨hreset, hline⟩ := hrun
  rw [exec_filterAccept_due _ s hreset hdue]
  constructor
  · intro hpres hpin
    rw [acceptFilter_hmd_off k s hpin, hmdOff, takeLevel_presence, hpres]
    exact congrArg _ (endEvent_of_same_hlk hline rfl)
  · intro hpres hpin
    rw [acceptFilter_hmd_on k s hpin, hmdOn, takeLevel_presence, hpres]
    exact congrArg _ (endEvent_of_same_hlk hline rfl)

/-! ## The assemblers -/

/-- The byte that bit times spell, where a start bit opens them (R20, R167). -/
theorem lineByte_of_low (line : LineBits) (stop : Bool) (b : Byte) (hlow : line.getLsbD 0 = false)
    (hb : ∀ i, i < 8 → b.getLsbD i = line.getLsbD (i + 1)) : lineByte line stop = some (b, !stop) := by
  have hbyte : line.extractLsb' 1 8 = b := by
    refine BitVec.eq_of_getLsbD_eq fun i hi => ?_
    rw [hb i hi, BitVec.getLsbD_extractLsb', Nat.add_comm]
    simp [hi]
  have hstart : ¬line.getLsb 0 = true := by rw [show line.getLsb 0 = false from hlow]; simp
  rw [lineByte, if_neg hstart, hbyte]

theorem exec_fieldByteReceived (line : LineBits) (stop : Bool) (s : State) (hrun : s.inReset = false) :
    exec (.fieldByteReceived line stop) s =
      .next ((lineByte line stop).elim s fun r => takeFieldByte r.1 r.2 s) :=
  event_of_not_inReset (fun s => (lineByte line stop).elim s fun r => takeFieldByte r.1 r.2 s) s hrun

theorem exec_hostByteReceived (line : LineBits) (stop : Bool) (s : State) (hrun : s.inReset = false) :
    exec (.hostByteReceived line stop) s = .next ((lineByte line stop).elim s fun r => takeHostByte r.1 r.2 s) :=
  event_of_not_inReset (fun s => (lineByte line stop).elim s fun r => takeHostByte r.1 r.2 s) s hrun

/-- The field-in assembler replaced. -/
def State.withAsm (s : State) (a : FieldAssembler) : State := { s with flc := { s.flc with asm := a } }

/-- The receive assembler replaced. -/
def State.withRx (s : State) (a : RxAssembler) : State := { s with hlk := { s.hlk with rx := a } }

/-- A byte that completes no field frame changes the assembler alone (R21). -/
theorem takeFieldByte_of_no_frame {b : Byte} {fe : Bool} {s : State} {a : FieldAssembler}
    (h : s.flc.asm.take b fe = (a, none)) : takeFieldByte b fe s = s.withAsm a := by
  simp only [takeFieldByte, h]
  rfl

/-- A byte that completes no host frame changes the assembler alone (R169). -/
theorem takeHostByte_of_no_frame {b : Byte} {fe : Bool} {s : State} {a : RxAssembler}
    (h : s.hlk.rx.take b fe = (a, none)) : takeHostByte b fe s = s.withRx a := by
  simp only [takeHostByte, h]
  rfl

/-- Settles O15: bit times with a start bit are one byte, which each assembler takes by the row of its table. -/
theorem assemblersTakeBytes : Obligations.AssemblersTakeBytes := by
  intro line stop b fe s hrun hb hfe
  refine ⟨fun hhigh => ?_, fun hlow => ?_,
    event_of_not_inReset (fun s => s.withFlc { s.flc with asm := .hunting }) s hrun,
    event_of_not_inReset (fun s => s.withHlk { s.hlk with rx := .hunting }) s hrun⟩
  · have hnone : lineByte line stop = none := lineByte_of_high line stop hhigh
    rw [exec_fieldByteReceived line stop s hrun, exec_hostByteReceived line stop s hrun, hnone]
    exact ⟨rfl, rfl⟩
  · have hsome : lineByte line stop = some (b, fe) := hfe ▸ lineByte_of_low line stop b hlow hb
    have hfield {a : FieldAssembler} (h : s.flc.asm.take b fe = (a, none)) :
        exec (.fieldByteReceived line stop) s = .next (s.withAsm a) := by
      rw [exec_fieldByteReceived line stop s hrun, hsome]
      exact congrArg _ (takeFieldByte_of_no_frame h)
    have hhost {a : RxAssembler} (h : s.hlk.rx.take b fe = (a, none)) :
        exec (.hostByteReceived line stop) s = .next (s.withRx a) := by
      rw [exec_hostByteReceived line stop s hrun, hsome]
      exact congrArg _ (takeHostByte_of_no_frame h)
    refine ⟨fun hasm => hfield ?_, fun held hasm => ⟨fun hbad => hfield ?_, fun hgood hshort => hfield ?_⟩,
      fun hrx => hhost ?_, fun hrx => hhost ?_, fun len held hrx => ⟨fun hbad => hhost ?_, fun hgood hshort => hhost ?_⟩⟩
    · rw [hasm, FieldAssembler.take]
      cases fe <;> by_cases hstart : b = 0x5A#8 <;> simp [hstart]
    · simp [hasm, FieldAssembler.take, hbad]
    · simp [hasm, FieldAssembler.take, hgood, hshort]
    · rw [hrx, RxAssembler.take]
      cases fe <;> by_cases hstart : b = 0xA5#8 <;> simp [hstart]
    · rw [hrx, RxAssembler.take]
      cases fe <;> by_cases hlen : 2 ≤ b.toNat ∧ b.toNat ≤ 250 <;> simp [inNat, hlen]
    · simp [hrx, RxAssembler.take, hbad]
    · simp [hrx, RxAssembler.take, hgood, hshort]

/-! ## The nine bytes of a field frame -/

theorem receiveField_cons (b : Byte) (rest : List Byte) (s : State) (hrun : s.inReset = false) :
    receiveField (b :: rest) s = receiveField rest (takeFieldByte b false s) := by
  have h : exec (.fieldByteReceived (lineBits b) true) s = .next (takeFieldByte b false s) :=
    (execFieldByteReceived_lineBits b true s).trans (event_of_not_inReset _ s hrun)
  simp only [receiveField, h]

/-- Bytes received behind those held, short of a whole frame, are held too (R21). -/
theorem receiveField_collecting (more held last : List Byte) (s : State) (hrun : s.inReset = false)
    (hasm : s.flc.asm = .collecting held) (hshort : held.length + more.length ≤ 8) :
    receiveField (more ++ last) s = receiveField last (s.withAsm (.collecting (held ++ more))) := by
  induction more generalizing held s with
  | nil =>
    rw [List.append_nil, ← hasm]
    rfl
  | cons b more ih =>
    rw [List.length_cons] at hshort
    have htake : s.flc.asm.take b false = (.collecting (held ++ [b]), none) := by
      simp only [hasm, FieldAssembler.take]
      simp; omega
    rw [List.cons_append, receiveField_cons b _ s hrun, takeFieldByte_of_no_frame htake]
    rw [ih (held ++ [b]) (s.withAsm (.collecting (held ++ [b]))) hrun rfl (by simp; omega), List.append_assoc]
    rfl

/-- While a reset is held no byte is taken (R193). -/
theorem receiveField_held (frame : List Byte) (s : State) (hheld : s.inReset = true) : receiveField frame s = .next s := by
  induction frame with
  | nil => rfl
  | cons b rest ih =>
    have h : exec (.fieldByteReceived (lineBits b) true) s = .next s :=
      (execFieldByteReceived_lineBits b true s).trans (event_held (takeFieldByte b false) s hheld)
    rw [receiveField, h]
    exact ih

/-- Settles O16: the first byte opens the frame, the next seven are held behind it, and the ninth passes the nine on with the
assembler HUNTING as it was. -/
theorem fieldBytesMakeFrame : Obligations.FieldBytesMakeFrame := by
  intro frame s hlen hhead hasm
  by_cases hheld : s.inReset = true
  · rw [receiveField_held frame s hheld]
    exact (event_held _ s hheld).symm
  have hrun : s.inReset = false := by simpa using hheld
  obtain ⟨rest, rfl⟩ : ∃ rest, frame = 0x5A :: rest := by
    cases frame with
    | nil => simp at hhead
    | cons b rest => exact ⟨rest, by simpa using hhead⟩
  obtain ⟨more, last, rfl⟩ : ∃ more last, rest = more ++ [last] :=
    ⟨rest.dropLast, rest.getLast (by rintro rfl; simp at hlen), (List.dropLast_append_getLast _).symm⟩
  have hmore : more.length = 7 := by simpa using hlen
  have hopen : s.flc.asm.take 0x5A false = (.collecting [0x5A], none) := by
    rw [hasm]
    rfl
  have hlast (u : State) (hu : u.flc.asm = .collecting ([0x5A] ++ more)) :
      takeFieldByte last false u =
        fieldFrameEvent (0x5A :: (more ++ [last])) (u.withAsm .hunting) := by
    simp only [takeFieldByte, hu, FieldAssembler.take]
    simp [hmore]
    rfl
  have hback : s.withAsm .hunting = s := by
    rw [State.withAsm, ← hasm]
  calc receiveField (0x5A :: (more ++ [last])) s
      = receiveField (more ++ [last]) (s.withAsm (.collecting [0x5A])) := by
        rw [receiveField_cons _ _ s hrun, takeFieldByte_of_no_frame hopen]
    _ = receiveField [last] (s.withAsm (.collecting ([0x5A] ++ more))) :=
        receiveField_collecting more [0x5A] [last] _ hrun rfl (by simp [hmore])
    _ = .next (fieldFrameEvent (0x5A :: (more ++ [last])) (s.withAsm .hunting)) := by
        rw [receiveField_cons last [] (s.withAsm (.collecting ([0x5A] ++ more))) hrun, hlast _ rfl, receiveField]
        rfl
    _ = .next (fieldFrameEvent (0x5A :: (more ++ [last])) s) := by rw [hback]
    _ = _ := (event_of_not_inReset (fieldFrameEvent (0x5A :: (more ++ [last]))) s hrun).symm

end Sys2Proof.Machine
end

section
/-! PROOFS. Frames on the lines: the levels of a frame bit time by bit time, and a setpoint frame read back (O18). -/

namespace Sys2Proof.Machine

/-! ## Lists of equal blocks -/

/-- Blocks of one length laid end to end: past the first `i` of them the others begin. -/
theorem drop_blocks {α β : Type} (f : α → List β) (n : Nat) (hf : ∀ a, (f a).length = n) (l : List α) (i : Nat) :
    ((l.map f).flatten).drop (n * i) = ((l.drop i).map f).flatten := by
  induction i generalizing l with
  | zero => simp
  | succ i ih =>
    cases l with
    | nil => simp
    | cons a l =>
      rw [List.map_cons, List.flatten_cons, Nat.mul_succ, Nat.add_comm, ← List.drop_drop, List.drop_left' (hf a), ih l,
        List.drop_succ_cons]

/-- Past the first `i` of blocks of one length stands the next one. -/
theorem drop_blocks_of_getElem {α β : Type} (f : α → List β) (n : Nat) (hf : ∀ a, (f a).length = n) (l : List α) (i : Nat)
    (a : α) (ha : l[i]? = some a) :
    ((l.map f).flatten).drop (n * i) = f a ++ ((l.drop (i + 1)).map f).flatten := by
  obtain ⟨hi, rfl⟩ := List.getElem?_eq_some_iff.mp ha
  rw [drop_blocks f n hf l i, List.drop_eq_getElem_cons hi]
  rfl

/-- An entry of blocks of one length is that entry of its block. -/
theorem getElem?_blocks {α β : Type} (f : α → List β) (n : Nat) (hf : ∀ a, (f a).length = n) (l : List α) (i j : Nat)
    (a : α) (ha : l[i]? = some a) (hj : j < n) : ((l.map f).flatten)[n * i + j]? = (f a)[j]? := by
  rw [← List.getElem?_drop, drop_blocks_of_getElem f n hf l i a ha, List.getElem?_append_left (by rw [hf]; exact hj)]

/-! ## Bit times -/

/-- The start bit of a byte is low, its data bits follow least significant first, and its stop bit is high (R20, R167). -/
theorem byteLevels_bits (b : Byte) :
    (byteLevels b)[0]? = some false ∧ (byteLevels b)[9]? = some true ∧
      ∀ j, j < 8 → (byteLevels b)[1 + j]? = some (b.getLsbD j) := by
  have h : ∀ b : Byte, (byteLevels b)[0]? = some false ∧ (byteLevels b)[9]? = some true ∧
      ∀ j : Fin 8, (byteLevels b)[1 + j.val]? = some (b.getLsbD j.val) := by decide +kernel
  obtain ⟨hstart, hstop, hdata⟩ := h b
  exact ⟨hstart, hstop, fun j hj => hdata ⟨j, hj⟩⟩

/-- In the bit times of a frame's byte the pin is driven to the byte's levels (R20, R167). -/
theorem transmitLevel_byte (bytes : List Byte) (i j : Nat) (b : Byte) (x : Bool) (hb : bytes[i]? = some b) (hj : j < 10)
    (hx : (byteLevels b)[j]? = some x) : transmitLevel (some bytes) (10 * i + j) = driven x := by
  have h := getElem?_blocks byteLevels 10 byteLevels_length bytes i j b hb hj
  simp only [transmitLevel, Option.getD_some, List.getD_eq_getElem?_getD, frameLevels, h, hx]

/-- A frame in transmission: behind its bytes the pin is high, and each byte takes ten bit times back to back, a low start
bit, its bits least significant first, and a high stop bit (R20, R167). -/
theorem transmitLevel_frame (bytes : List Byte) :
    (∀ n, 10 * bytes.length ≤ n → transmitLevel (some bytes) n = .high) ∧
      ∀ i b, bytes[i]? = some b →
        transmitLevel (some bytes) (10 * i) = .low ∧ transmitLevel (some bytes) (10 * i + 9) = .high ∧
          ∀ j, j < 8 → transmitLevel (some bytes) (10 * i + 1 + j) = if b.getLsbD j = true then .high else .low := by
  constructor
  · intro n hn
    have h : (frameLevels bytes)[n]? = none := List.getElem?_eq_none (by rw [frameLevels_length]; exact hn)
    simp [transmitLevel, List.getD_eq_getElem?_getD, h, driven]
  · intro i b hb
    obtain ⟨hstart, hstop, hdata⟩ := byteLevels_bits b
    refine ⟨transmitLevel_byte bytes i 0 b false hb (by omega) hstart,
      transmitLevel_byte bytes i 9 b true hb (by omega) hstop, fun j hj => ?_⟩
    rw [Nat.add_assoc]
    exact transmitLevel_byte bytes i (1 + j) b _ hb (by omega) (hdata j hj)

/-- On an idle line the pin is high (R20, R167). -/
theorem transmitLevel_none (n : Nat) : transmitLevel none n = .high := rfl

/-! ## Setpoint frames -/

theorem modeCode_le (m : Mode) : modeCode m ≤ 3 := by cases m <;> simp [modeCode]

/-- The value field of a setpoint frame holds the mode above 20 bits and the gap's two's complement in them (R187). -/
theorem setpointValue_lt (p : Setpoint) : setpointValue p < 16777216 := by
  have := modeCode_le p.mode
  unfold setpointValue
  omega

/-- The CRC bytes read back as the CRC (R168). -/
theorem rd16_crcBytes (l : List Byte) : rd16 (crcBytes l) 0 = (crc16 l).toNat := by
  have h := rd16_enc16 (crc16 l).toNat []
  rw [List.append_nil] at h
  rw [crcBytes, h]
  exact Nat.mod_eq_of_lt (crc16 l).isLt

/-- A field frame laid out as R187 states passes its check. -/
theorem fieldCheck_fieldFrameOf (tag : BitVec 12) (quantity : Nat) (seq : BitVec 4) (health value : Nat) :
    fieldCheck (fieldFrameOf (fieldBody tag quantity seq health value)) = true :=
  beq_iff_eq.mpr (rd16_crcBytes (fieldBody tag quantity seq health value)).symm

/-- The fields of a frame laid out as R187 states read back as they were written. -/
theorem fieldFields_fieldFrameOf (tag : BitVec 12) (quantity : Nat) (seq : BitVec 4) (health value : Nat)
    (hquantity : quantity < 16) (hhealth : health < 4) (hvalue : value < 16777216) :
    fieldFields (fieldFrameOf (fieldBody tag quantity seq health value)) =
      { tag := tag, quantity := quantity, seq := seq, health := health, value := signed 24 value } := by
  have htag := tag.isLt
  have hseq := seq.isLt
  have h1 : rd8 (fieldFrameOf (fieldBody tag quantity seq health value)) 1 = tag.toNat / 16 := by
    refine Nat.mod_eq_of_lt (a := tag.toNat / 16) (b := 2 ^ 8) ?_
    omega
  have h2 : rd8 (fieldFrameOf (fieldBody tag quantity seq health value)) 2 = tag.toNat % 16 * 16 + quantity := by
    refine Nat.mod_eq_of_lt (a := tag.toNat % 16 * 16 + quantity) (b := 2 ^ 8) ?_
    omega
  have h3 : rd8 (fieldFrameOf (fieldBody tag quantity seq health value)) 3 = seq.toNat * 16 + health * 4 := by
    refine Nat.mod_eq_of_lt (a := seq.toNat * 16 + health * 4) (b := 2 ^ 8) ?_
    omega
  have h4 : rdS24 (fieldFrameOf (fieldBody tag quantity seq health value)) 4 = signed 24 value := by
    have h : rd24 (fieldFrameOf (fieldBody tag quantity seq health value)) 4 = value % 16777216 :=
      rd24_enc24 value (crcBytes (fieldBody tag quantity seq health value))
    rw [rdS24, h, Nat.mod_eq_of_lt hvalue]
  rw [fieldFields, h1, h2, h3, h4]
  congr 1
  · refine BitVec.eq_of_toNat_eq ?_
    rw [BitVec.toNat_ofNat]
    omega
  · omega
  · refine BitVec.eq_of_toNat_eq ?_
    rw [BitVec.toNat_ofNat]
    omega
  · omega

theorem setpointFrame_value (f : SetpointFrame) : rd24 f.bytes 4 = setpointValue f.setpoint := by
  have h : rd24 f.bytes 4 = setpointValue f.setpoint % 16777216 :=
    rd24_enc24 (setpointValue f.setpoint)
      (crcBytes (fieldBody f.tag 15 f.seq (modeCode f.setpoint.mode) (setpointValue f.setpoint)))
  rw [h, Nat.mod_eq_of_lt (setpointValue_lt _)]

/-- Settles O18: the frame is laid out as R187 states, so its fields read back, and its bytes take their bit times. -/
theorem setpointFrameReadsBack : Obligations.SetpointFrameReadsBack := by
  intro f hlow hhigh
  have hmode := modeCode_le f.setpoint.mode
  have hfields : fieldFields f.bytes = _ :=
    fieldFields_fieldFrameOf f.tag 15 f.seq (modeCode f.setpoint.mode) (setpointValue f.setpoint) (by omega) (by omega)
      (setpointValue_lt _)
  refine ⟨rfl, rfl, fieldCheck_fieldFrameOf _ _ _ _ _, ?_, ?_, ?_, ?_, ?_, ?_, fun s => ⟨fun htx n => ?_, fun htx => ?_⟩⟩
  · rw [hfields]
  · rw [hfields]
  · rw [hfields]
  · rw [hfields]
  · rw [setpointFrame_value, setpointValue]
    omega
  · rw [setpointFrame_value, setpointValue, signed]
    split <;> omega
  · simp [State.fieldOutPin, htx, transmitLevel_none]
  · simp only [State.fieldOutPin, htx, Option.map_some]
    exact transmitLevel_frame f.bytes

end Sys2Proof.Machine
end

section
/-! PROOFS. The host line: requests taken, held and discarded, the bytes of a request, and the line's next frame: O17, O29,
O30. -/

namespace Sys2Proof.Machine

/-! ## Requests at the line -/

/-- The taking of a request leaves the slot and the hold place as they are, its reply apart (R171). -/
theorem answer_keeps_line (kind : Nat) (body : List Byte) (s : State) :
    (answer kind body s).1.hlk.tx = s.hlk.tx ∧ (answer kind body s).1.hlk.slot = s.hlk.slot ∧
      (answer kind body s).1.hlk.held = s.hlk.held :=
  (closed_line s.hlk.tx s.hlk.slot s.hlk.held).after_request (answer_effect kind body s) ⟨rfl, rfl, rfl⟩

/-- A command that carries a request is that request's event (log 6). -/
theorem exec_of_requestOf {c : Instr} {q : HostFrame} (h : requestOf c = some q) (s : State) :
    exec c s = event (fun s => endEvent (arriveRequest q s)) s := by
  cases c <;> cases h <;> rfl

/-- A request at a free host line is answered at once (R171, R173, R174). -/
theorem exec_of_free {c : Instr} {q : HostFrame} {s : State} (h : requestOf c = some q) (hk : q.kind.toNat < 128)
    (hf : HostFree s) :
    exec c s = .next (reply q.kind q.tag (answer q.kind.toNat q.body s).2 (answer q.kind.toNat q.body s).1) := by
  obtain ⟨-, hslot, hheld⟩ := id hf
  obtain ⟨-, hslot', hheld'⟩ := answer_keeps_line q.kind.toNat q.body s
  rw [exec_of_requestOf h]
  exact event_request_of_free q.kind q.tag q.body s hk hf (hslot'.trans hslot) (hheld'.trans hheld)

/-- Settles O30: each case is its row of R170 and R171. -/
theorem requestTakenHeldOrDiscarded : Obligations.RequestTakenHeldOrDiscarded := by
  intro c q s hq
  have hexec := exec_of_requestOf hq s
  refine ⟨fun hk hline => ?_, fun hk hf => exec_of_free hq hk hf, fun hk hrun htx hslot hheld => ?_, fun htx hheld => ?_⟩
  · have hdiscard : arriveRequest q s = s := if_pos hk
    rw [hexec, event, hdiscard, endEvent_of_lineOk s hline, ite_self]
  · obtain ⟨f, hslot⟩ := Option.ne_none_iff_exists'.mp hslot
    have hhold : arriveRequest q s = s.withHlk { s.hlk with held := some q } := by
      unfold arriveRequest
      rw [if_neg (by omega), hheld, hslot]
    rw [hexec, event_of_not_inReset _ s hrun, hhold]
    exact congrArg _ (endEvent_busy _ htx)
  · obtain ⟨f, hheld⟩ := Option.ne_none_iff_exists'.mp hheld
    have hdiscard : arriveRequest q s = s := by
      unfold arriveRequest
      rw [hheld]
      exact ite_self s
    rw [hexec, event, hdiscard, endEvent_busy s htx, ite_self]

/-! ## The bytes of a request -/

theorem receiveHost_cons (b : Byte) (rest : List Byte) (s : State) (hrun : s.inReset = false) :
    receiveHost (b :: rest) s = receiveHost rest (takeHostByte b false s) := by
  have h : exec (.hostByteReceived (lineBits b) true) s = .next (takeHostByte b false s) :=
    (execHostByteReceived_lineBits b true s).trans (event_of_not_inReset _ s hrun)
  simp only [receiveHost, h]

/-- While a reset is held no byte is taken (R193). -/
theorem receiveHost_held (bytes : List Byte) (s : State) (hheld : s.inReset = true) : receiveHost bytes s = .next s := by
  induction bytes with
  | nil => rfl
  | cons b rest ih =>
    have h : exec (.hostByteReceived (lineBits b) true) s = .next s :=
      (execHostByteReceived_lineBits b true s).trans (event_held (takeHostByte b false) s hheld)
    rw [receiveHost, h]
    exact ih

/-- Bytes received behind those held, short of a whole frame, are held too (R169). -/
theorem receiveHost_collecting (more held last : List Byte) (len : Byte) (s : State) (hrun : s.inReset = false)
    (hrx : s.hlk.rx = .collecting len held) (hshort : held.length + more.length < len.toNat + 2) :
    receiveHost (more ++ last) s = receiveHost last (s.withRx (.collecting len (held ++ more))) := by
  induction more generalizing held s with
  | nil =>
    rw [List.append_nil, State.withRx, ← hrx]
    rfl
  | cons b more ih =>
    rw [List.length_cons] at hshort
    have htake : s.hlk.rx.take b false = (.collecting len (held ++ [b]), none) := by
      simp only [hrx, RxAssembler.take]
      simp; omega
    rw [List.cons_append, receiveHost_cons b _ s hrun, takeHostByte_of_no_frame htake,
      ih (held ++ [b]) (s.withRx (.collecting len (held ++ [b]))) hrun rfl (by simp; omega), List.append_assoc]
    rfl

/-- The last byte of a frame completes what LEN and the bytes behind it hold, with the assembler HUNTING (R169). -/
theorem receiveHost_last (b : Byte) (held : List Byte) (len : Byte) (s : State) (hrun : s.inReset = false)
    (hrx : s.hlk.rx = .collecting len held) (hfull : held.length + 1 = len.toNat + 2) :
    receiveHost [b] s =
      .next (match frameOf len (held ++ [b]) with
        | some q => endEvent (arriveRequest q (s.withRx .hunting))
        | none => s.withRx .hunting) := by
  have htake : s.hlk.rx.take b false = (.hunting, frameOf len (held ++ [b])) := by
    simp only [hrx, RxAssembler.take]
    simp [hfull]
  rw [receiveHost_cons b [] s hrun, receiveHost, takeHostByte, htake]
  dsimp only
  split <;> simp_all <;> rfl

/-- A whole frame received from HUNTING, whatever its last two bytes, is what its CRC makes of it (R168, R169). -/
theorem receiveHost_frame (f : HostFrame) (crc : List Byte) (s : State) (hrun : s.inReset = false)
    (hlen : f.body.length ≤ 248) (hcrc : crc.length = 2) (hrx : s.hlk.rx = .hunting) :
    receiveHost (0xA5 :: f.checked ++ crc) s =
      .next (if crc = crcBytes f.checked then endEvent (arriveRequest f s) else s) := by
  obtain ⟨c1, c2, rfl⟩ : ∃ c1 c2, crc = [c1, c2] := by
    match crc, hcrc with
    | [c1, c2], _ => exact ⟨c1, c2, rfl⟩
  obtain ⟨len, hlendef⟩ : ∃ len : Byte, len = BitVec.ofNat 8 (f.body.length + 2) := ⟨_, rfl⟩
  have hlenNat : len.toNat = f.body.length + 2 := by
    rw [hlendef, BitVec.toNat_ofNat]
    omega
  have hchecked : f.checked = len :: f.kind :: f.tag :: f.body := by rw [hlendef]; rfl
  have hopen : s.hlk.rx.take 0xA5 false = (.length, none) := by rw [hrx]; rfl
  have hlength : (s.withRx .length).hlk.rx.take len false = (.collecting len [], none) := by
    have hrange : inNat 2 250 len.toNat = true := by simp [inNat, hlenNat]; omega
    show RxAssembler.take .length len false = _
    simp [RxAssembler.take, hrange]
  have hback : s.withRx .hunting = s := by rw [State.withRx, ← hrx]
  have hframe : frameOf len ((f.kind :: f.tag :: f.body ++ [c1]) ++ [c2]) =
      if [c1, c2] = crcBytes f.checked then some f else none := by
    have hbody : (f.kind :: f.tag :: f.body).length = len.toNat := by simp [hlenNat]
    have hdrop : (f.kind :: f.tag :: f.body ++ [c1, c2]).drop len.toNat = [c1, c2] := List.drop_left' hbody
    have htake : (f.kind :: f.tag :: f.body ++ [c1, c2]).take len.toNat = f.kind :: f.tag :: f.body := List.take_left' hbody
    have hrest : (f.body ++ [c1, c2]).take (len.toNat - 2) = f.body := List.take_left' (by omega)
    rw [List.append_assoc, List.singleton_append, hchecked]
    simp only [List.cons_append] at hdrop htake ⊢
    simp only [frameOf, hdrop, htake, hrest]
  calc receiveHost (0xA5 :: f.checked ++ [c1, c2]) s
      = receiveHost (len :: ((f.kind :: f.tag :: f.body ++ [c1]) ++ [c2])) (s.withRx .length) := by
        rw [List.cons_append, receiveHost_cons _ _ s hrun, takeHostByte_of_no_frame hopen, hchecked]
        simp
    _ = receiveHost ((f.kind :: f.tag :: f.body ++ [c1]) ++ [c2]) (s.withRx (.collecting len [])) := by
        rw [receiveHost_cons _ _ (s.withRx .length) hrun, takeHostByte_of_no_frame hlength]
        rfl
    _ = receiveHost [c2] (s.withRx (.collecting len (f.kind :: f.tag :: f.body ++ [c1]))) :=
        receiveHost_collecting (f.kind :: f.tag :: f.body ++ [c1]) [] [c2] len (s.withRx (.collecting len [])) hrun rfl
          (by simp [hlenNat])
    _ = _ := by
        rw [receiveHost_last c2 (f.kind :: f.tag :: f.body ++ [c1]) len
          (s.withRx (.collecting len (f.kind :: f.tag :: f.body ++ [c1]))) hrun rfl (by simp [hlenNat]), hframe]
        have hhunting : (s.withRx (.collecting len (f.kind :: f.tag :: f.body ++ [c1]))).withRx .hunting = s := hback
        rw [hhunting]
        by_cases hright : [c1, c2] = crcBytes f.checked
        · rw [if_pos hright, if_pos hright]
        · rw [if_neg hright, if_neg hright]

/-- Settles O17: the frame's bytes are the frame, and with the right CRC the frame is its request. -/
theorem hostBytesMakeRequest : Obligations.HostBytesMakeRequest := by
  intro c f s hf hlen hrx
  rw [exec_of_requestOf hf]
  by_cases hheld : s.inReset = true
  · rw [receiveHost_held _ s hheld, event_held _ s hheld]
    exact ⟨rfl, fun crc _ _ => receiveHost_held _ s hheld⟩
  have hrun : s.inReset = false := by simpa using hheld
  constructor
  · rw [event_of_not_inReset _ s hrun]
    exact (receiveHost_frame f (crcBytes f.checked) s hrun hlen rfl hrx).trans (by rw [if_pos rfl])
  · intro crc hcrc hwrong
    rw [receiveHost_frame f crc s hrun hlen hcrc hrx, if_neg hwrong]

/-! ## The end of a transmission -/

theorem exec_hostTxEnd (s : State) (hrun : s.inReset = false) (htx : s.hlk.tx ≠ none) :
    exec .hostTxEnd s = .next (endEvent (s.withHlk { s.hlk with tx := none })) := by
  obtain ⟨f, htx⟩ := Option.ne_none_iff_exists'.mp htx
  refine (event_of_not_inReset (fun s => match s.hlk.tx with
    | some _ => endEvent (s.withHlk { s.hlk with tx := none })
    | none => s) s hrun).trans ?_
  simp only [htx]

/-- Settles O29: with the frame in transmission ended the line takes the first of reply, notice and nothing. -/
theorem hostLineTakesNext : Obligations.HostLineTakesNext := by
  intro s
  refine ⟨fun htx => ?_, fun htx hrun => ?_, fun htx n => ?_, fun f htx => ?_⟩
  · refine (congrArg Host.Outcome.next ?_ : event (fun s => match s.hlk.tx with
      | some _ => endEvent (s.withHlk { s.hlk with tx := none })
      | none => s) s = .next s)
    simp only [htx, ite_self]
  · rw [exec_hostTxEnd s hrun htx]
    refine ⟨fun r hslot hheld => ?_, fun r q u hslot hheld hu => ?_, fun n rest hslot hqueue => ?_, fun hslot hqueue => ?_⟩
    · exact congrArg _ (endEvent_sends_slot r (s.withHlk { s.hlk with tx := none }) rfl hslot hheld)
    · rw [hu]
      simp only [endEvent, pumpWith, withHlk_hlk, hslot, startReply, hheld]
      rfl
    · simp only [endEvent, pumpWith, withHlk_hlk, hslot, hqueue]
      rfl
    · simp only [endEvent, pumpWith, withHlk_hlk, hslot, hqueue]
      rfl
  · simp [State.hostTxPin, htx, transmitLevel_none]
  · simp only [State.hostTxPin, htx, Option.map_some]
    exact transmitLevel_frame f.bytes

end Sys2Proof.Machine
end

section
/-! PROOFS. Refused requests: what each check answers, and that a refusal leaves the part as it was: O31. -/

namespace Sys2Proof.Machine

/-! ## A request whose answer is known -/

/-- A request at a free host line whose answer is known (R171, R173, R174). -/
theorem exec_of_answer {c : Instr} {q : HostFrame} {s t : State} {content : List Byte} (h : requestOf c = some q)
    (hk : q.kind.toNat < 128) (hf : HostFree s) (hans : answer q.kind.toNat q.body s = (t, content)) :
    exec c s = .next (reply q.kind q.tag content t) := by
  rw [exec_of_free h hk hf, hans]

/-! ## Refusals -/

/-- What a request answers either leaves the part as it was or is coded OK or CLAMPED (R172). -/
def RefusesKeep (s : State) (t : Taken) : Prop := t.1 = s ∨ ∃ rest, t.2 = 0 :: rest ∨ t.2 = 1 :: rest

@[simp] theorem refusesKeep_refuse (s : State) (reply : List Byte) : RefusesKeep s (refuse s reply) := .inl rfl

@[simp] theorem refusesKeep_ok (s t : State) (content : List Byte) : RefusesKeep s (t, okReply content) :=
  .inr ⟨content, .inl rfl⟩

@[simp] theorem refusesKeep_taken (s t : State) (clamped : Bool) (content : List Byte) :
    RefusesKeep s (t, takenReply clamped content) := by
  cases clamped
  · exact .inr ⟨content, .inl rfl⟩
  · exact .inr ⟨content, .inr rfl⟩

theorem refusesKeep_withLength {n : Nat} {body : List Byte} {s : State} {t : Taken} (h : RefusesKeep s t) :
    RefusesKeep s (withLength n body s t) := by
  unfold withLength
  split
  · exact h
  · simp

@[simp] theorem refusesKeep_swapOrDefer (s t : State) : RefusesKeep s (swapOrDefer t) := by
  unfold swapOrDefer
  split <;> simp

theorem reqSetActions_refusesKeep (body : List Byte) (s : State) : RefusesKeep s (reqSetActions body s) := by
  unfold reqSetActions
  dsimp only
  split_ifs
  · simp
  · simp
  · split <;> simp

theorem reqSetAccept_refusesKeep (body : List Byte) (s : State) : RefusesKeep s (reqSetAccept body s) := by
  unfold reqSetAccept
  split_ifs
  · simp
  · simp
  · simp
  · split <;> simp

theorem refusesKeep_ite {s : State} {c : Prop} [Decidable c] {t u : Taken} (ht : RefusesKeep s t) (hu : RefusesKeep s u) :
    RefusesKeep s (if c then t else u) := by
  split
  · exact ht
  · exact hu

/-- No refused request touches the part (R172). -/
theorem answer_refusesKeep (kind : Nat) (body : List Byte) (s : State) : RefusesKeep s (answer kind body s) := by
  unfold answer
  split
  case h_4 => exact reqSetAccept_refusesKeep body s
  case h_6 => exact reqSetActions_refusesKeep body s
  case h_27 => simp
  all_goals refine refusesKeep_withLength ?_
  case h_2 => exact .inr ⟨_, .inl rfl⟩
  case h_1 | h_10 | h_16 => simp
  case h_5 | h_12 | h_13 | h_14 | h_20 | h_21 | h_22 | h_23 | h_26 => exact refusesKeep_ite (by simp) (by simp)
  case h_8 | h_17 | h_24 | h_25 => split <;> simp
  case h_3 =>
    refine refusesKeep_ite (by simp) ?_
    split <;> simp
  case h_7 =>
    split
    · simp
    · split <;> simp
  case h_9 =>
    split
    · simp
    · simp
    · split <;> simp
  case h_11 => exact refusesKeep_ite (by simp) (refusesKeep_ite (by simp) (by simp))
  case h_15 =>
    split
    · simp
    · refine refusesKeep_ite (by simp) ?_
      split <;> simp
  case h_18 =>
    refine refusesKeep_ite (by simp) ?_
    split
    · simp
    · exact refusesKeep_ite (by simp) (by simp)
  case h_19 =>
    split
    · simp
    · simp
    · exact refusesKeep_ite (by simp) (refusesKeep_ite (by simp) (by simp))

/-- A KIND that names no request is answered UNKNOWN_KIND (R172, step 1). -/
theorem answer_unknown (n : Nat) (body : List Byte) (s : State) (h : n = 0 ∨ 26 < n) : answer n body s = (s, [2]) := by
  obtain rfl | h := h
  · rfl
  · obtain ⟨m, rfl⟩ : ∃ m, n = m + 27 := ⟨n - 27, by omega⟩
    rfl

theorem withLength_of_ne {n : Nat} {body : List Byte} (h : body.length ≠ n) (s : State) (t : Taken) :
    withLength n body s t = (s, [3]) := if_neg h

theorem withLength_of_eq {n : Nat} {body : List Byte} (h : body.length = n) (s : State) (t : Taken) :
    withLength n body s t = t := if_pos h

theorem mem_of_lookup {α β : Type} [BEq α] [LawfulBEq α] {l : List (α × β)} {a : α} {b : β} (h : l.lookup a = some b) :
    (a, b) ∈ l := by
  induction l with
  | nil => cases h
  | cons p l ih =>
    obtain ⟨x, y⟩ := p
    rw [List.lookup_cons] at h
    split at h
    · rename_i hx
      obtain rfl := eq_of_beq hx
      cases h
      exact List.mem_cons_self
    · exact List.mem_cons_of_mem _ (ih h)

/-- A body of the wrong length is answered BAD_LENGTH (R172, step 2). -/
theorem answer_badLength {kind : Byte} {n : Nat} {body : List Byte} (s : State) (hkind : requiredLength kind = some n)
    (hlen : body.length ≠ n) : answer kind.toNat body s = (s, [3]) := by
  have hmem := mem_of_lookup hkind
  simp only [List.mem_cons, List.not_mem_nil, or_false, Prod.mk.injEq] at hmem
  rcases hmem with ⟨rfl, rfl⟩ | ⟨rfl, rfl⟩ | ⟨rfl, rfl⟩ | ⟨rfl, rfl⟩ | ⟨rfl, rfl⟩ | ⟨rfl, rfl⟩ | ⟨rfl, rfl⟩ | ⟨rfl, rfl⟩ |
    ⟨rfl, rfl⟩ | ⟨rfl, rfl⟩ | ⟨rfl, rfl⟩ | ⟨rfl, rfl⟩ | ⟨rfl, rfl⟩ | ⟨rfl, rfl⟩ | ⟨rfl, rfl⟩ | ⟨rfl, rfl⟩ | ⟨rfl, rfl⟩ |
    ⟨rfl, rfl⟩ | ⟨rfl, rfl⟩ | ⟨rfl, rfl⟩ | ⟨rfl, rfl⟩ | ⟨rfl, rfl⟩ | ⟨rfl, rfl⟩ | ⟨rfl, rfl⟩
  all_goals exact withLength_of_ne hlen s _

/-! ## Parameters out of range -/

theorem standOfPos_none {n : Nat} (h : n = 0 ∨ 8 < n) : standOfPos n = none := if_neg (by omega)

theorem keyOfNum_none {n : Nat} (h : 70 < n) : keyOfNum n = none := by
  unfold keyOfNum
  split_ifs <;> first | omega | rfl

theorem dirOfCode_none {n : Nat} (h1 : n ≠ 1) (h2 : n ≠ 2) : dirOfCode n = none := by
  unfold dirOfCode
  split <;> simp_all

theorem answer_badParameter {q : HostFrame} {field : Nat} (s : State) (h : BadParameter q field) :
    answer q.kind.toNat q.body s = (s, badParam 0 field 0) := by
  obtain ⟨kind, tag, body⟩ := q
  dsimp only [BadParameter] at h ⊢
  rcases h with ⟨rfl, hlen, ⟨hsel, rfl⟩ | ⟨hsel, hitem, rfl⟩⟩ | ⟨rfl, hlen, hpos, rfl⟩ | ⟨rfl, hlen, hkey, hall, rfl⟩ |
    ⟨rfl, hlen, hpos, rfl⟩ | ⟨rfl, hlen, ⟨hpos, rfl⟩ | ⟨hlow, hhigh, hto, hcoord, rfl⟩⟩ | ⟨rfl, hlen, hrun, rfl⟩ |
    ⟨rfl, hlen, hfirst, rfl⟩ | ⟨rfl, hlen, hcount, rfl⟩ | ⟨rfl, hlen, hfirst, rfl⟩
  · refine (withLength_of_eq hlen s _).trans (if_pos hsel)
  · refine (withLength_of_eq hlen s _).trans ((if_neg (by omega)).trans (if_pos hitem))
  · refine (withLength_of_eq hlen s _).trans ?_
    rw [standOfPos_none hpos]
    rfl
  · refine (withLength_of_eq hlen s _).trans ?_
    rw [ackTargets, if_neg hall, keyOfNum_none hkey]
    rfl
  · exact (withLength_of_eq hlen s _).trans (if_pos hpos)
  · refine (withLength_of_eq hlen s _).trans ?_
    rw [standOfPos_none hpos]
    rfl
  · refine (withLength_of_eq hlen s _).trans ?_
    rw [dirOfCode_none hto hcoord, standOfPos, if_pos ⟨hlow, hhigh⟩]
    rfl
  · refine (withLength_of_eq hlen s _).trans (if_pos ?_)
    simp only [channelRun, Bool.not_eq_true', decide_eq_false_iff_not]
    omega
  · refine (withLength_of_eq hlen s _).trans (if_pos ?_)
    simp only [inNat, Bool.not_eq_true', decide_eq_false_iff_not]
    omega
  · refine (withLength_of_eq hlen s _).trans (if_pos ?_)
    simp only [inNat, Bool.not_eq_true', decide_eq_false_iff_not]
    omega
  · refine (withLength_of_eq hlen s _).trans (if_pos ?_)
    simp only [inNat, Bool.not_eq_true', decide_eq_false_iff_not]
    omega

/-- Settles O31: each check answers its code, and a reply coded neither OK nor CLAMPED comes from a refusal. -/
theorem refusedRequestChangesNothing : Obligations.RefusedRequestChangesNothing := by
  intro c q s hq hk hf
  refine ⟨fun hkind => exec_of_answer hq hk hf (answer_unknown _ _ s hkind),
    fun n hkind hlen => exec_of_answer hq hk hf (answer_badLength s hkind hlen), fun hkind hlen => ?_,
    fun field hbad => exec_of_answer hq hk hf (answer_badParameter s hbad), fun code rest hans hok hclamped => ?_⟩
  · refine exec_of_answer hq hk hf ?_
    rw [hkind]
    exact if_pos hlen
  · obtain hkeep | ⟨rest', h | h⟩ := answer_refusesKeep q.kind.toNat q.body s
    · exact exec_of_answer hq hk hf (Prod.ext hkeep hans)
    · exact absurd (List.cons.inj (hans.symm.trans h)).1 hok
    · exact absurd (List.cons.inj (hans.symm.trans h)).1 hclamped

end Sys2Proof.Machine
end

section
/-! PROOFS. Items of a body read back where they were written, and the records and runs that bodies carry (R178). -/

namespace Sys2Proof.Machine

/-! ## Items at an index -/

theorem rd8_drop (body : List Byte) (i j : Nat) : rd8 (body.drop i) j = rd8 body (i + j) := by
  simp [rd8, List.getD_eq_getElem?_getD, List.getElem?_drop]

theorem rd16_drop (body : List Byte) (i j : Nat) : rd16 (body.drop i) j = rd16 body (i + j) := by
  simp [rd16, rd8_drop, Nat.add_assoc]

theorem rd24_drop (body : List Byte) (i j : Nat) : rd24 (body.drop i) j = rd24 body (i + j) := by
  simp [rd24, rd16_drop, rd8_drop, Nat.add_assoc]

theorem rd32_drop (body : List Byte) (i j : Nat) : rd32 (body.drop i) j = rd32 body (i + j) := by
  simp [rd32, rd16_drop, Nat.add_assoc]

theorem rd8_enc8_end (n : Nat) : rd8 (enc8 n) 0 = n % 256 := rd8_enc8 n []

theorem rd8_of_enc8 {n : Nat} (h : n < 256) (l : List Byte) : rd8 (enc8 n ++ l) 0 = n := by
  rw [rd8_enc8, Nat.mod_eq_of_lt h]

theorem rd16_of_enc16 {n : Nat} (h : n < 65536) (l : List Byte) : rd16 (enc16 n ++ l) 0 = n := by
  rw [rd16_enc16, Nat.mod_eq_of_lt h]

/-! Past a first part of the body the items are those of the rest. -/

theorem rd8_append (a l : List Byte) (i : Nat) (h : a.length ≤ i) : rd8 (a ++ l) i = rd8 l (i - a.length) := by
  have e := rd8_drop (a ++ l) a.length (i - a.length)
  rw [List.drop_left, Nat.add_sub_cancel' h] at e
  exact e.symm

theorem rd16_append (a l : List Byte) (i : Nat) (h : a.length ≤ i) : rd16 (a ++ l) i = rd16 l (i - a.length) := by
  have e := rd16_drop (a ++ l) a.length (i - a.length)
  rw [List.drop_left, Nat.add_sub_cancel' h] at e
  exact e.symm

theorem rd24_append (a l : List Byte) (i : Nat) (h : a.length ≤ i) : rd24 (a ++ l) i = rd24 l (i - a.length) := by
  have e := rd24_drop (a ++ l) a.length (i - a.length)
  rw [List.drop_left, Nat.add_sub_cancel' h] at e
  exact e.symm

theorem rd32_append (a l : List Byte) (i : Nat) (h : a.length ≤ i) : rd32 (a ++ l) i = rd32 l (i - a.length) := by
  have e := rd32_drop (a ++ l) a.length (i - a.length)
  rw [List.drop_left, Nat.add_sub_cancel' h] at e
  exact e.symm

/-! The lengths of items for the side conditions above: `simp` does not take the ones that hold by `rfl` there. -/

theorem length_enc8 (n : Nat) : (enc8 n).length = 1 := by simp
theorem length_enc16 (n : Nat) : (enc16 n).length = 2 := by simp
theorem length_enc24 (n : Nat) : (enc24 n).length = 3 := by simp
theorem length_enc32 (n : Nat) : (enc32 n).length = 4 := by simp

/-! A signed item reads back through its two's complement. -/

theorem signed16_enc {x : Int} (h : -32768 ≤ x ∧ x ≤ 32767) : signed 16 ((x % 65536).toNat % 65536) = x := by
  unfold signed
  split <;> omega

theorem signed24_enc {x : Int} (h : -8388608 ≤ x ∧ x ≤ 8388607) : signed 24 ((x % 16777216).toNat % 16777216) = x := by
  unfold signed
  split <;> omega

/-! ## Checks in their order -/

theorem inNat_eq_inInt (lo hi x : Nat) : inNat lo hi x = inInt lo hi x := by
  simp [inNat, inInt]

theorem inInt_eq_true (lo hi x : Int) : inInt lo hi x = true ↔ lo ≤ x ∧ x ≤ hi := decide_eq_true_iff

theorem inInt_eq_false (lo hi x : Int) : inInt lo hi x = false ↔ x < lo ∨ hi < x := by
  rw [inInt, decide_eq_false_iff_not]
  omega

/-- The range checks of a list of items, numbered from `m`. -/
def rangeChecks (m : Nat) (l : List (Int × Int × Int)) : List (Nat × Bool) :=
  l.mapIdx fun i c => (m + i, inInt c.2.1 c.2.2 c.1)

/-- Of numbered range checks the first item out of its range is the one that fails. -/
theorem firstFail_rangeChecks (m : Nat) (l : List (Int × Int × Int)) (i : Nat) (x lo hi : Int)
    (hi' : l[i]? = some (x, lo, hi)) (hout : x < lo ∨ hi < x)
    (hbefore : ∀ j y a b, j < i → l[j]? = some (y, a, b) → a ≤ y ∧ y ≤ b) :
    firstFail (rangeChecks m l) = some (m + i) := by
  induction l generalizing m i with
  | nil => simp at hi'
  | cons c l ih =>
    have hcons : rangeChecks m (c :: l) = (m, inInt c.2.1 c.2.2 c.1) :: rangeChecks (m + 1) l := by
      simp [rangeChecks, List.mapIdx_cons, Nat.add_assoc, Nat.add_comm 1]
    rw [hcons, firstFail]
    cases i with
    | zero =>
      obtain rfl : c = (x, lo, hi) := by simpa using hi'
      rw [List.find?_cons_of_pos (by simpa using (inInt_eq_false lo hi x).mpr hout)]
      rfl
    | succ i =>
      have hpass : inInt c.2.1 c.2.2 c.1 = true := (inInt_eq_true _ _ _).mpr (hbefore 0 c.1 c.2.1 c.2.2 (by omega) rfl)
      rw [List.find?_cons_of_neg (by simp [hpass])]
      have h := ih (m + 1) i (by simpa using hi') fun j y a b hj hy => hbefore (j + 1) y a b (by omega) (by simpa using hy)
      rw [firstFail] at h
      rw [h]
      congr 1
      omega

/-- Range checks that all pass name nothing. -/
theorem firstFail_rangeChecks_none (m : Nat) (l : List (Int × Int × Int)) (h : ∀ c ∈ l, c.2.1 ≤ c.1 ∧ c.1 ≤ c.2.2) :
    firstFail (rangeChecks m l) = none := by
  rw [firstFail, Option.map_eq_none_iff, List.find?_eq_none]
  intro c hc
  obtain ⟨i, hi, rfl⟩ := List.mem_mapIdx.mp hc
  have := (inInt_eq_true _ _ _).mpr (h _ (List.getElem_mem hi))
  simp [this]

/-! ## The stand record -/

/-- The checks of a LOAD_STAND body are those of R4's table in its order. -/
theorem standChecks_eq (code : Nat) (r : StandRecord) :
    (1, inNat 0 2 code) :: r.checks = rangeChecks 1 (standFields code r) := by
  simp only [StandRecord.checks, rangeChecks, standFields, inNat_eq_inInt, gapInRange, List.mapIdx_cons, List.mapIdx_nil]
  rfl

theorem outCode_le (c : OutCode) : outCode c ≤ 2 := by cases c <;> simp [outCode]

theorem outOfCode_outCode (c : OutCode) : outOfCode (outCode c) = c := by cases c <;> rfl

/-- A record in its ranges has every field of R4's table in its range. -/
theorem standFields_inRange {r : StandRecord} (h : r.inRange = true) :
    ∀ c ∈ standFields (outCode r.outCode) r, c.2.1 ≤ c.1 ∧ c.1 ≤ c.2.2 := by
  intro c hc
  obtain ⟨i, hi, rfl⟩ := List.mem_iff_getElem.mp hc
  have hmem : (1 + i, inInt _ _ _) ∈ rangeChecks 1 (standFields (outCode r.outCode) r) := List.mem_mapIdx.mpr ⟨i, hi, rfl⟩
  rw [← standChecks_eq] at hmem
  obtain hmem | hmem := List.mem_cons.mp hmem
  · have hcode : inNat 0 2 (outCode r.outCode) = true := by
      simp [inNat, outCode_le]
    have := (Prod.mk.inj hmem).2.trans hcode
    exact (inInt_eq_true _ _ _).mp this
  · exact (inInt_eq_true _ _ _).mp (List.all_eq_true.mp h _ hmem)

/-- A stand record in its ranges reads back from its bytes. -/
theorem rdStand_encStand (x : Byte) (r : StandRecord) (h : r.inRange = true) : rdStand (x :: encStand r) 1 = r := by
  have hr := standFields_inRange h
  cases r
  simp only [standFields, List.mem_cons, List.not_mem_nil, or_false, forall_eq_or_imp, forall_eq] at hr
  rw [← List.singleton_append]
  unfold encStand
  simp only [rdStand, encS24, encS16, rdS24, rdS16, List.append_assoc, rd8_append, rd16_append, rd24_append, rd32_append,
    List.length_singleton, length_enc8, length_enc16, length_enc24, length_enc32, rd8_enc8, rd16_enc16, rd24_enc24,
    rd32_enc32, rd8_enc8_end, Nat.reduceLeDiff, Nat.reduceSub, Nat.reduceAdd, Nat.one_le_ofNat, le_refl]
  rw [signed24_enc (by omega), signed24_enc (by omega), signed24_enc (by omega), signed24_enc (by omega),
    signed16_enc (by omega), Nat.mod_eq_of_lt (by omega), outOfCode_outCode]
  congr 1 <;> omega

end Sys2Proof.Machine
end

section
/-! PROOFS. The requests that replace a stand's trim, the AUX pins and the actions, and COMMIT where it does not swap:
O36, O39, O44, O52. -/

namespace Sys2Proof.Machine

/-- A request command at a free host line, by what its KIND and body are answered (R171, R173, R174). -/
theorem exec_of_request {c : Instr} {kind tag : Byte} {body content : List Byte} {s t : State}
    (h : requestOf c = some { kind := kind, tag := tag, body := body }) (hk : kind.toNat < 128) (hf : HostFree s)
    (hans : answer kind.toNat body s = (t, content)) : exec c s = .next (reply kind tag content t) :=
  exec_of_answer h hk hf hans

/-! ## SET_TRIM (R105) -/

theorem away_iff (st : StandState) : st.away = true ↔ st = .local_ ∨ st = .handover := by cases st <;> simp [StandState.away]

theorem reqSetTrim_away {body : List Byte} {k : Stand} {s : State} (hlen : body.length = 3)
    (hpos : standOfPos (rd8 body 0) = some k) (h : (s.seq k).state.away = true) : reqSetTrim body s = (s, [6]) := by
  unfold reqSetTrim
  rw [withLength_of_eq hlen, hpos]
  exact if_pos h

theorem reqSetTrim_none {body : List Byte} {k : Stand} {s : State} (hlen : body.length = 3)
    (hpos : standOfPos (rd8 body 0) = some k) (h : (s.seq k).state.away = false) (hrec : s.record k = none) :
    reqSetTrim body s = (s, [5]) := by
  unfold reqSetTrim
  rw [withLength_of_eq hlen, hpos]
  dsimp only
  rw [if_neg (by simp [h]), hrec]
  rfl

theorem reqSetTrim_some {body : List Byte} {k : Stand} {r : StandRecord} {s : State} {x y : Int} (hlen : body.length = 3)
    (hpos : standOfPos (rd8 body 0) = some k) (h : (s.seq k).state.away = false) (hrec : s.record k = some r)
    (hx : rdS16 body 1 = x) (hy : y = max (-(r.trimMax : Int)) (min r.trimMax x)) :
    reqSetTrim body s = (s.modGap k fun g => { g with trim := y },
      takenReply (decide (y ≠ x)) (enc8 (Stand.pos k) ++ encS16 y)) := by
  unfold reqSetTrim
  rw [withLength_of_eq hlen, hpos]
  dsimp only
  rw [if_neg (by simp [h]), hrec, hx]
  dsimp only
  rw [saturate_eq _ _ _ (by omega), hy]

/-- Settles O44: the checks in R105's order, and the clamp. -/
theorem setTrim : Obligations.SetTrim := by
  intro tag k x s hf hlow hhigh
  have hpos : standOfPos (rd8 (enc8 (Stand.pos k) ++ encS16 x) 0) = some k := by
    rw [rd8_of_enc8 (by unfold Stand.pos; omega), standOfPos_pos]
  have hval : rdS16 (enc8 (Stand.pos k) ++ encS16 x) 1 = x := by
    unfold rdS16 encS16
    rw [rd16_append _ _ _ (by rw [length_enc8]), length_enc8, ← List.append_nil (enc16 _), rd16_enc16]
    exact signed16_enc ⟨hlow, hhigh⟩
  refine ⟨fun haway => exec_of_request rfl (by decide) hf (reqSetTrim_away rfl hpos ((away_iff _).mpr haway)),
    fun hlocal hhand => ?_⟩
  have hhere : (s.seq k).state.away = false := by
    rw [← Bool.not_eq_true, away_iff]
    simp [hlocal, hhand]
  refine ⟨fun hrec => exec_of_request rfl (by decide) hf (reqSetTrim_none rfl hpos hhere hrec), fun r y hrec hy =>
    exec_of_request rfl (by decide) hf ((reqSetTrim_some rfl hpos hhere hrec hval hy).trans (Prod.ext rfl ?_))⟩
  by_cases hyx : y = x <;> simp only [hyx, takenReply, ne_eq, not_true_eq_false, not_false_eq_true, decide_true, decide_false,
    if_true, if_false, List.append_assoc] <;> rfl

/-! ## SET_AUX (R184) -/

theorem length_encFlag (b : Bool) : (encFlag b).length = 1 := by simp

theorem auxCode_le (m : AuxMode) : auxCode m ≤ 3 := by cases m <;> simp [auxCode]

/-- A SET_AUX body reads back as the modes and levels that it spells. -/
theorem rdAux_body (m1 m2 : AuxMode) (l1 l2 : Bool) :
    rd8 (enc8 (auxCode m1) ++ encFlag l1 ++ enc8 (auxCode m2) ++ encFlag l2) 0 = auxCode m1 ∧
      rd8 (enc8 (auxCode m1) ++ encFlag l1 ++ enc8 (auxCode m2) ++ encFlag l2) 1 = l1.toNat ∧
      rd8 (enc8 (auxCode m1) ++ encFlag l1 ++ enc8 (auxCode m2) ++ encFlag l2) 2 = auxCode m2 ∧
      rd8 (enc8 (auxCode m1) ++ encFlag l1 ++ enc8 (auxCode m2) ++ encFlag l2) 3 = l2.toNat := by
  cases m1 <;> cases m2 <;> cases l1 <;> cases l2 <;> decide

theorem auxFault_none {body : List Byte} (h0 : rd8 body 0 ≤ 3) (h1 : rd8 body 1 ≤ 1) (h2 : rd8 body 2 ≤ 3)
    (h3 : rd8 body 3 ≤ 1) : auxFault body = none := by
  simp [auxFault, inNat, h0, h1, h2, h3]

/-- The first item of a SET_AUX body out of its range is the one named (log 23). -/
theorem auxFault_some {body : List Byte} {i : Nat} (hi : i < 4) (hbad : AuxItemBad body i)
    (hbefore : ∀ j, j < i → ¬AuxItemBad body j) : auxFault body = some (i / 2 + 1, i % 2 + 1) := by
  unfold AuxItemBad at hbad hbefore
  have h0 := hbefore 0
  have h1 := hbefore 1
  have h2 := hbefore 2
  unfold auxFault inNat
  match i, hi with
  | 0, _ => simp_all
  | 1, _ => simp_all
  | 2, _ => simp_all
  | 3, _ => simp_all

theorem toNat_le_one (b : Bool) : b.toNat ≤ 1 := by cases b <;> simp

theorem watched_iff (n : Notice) : n.watched = true ↔ (∃ key, n.body.source = .trip key) ∨ n.body.source = .millState := by
  unfold Notice.watched
  split <;> simp_all

/-- A pin driven by what holds of the queue is high exactly where it holds. -/
theorem driven_eq_high (b : Bool) : driven b = .high ↔ b = true := by cases b <;> simp [driven]

theorem driven_eq_low (b : Bool) : driven b = .low ↔ b = false := by cases b <;> simp [driven]

/-- The level of an AUX pin by its mode (R184). -/
theorem auxPin_of_mode {t : State} {i : Fin 2} {m : AuxMode} {l : Bool} (h : vget t.hlk.aux i = { mode := m, level := l }) :
    (m = .off → t.auxPin i = .highZ) ∧
      (m = .attentionTrip →
        (t.auxPin i = .high ↔ ∃ n ∈ t.hlk.queue, (∃ key, n.body.source = .trip key) ∨ n.body.source = .millState) ∧
        (t.auxPin i = .low ↔ ∀ n ∈ t.hlk.queue, (∀ key, n.body.source ≠ .trip key) ∧ n.body.source ≠ .millState)) ∧
      (m = .attentionAll → t.auxPin i = if t.hlk.queue = [] then .low else .high) ∧
      (m = .level → t.auxPin i = if l then .high else .low) := by
  unfold State.auxPin
  rw [h]
  refine ⟨fun e => by rw [e], fun e => ?_, fun e => ?_, fun e => ?_⟩
  · rw [e]
    refine ⟨?_, ?_⟩
    · simp only [driven_eq_high, List.any_eq_true, watched_iff]
    · simp only [driven_eq_low, List.any_eq_false, watched_iff, not_or, not_exists, ne_eq]
  · rw [e]
    cases t.hlk.queue <;> rfl
  · rw [e]
    cases l <;> rfl

theorem vtab_two {α : Type} (f : Fin 2 → α) : vtab f = #v[f 0, f 1] := rfl

theorem reqSetAux_none {body : List Byte} {a b : AuxPin} (s : State) (hlen : body.length = 4) (hfault : auxFault body = none)
    (ha : rdAux body 0 = a) (hb : rdAux body 1 = b) :
    reqSetAux body s = ({ s with hlk := { s.hlk with aux := #v[a, b] } }, [0] ++ encAux a ++ encAux b) := by
  unfold reqSetAux
  rw [withLength_of_eq hlen, hfault, vtab_two, ha, hb]
  rfl

theorem reqSetAux_some {body : List Byte} {pin field : Nat} (s : State) (hlen : body.length = 4)
    (hfault : auxFault body = some (pin, field)) : reqSetAux body s = (s, badParam pin field 0) := by
  unfold reqSetAux
  rw [withLength_of_eq hlen, hfault]
  rfl

theorem reply_hlk_queue (kind tag : Byte) (content : List Byte) (t : State) :
    (reply kind tag content t).hlk.queue = t.hlk.queue ∧ (reply kind tag content t).hlk.aux = t.hlk.aux := by
  unfold reply sendReply
  split <;> exact ⟨rfl, rfl⟩

theorem rdAux_of_items {body : List Byte} {i : Fin 2} {m : AuxMode} {l : Bool} (hm : rd8 body (2 * i.val) = auxCode m)
    (hl : rd8 body (2 * i.val + 1) = l.toNat) : rdAux body i = { mode := m, level := l } := by
  unfold rdAux
  rw [hm, hl, auxOfCode_code]
  cases l <;> rfl

/-- Settles O52: the body reads back, the first bad item is named, and the pins follow at once. -/
theorem setAux : Obligations.SetAux := by
  intro tag s hf
  refine ⟨fun m1 m2 l1 l2 t ht => ?_, fun body i hlen hi hbad hbefore =>
    exec_of_request rfl (by decide) hf (reqSetAux_some s hlen (auxFault_some hi hbad hbefore))⟩
  obtain ⟨h0, h1, h2, h3⟩ := rdAux_body m1 m2 l1 l2
  have hfault : auxFault (enc8 (auxCode m1) ++ encFlag l1 ++ enc8 (auxCode m2) ++ encFlag l2) = none :=
    auxFault_none (h0.trans_le (auxCode_le m1)) (h1.trans_le (toNat_le_one l1)) (h2.trans_le (auxCode_le m2))
      (h3.trans_le (toNat_le_one l2))
  have hans := reqSetAux_none s rfl hfault (rdAux_of_items (i := 0) h0 h1) (rdAux_of_items (i := 1) h2 h3)
  have hqueue : t.hlk.queue = s.hlk.queue := by rw [ht, (reply_hlk_queue _ _ _ _).1]
  have haux : t.hlk.aux = #v[{ mode := m1, level := l1 }, { mode := m2, level := l2 }] := by
    rw [ht, (reply_hlk_queue _ _ _ _).2]
  have hexec := exec_of_request (c := .setAux tag _) (kind := 0x19) (tag := tag) rfl (by decide) hf hans
  refine ⟨hexec.trans (congrArg _ ht.symm), fun i m l hi => ?_⟩
  rw [← hqueue]
  refine auxPin_of_mode ?_
  obtain ⟨rfl, rfl, rfl⟩ | ⟨rfl, rfl, rfl⟩ := hi <;> rw [haux] <;> rfl

end Sys2Proof.Machine
end

section
/-! PROOFS. The first element that fails a check, in the order of the list; and COMMIT where it does not swap: O39. -/

namespace Sys2Proof.Machine

/-! ## The first that fails -/

/-- The numbers below `n` in ascending order, cut at one of them. -/
theorem finRange_split {n : Nat} (k : Fin n) : ∃ a b, List.finRange n = a ++ k :: b ∧ ∀ j ∈ a, j < k := by
  have hk : k.val < (List.finRange n).length := by simp
  refine ⟨(List.finRange n).take k.val, (List.finRange n).drop (k.val + 1), ?_, fun j hj => ?_⟩
  · have h := List.take_append_drop k.val (List.finRange n)
    rw [List.drop_eq_getElem_cons hk] at h
    simpa using h.symm
  · obtain ⟨i, hi, rfl⟩ := List.mem_iff_getElem.mp hj
    simp only [List.length_take, List.length_finRange] at hi
    simp only [List.getElem_take, List.getElem_finRange, Fin.lt_def, Fin.val_cast]
    omega

/-- The first number that a check names, all below it naming nothing. -/
theorem findSome_finRange {n : Nat} {α : Type} {f : Fin n → Option α} {k : Fin n} {a : α} (h : f k = some a)
    (hbefore : ∀ j, j < k → f j = none) : (List.finRange n).findSome? f = some a := by
  obtain ⟨l, r, e, hl⟩ := finRange_split k
  exact List.findSome?_eq_some_iff.mpr ⟨l, k, r, e, h, fun j hj => hbefore j (hl j hj)⟩

/-- The first number with a property. -/
theorem find_finRange {n : Nat} {p : Fin n → Bool} {k : Fin n} (h : p k = true) (hbefore : ∀ j, j < k → p j = false) :
    (List.finRange n).find? p = some k := by
  obtain ⟨l, r, e, hl⟩ := finRange_split k
  exact List.find?_eq_some_iff_append.mpr ⟨h, l, r, e, fun j hj => by simp [hbefore j (hl j hj)]⟩

theorem allStands_eq : allStands = List.finRange 8 := rfl

theorem allStreams_eq : allStreams = List.finRange 4 := rfl

/-! ## Validation (R12) -/

theorem orderFault_none {r : StandRecord} :
    r.orderFault = none ↔ r.sMin ≤ r.sPreset ∧ r.sPreset ≤ r.sMax ∧ r.sMax ≤ r.sOpen := by
  unfold StandRecord.orderFault
  split_ifs <;> simp_all

theorem orderFaultOf_some {b : Bank} {k : Stand} {r : StandRecord} {field : Nat} (hr : vget b.stands k = some r)
    (hfault : r.orderFault = some field)
    (hbefore : ∀ j q, j < k → vget b.stands j = some q → q.orderFault = none) :
    orderFaultOf b = some (Stand.pos k, field) := by
  refine findSome_finRange (by rw [hr]; simp [hfault]) fun j hj => ?_
  cases hq : vget b.stands j with
  | none => rfl
  | some q => simp [hbefore j q hj hq]

theorem orderFaultOf_none {b : Bank} (h : ∀ k r, vget b.stands k = some r → r.orderFault = none) : orderFaultOf b = none := by
  rw [orderFaultOf, List.findSome?_eq_none_iff]
  intro k _
  cases hr : vget b.stands k with
  | none => rfl
  | some r => simp [h k r hr]

theorem validationFault_no_mill {b : Bank} (h : b.mill = none) : validationFault b = some (0, 0) := by
  rw [validationFault, h]

theorem validationFault_missing {b : Bank} {m : MillRecord} {k : Stand} {before after : List Stand} (hm : b.mill = some m)
    (hset : m.activeSet = before ++ k :: after) (hbefore : ∀ j ∈ before, vget b.stands j ≠ none)
    (hk : vget b.stands k = none) : validationFault b = some (Stand.pos k, 0) := by
  have hfind : m.activeSet.find? (fun k => (vget b.stands k).isNone) = some k :=
    List.find?_eq_some_iff_append.mpr ⟨by rw [hk]; rfl, before, after, hset, fun j hj => by
      simpa [Option.isSome_iff_ne_none] using hbefore j hj⟩
  simp [validationFault, hm, hfind]

theorem validationFault_present {b : Bank} {m : MillRecord} (hm : b.mill = some m)
    (hset : ∀ k ∈ m.activeSet, vget b.stands k ≠ none) : validationFault b = orderFaultOf b := by
  have hfind : m.activeSet.find? (fun k => (vget b.stands k).isNone) = none := by
    rw [List.find?_eq_none]
    exact fun k hk => by simpa [Option.isSome_iff_ne_none] using hset k hk
  simp [validationFault, hm, hfind]

theorem validationFault_of_validated {b : Bank} (h : Validated b) : validationFault b = none := by
  obtain ⟨⟨m, hm, hset⟩, horder⟩ := h
  rw [validationFault_present hm hset]
  exact orderFaultOf_none fun k r hr => orderFault_none.mpr (horder k r hr)

/-! ## COMMIT (R2, R12, R13) -/

theorem reqCommit_fault {s : State} {item field : Nat} (hstate : s.sch.pendingBank.state = .editing)
    (h : validationFault s.sch.pendingBank.bank = some (item, field)) : reqCommit [] s = (s, badParam item field 0) := by
  unfold reqCommit
  rw [withLength_of_eq List.length_nil, hstate]
  dsimp only
  rw [h]
  rfl

theorem reqCommit_editing {s : State} (hstate : s.sch.pendingBank.state = .editing)
    (h : validationFault s.sch.pendingBank.bank = none) : reqCommit [] s = swapOrDefer (commitPending s) := by
  unfold reqCommit
  rw [withLength_of_eq List.length_nil, hstate]
  dsimp only
  rw [h]

theorem reqCommit_committed {s : State} (hstate : s.sch.pendingBank.state = .committed) :
    reqCommit [] s = swapOrDefer s := by
  unfold reqCommit
  rw [withLength_of_eq List.length_nil, hstate]

theorem swapOrDefer_deferred {s : State} (h : s.stk.mill ≠ .idle) :
    swapOrDefer s = (s, [0, 1] ++ enc16 s.sch.pendingBank.serial) := if_neg h

/-- Settles O39: the first check that fails, and the deferral outside IDLE. -/
theorem commitDeferred : Obligations.CommitDeferred := by
  rintro tag bank s hf rfl
  refine ⟨fun hstate => exec_of_request rfl (by decide) hf ?_, fun hstate hm =>
    exec_of_request rfl (by decide) hf (reqCommit_fault hstate (validationFault_no_mill hm)), fun hstate m hm =>
    ⟨fun k before after hset hbefore hk =>
      exec_of_request rfl (by decide) hf (reqCommit_fault hstate (validationFault_missing hm hset hbefore hk)),
      fun hset k r hr hbefore => ?_⟩, fun hmill hstate => exec_of_request rfl (by decide) hf
        ((reqCommit_committed hstate).trans (swapOrDefer_deferred hmill)), fun next hnext hmill hstate hvalid =>
      exec_of_request rfl (by decide) hf ?_⟩
  · change reqCommit [] s = _
    unfold reqCommit
    rw [withLength_of_eq List.length_nil, hstate]
    rfl
  · have hfault : ∀ field, r.orderFault = some field →
        exec (.commit tag []) s = .next (reply 0x09 tag ([4] ++ enc8 (Stand.pos k) ++ enc8 field ++ [0]) s) := fun field h =>
      exec_of_request rfl (by decide) hf (reqCommit_fault hstate ((validationFault_present hm hset).trans
        (orderFaultOf_some hr h fun j q hj hq => orderFault_none.mpr (hbefore j q hj hq))))
    refine ⟨fun h => (hfault 4 (if_pos (by omega))).trans rfl, fun h1 h2 => (hfault 3 ?_).trans rfl, fun h1 h2 h3 => (hfault 5 ?_).trans rfl⟩
    · rw [StandRecord.orderFault, if_neg (by omega), if_pos (by omega)]
    · rw [StandRecord.orderFault, if_neg (by omega), if_neg (by omega), if_pos (by omega)]
  · have hserial : advanceCounter s.sch.counter s.sch.active.serial =
        if next = s.sch.active.serial then (if next < 65535 then next + 1 else 1) else next := by
      rw [hnext]
      rfl
    rw [← hserial]
    exact (reqCommit_editing hstate (validationFault_of_validated hvalid)).trans (swapOrDefer_deferred hmill)

end Sys2Proof.Machine
end

section
/-! PROOFS. The loads into the pending bank (R8, R9): O37. -/

namespace Sys2Proof.Machine

/-! ## LOAD_STAND (R8) -/

theorem rd8_encStand (r : StandRecord) : rd8 (encStand r) 0 = outCode r.outCode := by
  unfold encStand
  simp only [List.append_assoc]
  exact rd8_of_enc8 (by have := outCode_le r.outCode; omega) _

/-- A stand record in its ranges has no failing field (R8). -/
theorem standBadField_encStand (x : Byte) (r : StandRecord) (h : r.inRange = true) : standBadField (x :: encStand r) 1 = none := by
  rw [standBadField, rdStand_encStand x r h, rd8_cons, rd8_encStand, standChecks_eq]
  exact firstFail_rangeChecks_none 1 _ (standFields_inRange h)

/-- The lowest-numbered field out of its range is the one named (R8). -/
theorem standBadField_some {body : List Byte} {i : Nat} {x lo hi : Int}
    (h : (standFields (rd8 body 1) (rdStand body 1))[i]? = some (x, lo, hi)) (hout : x < lo ∨ hi < x)
    (hbefore : ∀ j y a b, j < i → (standFields (rd8 body 1) (rdStand body 1))[j]? = some (y, a, b) → a ≤ y ∧ y ≤ b) :
    standBadField body 1 = some (i + 1) := by
  rw [standBadField, standChecks_eq, firstFail_rangeChecks 1 _ i x lo hi h hout hbefore, Nat.add_comm]

theorem reqLoadStand_taken {body : List Byte} {k : Stand} {r : StandRecord} (s : State) (hlen : body.length = 53)
    (hpos : standOfPos (rd8 body 0) = some k) (hfault : standBadField body 1 = none) (hr : rdStand body 1 = r) :
    reqLoadStand body s =
      (s.withSch { s.sch with pendingBank := loaded { s.sch.pendingBank.bank with
          stands := vset s.sch.pendingBank.bank.stands k (some r) } }, [0] ++ enc8 (Stand.pos k) ++ [1]) := by
  unfold reqLoadStand
  rw [withLength_of_eq hlen, hpos]
  dsimp only
  rw [hfault, hr]
  rfl

theorem reqLoadStand_fault {body : List Byte} {k : Stand} {field : Nat} (s : State) (hlen : body.length = 53)
    (hpos : standOfPos (rd8 body 0) = some k) (hfault : standBadField body 1 = some field) :
    reqLoadStand body s = (s, badParam (Stand.pos k) field 0) := by
  unfold reqLoadStand
  rw [withLength_of_eq hlen, hpos]
  dsimp only
  rw [hfault]
  rfl

theorem reqLoadStand_position {body : List Byte} (s : State) (hlen : body.length = 53) (h : rd8 body 0 = 0 ∨ 8 < rd8 body 0) :
    reqLoadStand body s = (s, badParam 0 0 0) := by
  unfold reqLoadStand
  rw [withLength_of_eq hlen, standOfPos_none h]
  rfl

/-! ## The active set of a LOAD_MILL body (R6, R178) -/

/-- The byte of a stand's position. -/
def posByte (k : Stand) : Byte := BitVec.ofNat 8 (Stand.pos k)

theorem posByte_toNat (k : Stand) : (posByte k).toNat = Stand.pos k := by
  revert k
  decide

theorem length_le_of_ascending {set : List Stand} (h : set.Pairwise (· < ·)) : set.length ≤ 8 := by
  have hnodup : set.Nodup := h.imp fun hab => ne_of_lt hab
  simpa using hnodup.length_le_card

/-- A body that begins with the count and the positions of a set names that set. -/
theorem rdPositions_of_take {body : List Byte} {set : List Stand} (hlen : set.length ≤ 8)
    (h : body.take (set.length + 1) = enc8 set.length ++ set.map posByte) :
    rd8 body 0 = set.length ∧ rdPositions body = set.map Stand.pos := by
  have hcount : rd8 body 0 = set.length := by
    have htake : rd8 (body.take (set.length + 1)) 0 = rd8 body 0 := by
      simp [rd8, List.getD_eq_getElem?_getD]
    rw [← htake, h, rd8_of_enc8 (by omega)]
  refine ⟨hcount, ?_⟩
  rw [rdPositions, hcount, Nat.min_eq_left hlen, ← Nat.add_sub_cancel (n := set.length) (m := 1), ← List.drop_take, h]
  change ((set.map posByte)).map (·.toNat) = _
  rw [List.map_map]
  exact List.map_congr_left fun k _ => posByte_toNat k

theorem ascending_positions {set : List Stand} (h : set.Pairwise (· < ·)) : ascending (set.map Stand.pos) = true := by
  rw [ascending_iff, List.pairwise_map]
  refine ⟨fun n hn => ?_, h.imp fun {a b} hab => Nat.add_lt_add_right hab 1⟩
  obtain ⟨k, -, rfl⟩ := List.mem_map.mp hn
  unfold Stand.pos
  omega

/-- The set that a body names is its ascending list of positions. -/
theorem activeSet_of_body (body : List Byte) (hbody : body.length = 38) :
    (inNat 1 8 (rd8 body 0) && ascending (rdPositions body)) = true ↔
      ∃ set : List Stand, set ≠ [] ∧ set.Pairwise (· < ·) ∧
        body.take (set.length + 1) = enc8 set.length ++ set.map posByte := by
  constructor
  · intro h
    rw [Bool.and_eq_true, ascending_iff] at h
    obtain ⟨hcount, hrange, hasc⟩ := h
    obtain ⟨hlow, hhigh⟩ : 1 ≤ rd8 body 0 ∧ rd8 body 0 ≤ 8 := of_decide_eq_true hcount
    obtain ⟨b, rest, rfl⟩ := List.exists_cons_of_length_pos (l := body) (by omega)
    have hn : rd8 (b :: rest) 0 = b.toNat := rfl
    rw [hn] at hlow hhigh
    have hpositions : rdPositions (b :: rest) = (rest.take b.toNat).map (·.toNat) := by
      rw [rdPositions, hn, Nat.min_eq_left hhigh]
      rfl
    have hset := filterMap_standOfPos _ hrange
    have hlen : ((rdPositions (b :: rest)).filterMap standOfPos).length = b.toNat := by
      rw [hset, hpositions]
      simp only [List.length_map, List.length_take, List.length_cons] at hbody ⊢
      omega
    refine ⟨(rdPositions (b :: rest)).filterMap standOfPos, ?_, pairwise_stands _ hrange hasc, ?_⟩
    · rw [← List.length_pos_iff, hlen]
      exact hlow
    · rw [hlen, List.take_succ_cons, enc8, BitVec.ofNat_toNat, BitVec.setWidth_eq, List.singleton_append, hset, hpositions,
        List.map_map, List.map_map]
      refine congrArg _ ?_
      conv_lhs => rw [← List.map_id (rest.take b.toNat)]
      refine List.map_congr_left fun x hx => ?_
      have hx' := hrange x.toNat (by rw [hpositions]; exact List.mem_map_of_mem hx)
      refine BitVec.eq_of_toNat_eq ?_
      simp only [Function.comp, posByte_toNat, Stand.pos, Fin.val_ofNat, id_eq]
      omega
  · rintro ⟨set, hne, hasc, h⟩
    have hlen := length_le_of_ascending hasc
    obtain ⟨hcount, hpositions⟩ := rdPositions_of_take hlen h
    rw [hcount, hpositions, ascending_positions hasc, Bool.and_true]
    exact decide_eq_true ⟨List.length_pos_iff.mpr hne, hlen⟩

/-! ## LOAD_MILL (R9) -/

theorem firstFail_cons_true (n : Nat) (l : List (Nat × Bool)) : firstFail ((n, true) :: l) = firstFail l := rfl

theorem firstFail_cons_false (n : Nat) (l : List (Nat × Bool)) : firstFail ((n, false) :: l) = some n := rfl

/-- Fields 3 to 8 as integers. -/
def millRanges (body : List Byte) : List (Int × Int × Int) := (millFields body).map fun c => ((c.1 : Int), (c.2.1 : Int), (c.2.2 : Int))

/-- The checks of a LOAD_MILL body are those of the active set, the span table, and R6's other items. -/
theorem millBadField_eq (body : List Byte) :
    millBadField body = firstFail ((1, inNat 1 8 (rd8 body 0) && ascending (rdPositions body)) ::
      (2, (List.finRange 7).all fun i => (rdSpan body i).inRange) :: rangeChecks 3 (millRanges body)) := by
  simp only [millBadField, millRanges, millFields, rangeChecks, List.map_cons, List.map_nil, List.mapIdx_cons, List.mapIdx_nil,
    inNat_eq_inInt]

theorem millRanges_getElem {body : List Byte} {j : Nat} {y a b : Int} (h : (millRanges body)[j]? = some (y, a, b)) :
    ∃ y' a' b' : Nat, (millFields body)[j]? = some (y', a', b') ∧ y = y' ∧ a = a' ∧ b = b' := by
  rw [millRanges, List.getElem?_map, Option.map_eq_some_iff] at h
  obtain ⟨⟨y', a', b'⟩, hget, he⟩ := h
  cases he
  exact ⟨y', a', b', hget, rfl, rfl, rfl⟩

theorem millFields_fail {body : List Byte} {i x lo hi : Nat} (h : (millFields body)[i]? = some (x, lo, hi))
    (hout : x < lo ∨ hi < x) (hbefore : ∀ j y a b, j < i → (millFields body)[j]? = some (y, a, b) → a ≤ y ∧ y ≤ b) :
    firstFail (rangeChecks 3 (millRanges body)) = some (3 + i) := by
  refine firstFail_rangeChecks 3 _ i x lo hi (by rw [millRanges, List.getElem?_map, h]; rfl) (by omega) fun j y a b hj hget => ?_
  obtain ⟨y', a', b', hget', rfl, rfl, rfl⟩ := millRanges_getElem hget
  have := hbefore j y' a' b' hj hget'
  omega

theorem spanInRange_iff (body : List Byte) (i : Fin 7) : (rdSpan body i).inRange = true ↔ SpanInRange body i := by
  simp only [SpanEntry.inRange, inNat, Bool.and_eq_true, decide_eq_true_eq, SpanInRange, and_assoc]
  rfl

theorem spans_all {body : List Byte} (h : ∀ i : Fin 7, SpanInRange body i) :
    ((List.finRange 7).all fun i => (rdSpan body i).inRange) = true :=
  List.all_eq_true.mpr fun i _ => (spanInRange_iff body i).mpr (h i)

theorem spans_fail {body : List Byte} {i : Fin 7} (h : ¬SpanInRange body i) :
    ((List.finRange 7).all fun i => (rdSpan body i).inRange) = false :=
  List.all_eq_false.mpr ⟨i, List.mem_finRange i, by rw [spanInRange_iff]; exact h⟩

theorem millBadSpan_eq {body : List Byte} {i : Fin 7} (h : ¬SpanInRange body i) (hbefore : ∀ j : Fin 7, j < i → SpanInRange body j) :
    millBadSpan body = i.val + 2 := by
  have hfind : ((List.finRange 7).find? fun i => !(rdSpan body i).inRange) = some i := by
    refine find_finRange ?_ fun j hj => ?_
    · rw [Bool.not_eq_true', ← Bool.not_eq_true, spanInRange_iff]
      exact h
    · rw [(spanInRange_iff body j).mpr (hbefore j hj)]
      rfl
  rw [millBadSpan, hfind]

theorem reqLoadMill_fault {body : List Byte} {field : Nat} (s : State) (hlen : body.length = 38)
    (h : millBadField body = some field) :
    reqLoadMill body s = (s, badParam 0 field (if field = 2 then millBadSpan body else 0)) := by
  unfold reqLoadMill
  rw [withLength_of_eq hlen, h]
  rfl

theorem reqLoadMill_taken {body : List Byte} {m : MillRecord} (s : State) (hlen : body.length = 38) (h : millBadField body = none)
    (hm : rdMill body = m) :
    reqLoadMill body s =
      (s.withSch { s.sch with pendingBank := loaded { s.sch.pendingBank.bank with mill := some m } }, [0, 1]) := by
  unfold reqLoadMill
  rw [withLength_of_eq hlen, h, hm]
  rfl

/-! ## A mill record in bytes -/

/-- The bytes of the span table. -/
def spanBytes (m : MillRecord) : List Byte := ((List.finRange 7).map fun i => encSpan (vget m.spanTable i)).flatten

/-- The bytes behind the span table. -/
def millTail (m : MillRecord) : List Byte :=
  enc8 m.nX ++ enc16 m.hEntry ++ enc8 (srcCode m.entrySource) ++ enc16 m.km ++ enc8 m.mdb ++ enc8 m.nHold

theorem spanBytes_length (m : MillRecord) : (spanBytes m).length = 21 := rfl

/-- The eight places of the active set, the unused ones among them. -/
def setBytes (m : MillRecord) (unused : Nat → Byte) : List Byte :=
  m.activeSet.map posByte ++ (List.range (8 - m.activeSet.length)).map unused

theorem setBytes_length {m : MillRecord} (unused : Nat → Byte) (h : m.activeSet.length ≤ 8) : (setBytes m unused).length = 8 := by
  simp [setBytes]
  omega

theorem encMill_eq (m : MillRecord) (unused : Nat → Byte) :
    encMill m unused = enc8 m.activeSet.length ++ (setBytes m unused ++ (spanBytes m ++ millTail m)) := by
  unfold encMill setBytes spanBytes millTail
  simp only [List.append_assoc]
  rfl

theorem encMill_length {m : MillRecord} (unused : Nat → Byte) (h : m.activeSet.length ≤ 8) : (encMill m unused).length = 38 := by
  rw [encMill_eq]
  simp [setBytes_length unused h, spanBytes_length, millTail]

theorem take_encMill (m : MillRecord) (unused : Nat → Byte) :
    (encMill m unused).take (m.activeSet.length + 1) = enc8 m.activeSet.length ++ m.activeSet.map posByte := by
  rw [encMill_eq, setBytes, List.append_assoc, ← List.append_assoc]
  exact List.take_left' (by simp [Nat.add_comm])

theorem drop9_encMill {m : MillRecord} (unused : Nat → Byte) (h : m.activeSet.length ≤ 8) :
    (encMill m unused).drop 9 = spanBytes m ++ millTail m := by
  rw [encMill_eq, ← List.append_assoc]
  refine List.drop_left' ?_
  rw [List.length_append, setBytes_length unused h]
  rfl

theorem drop30_encMill {m : MillRecord} (unused : Nat → Byte) (h : m.activeSet.length ≤ 8) :
    (encMill m unused).drop 30 = millTail m := by
  rw [show 30 = 9 + 21 from rfl, ← List.drop_drop, drop9_encMill unused h]
  exact List.drop_left' (spanBytes_length m)

theorem rdSpan_encMill {m : MillRecord} (unused : Nat → Byte) (h : m.activeSet.length ≤ 8) (i : Fin 7)
    (hi : (vget m.spanTable i).inRange = true) : rdSpan (encMill m unused) i = vget m.spanTable i := by
  simp only [SpanEntry.inRange, inNat, Bool.and_eq_true, decide_eq_true_eq] at hi
  obtain ⟨rest, hblock⟩ : ∃ rest, (encMill m unused).drop (9 + 3 * i.val) = encSpan (vget m.spanTable i) ++ rest := by
    refine ⟨(((List.finRange 7).drop (i.val + 1)).map fun j => encSpan (vget m.spanTable j)).flatten ++ millTail m, ?_⟩
    rw [← List.drop_drop, drop9_encMill unused h, List.drop_append_of_le_length (by rw [spanBytes_length]; omega), spanBytes,
      drop_blocks_of_getElem (fun j => encSpan (vget m.spanTable j)) 3 (fun _ => rfl) (List.finRange 7) i.val i (by simp),
      List.append_assoc]
  have hitem : ∀ j, rd8 (encMill m unused) (9 + 3 * i.val + j) = rd8 (encSpan (vget m.spanTable i) ++ rest) j := fun j => by
    rw [← rd8_drop, hblock]
  have h0 := hitem 0
  have h1 := hitem 1
  have h2 := hitem 2
  simp only [encSpan, List.append_assoc, rd8_append, length_enc8, rd8_enc8, le_refl, Nat.reduceLeDiff, Nat.reduceSub,
    Nat.add_zero] at h0 h1 h2
  simp only [rdSpan]
  rw [h0, show 10 + 3 * i.val = 9 + 3 * i.val + 1 by omega, h1, show 11 + 3 * i.val = 9 + 3 * i.val + 2 by omega, h2]
  cases hv : vget m.spanTable i
  simp only [hv] at hi
  congr 1 <;> dsimp only <;> omega

theorem srcOfCode_srcCode (c : EntrySrc) : srcOfCode (srcCode c) = c := by cases c <;> rfl

theorem srcCode_le (c : EntrySrc) : srcCode c ≤ 1 := by cases c <;> simp [srcCode]

/-- The items behind the span table read back. -/
theorem millTail_items {m : MillRecord} {body : List Byte} (hbody : body.drop 30 = millTail m) (hin : m.inRange = true) :
    millFields body = [(m.nX, 1, 20), (m.hEntry, 0, 65000), (srcCode m.entrySource, 0, 1), (m.km, 0, 256), (m.mdb, 0, 255),
      (m.nHold, 0, 24)] := by
  simp only [MillRecord.inRange, Bool.and_eq_true, inNat, decide_eq_true_eq] at hin
  obtain ⟨⟨⟨⟨⟨-, hnX⟩, hentry⟩, hkm⟩, hmdb⟩, hhold⟩ := hin
  have hsrc := srcCode_le m.entrySource
  simp only [millFields]
  rw [show rd8 body 30 = rd8 (body.drop 30) 0 from (rd8_drop body 30 0).symm,
    show rd16 body 31 = rd16 (body.drop 30) 1 from (rd16_drop body 30 1).symm,
    show rd8 body 33 = rd8 (body.drop 30) 3 from (rd8_drop body 30 3).symm,
    show rd16 body 34 = rd16 (body.drop 30) 4 from (rd16_drop body 30 4).symm,
    show rd8 body 36 = rd8 (body.drop 30) 6 from (rd8_drop body 30 6).symm,
    show rd8 body 37 = rd8 (body.drop 30) 7 from (rd8_drop body 30 7).symm, hbody]
  unfold millTail
  simp only [List.append_assoc, rd8_append, rd16_append, length_enc8, length_enc16, rd8_enc8, rd16_enc16, rd8_enc8_end,
    Nat.reduceLeDiff, Nat.reduceSub, Nat.one_le_ofNat, le_refl]
  rw [Nat.mod_eq_of_lt (by omega), Nat.mod_eq_of_lt (by omega), Nat.mod_eq_of_lt (by omega), Nat.mod_eq_of_lt (by omega),
    Nat.mod_eq_of_lt (by omega), Nat.mod_eq_of_lt (by omega)]

theorem millRecord_inRange_iff (m : MillRecord) :
    m.inRange = true ↔ m.activeSet ≠ [] ∧ m.activeSet.Pairwise (· < ·) ∧ (∀ i, (vget m.spanTable i).inRange = true) ∧
      (1 ≤ m.nX ∧ m.nX ≤ 20) ∧ m.hEntry ≤ 65000 ∧ m.km ≤ 256 ∧ m.mdb ≤ 255 ∧ m.nHold ≤ 24 := by
  simp [MillRecord.inRange, inNat, and_assoc]

/-- A mill record in its ranges reads back from its bytes, whatever the unused places hold (R178). -/
theorem rdMill_encMill {m : MillRecord} (unused : Nat → Byte) (hin : m.inRange = true) :
    rdMill (encMill m unused) = m ∧ millBadField (encMill m unused) = none := by
  obtain ⟨hne, hasc, hspans, hnX, hentry, hkm, hmdb, hhold⟩ := (millRecord_inRange_iff m).mp hin
  have hlen := length_le_of_ascending hasc
  obtain ⟨hcount, hpositions⟩ := rdPositions_of_take hlen (take_encMill m unused)
  have hfields := millTail_items (drop30_encMill unused hlen) hin
  have hspan : ∀ i, rdSpan (encMill m unused) i = vget m.spanTable i := fun i => rdSpan_encMill unused hlen i (hspans i)
  constructor
  · simp only [millFields, List.cons.injEq, Prod.mk.injEq, and_true] at hfields
    obtain ⟨h3, h4, h5, h6, h7, h8⟩ := hfields
    have hset : (m.activeSet.map Stand.pos).filterMap standOfPos = m.activeSet := by
      rw [List.filterMap_map]
      exact (List.filterMap_congr fun k _ => standOfPos_pos k).trans List.filterMap_some
    have htable : vtab (rdSpan (encMill m unused)) = m.spanTable := by
      refine (congrArg vtab (funext hspan)).trans (Vector.ext fun i hi => ?_)
      simp [vtab, vget]
    rw [rdMill, hpositions, hset, htable, h3, h4, h5, h6, h7, h8, srcOfCode_srcCode]
  · have hactive : (inNat 1 8 (rd8 (encMill m unused) 0) && ascending (rdPositions (encMill m unused))) = true := by
      rw [hcount, hpositions, ascending_positions hasc, Bool.and_true]
      exact decide_eq_true ⟨List.length_pos_iff.mpr hne, hlen⟩
    have hall : ((List.finRange 7).all fun i => (rdSpan (encMill m unused) i).inRange) = true :=
      List.all_eq_true.mpr fun i _ => by rw [hspan]; exact hspans i
    rw [millBadField_eq, hactive, hall, firstFail_cons_true, firstFail_cons_true]
    refine firstFail_rangeChecks_none 3 _ ?_
    rw [millRanges, hfields]
    have := srcCode_le m.entrySource
    simp only [List.map_cons, List.map_nil, List.mem_cons, List.not_mem_nil, or_false, forall_eq_or_imp, forall_eq]
    omega

/-- Settles O37: the bodies read back, and the lowest failing field is named. -/
theorem loadsWritePendingBank : Obligations.LoadsWritePendingBank := by
  intro tag s hf
  refine ⟨fun k r hr => ?_, fun body hlen => ⟨fun h =>
    exec_of_request rfl (by decide) hf (reqLoadStand_position s hlen h), fun k i x lo hi hk hget hout hbefore => ?_⟩,
    fun m unused hm => ?_, fun body active hlen hactive => ⟨fun hnot => ?_, fun hset => ⟨fun i hbad hbefore => ?_,
      fun hspans i x lo hi hget hout hbefore => ?_⟩⟩⟩
  · have hpos : standOfPos (rd8 (posByte k :: encStand r) 0) = some k := by
      rw [rd8_head, posByte_toNat, standOfPos_pos]
    have hlen : (posByte k :: encStand r).length = 53 := by
      rw [List.length_cons, encStand_length]
    rw [show enc8 (Stand.pos k) ++ encStand r = posByte k :: encStand r from List.singleton_append]
    have hans := reqLoadStand_taken s hlen hpos (standBadField_encStand _ r hr) (rdStand_encStand _ r hr)
    exact exec_of_request (c := .loadStand tag _) (kind := 0x07) (tag := tag) rfl (by decide) hf hans
  · refine exec_of_request rfl (by decide) hf (reqLoadStand_fault s hlen ?_ (standBadField_some hget hout hbefore))
    rw [hk, standOfPos_pos]
  · obtain ⟨hread, hfault⟩ := rdMill_encMill unused hm
    exact exec_of_request rfl (by decide) hf
      (reqLoadMill_taken s (encMill_length unused (length_le_of_ascending ((millRecord_inRange_iff m).mp hm).2.1)) hfault hread)
  · have hset : (inNat 1 8 (rd8 body 0) && ascending (rdPositions body)) = false := by
      rw [← Bool.not_eq_true, activeSet_of_body body hlen]
      exact fun h => hnot (hactive.mpr h)
    refine exec_of_request rfl (by decide) hf (reqLoadMill_fault (field := 1) s hlen ?_)
    rw [millBadField_eq, hset, firstFail_cons_false]
  · have hset' := (activeSet_of_body body hlen).mpr (hactive.mp hset)
    have hfault : millBadField body = some 2 := by
      rw [millBadField_eq, hset', spans_fail hbad, firstFail_cons_true, firstFail_cons_false]
    refine exec_of_request rfl (by decide) hf ((reqLoadMill_fault s hlen hfault).trans ?_)
    rw [if_pos rfl, millBadSpan_eq hbad hbefore]
    rfl
  · have hset' := (activeSet_of_body body hlen).mpr (hactive.mp hset)
    have hfault : millBadField body = some (i + 3) := by
      rw [millBadField_eq, hset', spans_all hspans, firstFail_cons_true, firstFail_cons_true, millFields_fail hget hout hbefore,
        Nat.add_comm]
    refine exec_of_request rfl (by decide) hf ((reqLoadMill_fault s hlen hfault).trans ?_)
    rw [if_neg (by omega)]
    rfl

end Sys2Proof.Machine
end

section
/-! PROOFS. CONFIGURE, the acceptance table and the action table (R18, R25, R26, R152): O34, O35, O36. -/

namespace Sys2Proof.Machine

theorem vtab_vget {α : Type} {n : Nat} (v : Vector α n) : (vtab fun i => vget v i) = v :=
  Vector.ext fun i hi => by simp [vtab, vget]

theorem inNat_eq_true (lo hi x : Nat) : inNat lo hi x = true ↔ lo ≤ x ∧ x ≤ hi := decide_eq_true_iff

theorem inNat_eq_false (lo hi x : Nat) : inNat lo hi x = false ↔ x < lo ∨ hi < x := by
  rw [inNat, decide_eq_false_iff_not]
  omega

/-! ## CONFIGURE (R18) -/

theorem configureFault_short {body : List Byte} (h : rd8 body 0 < 2 ∨ 15 < rd8 body 0) : configureFault body = some (0, 1) :=
  if_pos (by rw [(inNat_eq_false _ _ _).mpr h]; rfl)

theorem configureFault_long {body : List Byte} (h0 : 2 ≤ rd8 body 0 ∧ rd8 body 0 ≤ 15) (h : rd8 body 1 < 20 ∨ 250 < rd8 body 1) :
    configureFault body = some (0, 2) := by
  rw [configureFault, (inNat_eq_true _ _ _).mpr h0, (inNat_eq_false _ _ _).mpr h]
  rfl

theorem configureFault_tag {body : List Byte} {k : Stand} (h0 : 2 ≤ rd8 body 0 ∧ rd8 body 0 ≤ 15)
    (h1 : 20 ≤ rd8 body 1 ∧ rd8 body 1 ≤ 250) (h : 4095 < rd16 body (2 + 2 * k.val))
    (hbefore : ∀ j : Stand, j < k → rd16 body (2 + 2 * j.val) ≤ 4095) : configureFault body = some (Stand.pos k, 3) := by
  have hfind : (allStands.find? fun k => !inNat 0 4095 (rd16 body (2 + 2 * k.val))) = some k :=
    find_finRange (by rw [(inNat_eq_false _ _ _).mpr (.inr h)]; rfl) fun j hj => by
      rw [(inNat_eq_true _ _ _).mpr ⟨Nat.zero_le _, hbefore j hj⟩]; rfl
  rw [configureFault, (inNat_eq_true _ _ _).mpr h0, (inNat_eq_true _ _ _).mpr h1, hfind]
  rfl

theorem configureFault_timeout {body : List Byte} (h0 : 2 ≤ rd8 body 0 ∧ rd8 body 0 ≤ 15)
    (h1 : 20 ≤ rd8 body 1 ∧ rd8 body 1 ≤ 250) (htags : ∀ k : Stand, rd16 body (2 + 2 * k.val) ≤ 4095) :
    configureFault body = (allChans.find? fun c => !inNat 1 255 (rd8 body (18 + c.val))).map fun c => (c.val, 4) := by
  have hfind : (allStands.find? fun k => !inNat 0 4095 (rd16 body (2 + 2 * k.val))) = none :=
    List.find?_eq_none.mpr fun k _ => by
      rw [(inNat_eq_true _ _ _).mpr ⟨Nat.zero_le _, htags k⟩]; simp
  rw [configureFault, (inNat_eq_true _ _ _).mpr h0, (inNat_eq_true _ _ _).mpr h1, hfind]
  rfl

theorem reqConfigure_fault {body : List Byte} {item field : Nat} (s : State) (hlen : body.length = 50) (hmill : s.stk.mill = .idle)
    (h : configureFault body = some (item, field)) : reqConfigure body s = (s, badParam item field 0) := by
  unfold reqConfigure
  rw [withLength_of_eq hlen, if_neg (not_not.mpr hmill), h]
  rfl

theorem reqConfigure_taken {body : List Byte} {config : ConfigRecord} (s : State) (hlen : body.length = 50)
    (hmill : s.stk.mill = .idle) (h : configureFault body = none) (hconfig : configured body s.sch.config = config) :
    reqConfigure body s =
      ({ s with
          sch := { s.sch with config := config }
          flc := { s.flc with slots := vtab fun k => if vget config.tags k = 0 then none else vget s.flc.slots k } }, [0]) := by
  unfold reqConfigure
  rw [withLength_of_eq hlen, if_neg (not_not.mpr hmill), h, hconfig]
  rfl

theorem reqConfigure_wrongState {body : List Byte} (s : State) (hlen : body.length = 50) (hmill : s.stk.mill ≠ .idle) :
    reqConfigure body s = (s, [5]) := by
  unfold reqConfigure
  rw [withLength_of_eq hlen, if_pos hmill]
  rfl

theorem length_blocks {α β : Type} (f : α → List β) (n : Nat) (hf : ∀ a, (f a).length = n) (l : List α) :
    ((l.map f).flatten).length = l.length * n := by
  rw [flatten_length _ n (by simpa using fun a _ => hf a), List.length_map, Nat.mul_comm]

/-- The tags of a CONFIGURE body. -/
def tagBytes (tags : Vector (BitVec 12) 8) : List Byte := (allStands.map fun k => enc16 (vget tags k).toNat).flatten

/-- The freshness timeouts of a CONFIGURE body. -/
def freshnessBytes (freshness : Vector Nat 32) : List Byte := (allChans.map fun c => enc8 (vget freshness c)).flatten

theorem tagBytes_length (tags : Vector (BitVec 12) 8) : (tagBytes tags).length = 16 :=
  length_blocks _ 2 (fun _ => length_enc16 _) allStands

theorem freshnessBytes_length (freshness : Vector Nat 32) : (freshnessBytes freshness).length = 32 :=
  length_blocks _ 1 (fun _ => length_enc8 _) allChans

theorem drop_tagBytes (tags : Vector (BitVec 12) 8) (k : Stand) :
    ∃ rest, (tagBytes tags).drop (2 * k.val) = enc16 (vget tags k).toNat ++ rest :=
  ⟨_, drop_blocks_of_getElem (fun k => enc16 (vget tags k).toNat) 2 (fun _ => length_enc16 _) allStands k.val k
    (by simp [allStands_eq])⟩

theorem drop_freshnessBytes (freshness : Vector Nat 32) (c : Chan) :
    ∃ rest, (freshnessBytes freshness).drop c.val = enc8 (vget freshness c) ++ rest :=
  ⟨_, (congrArg (fun i => (freshnessBytes freshness).drop i) (Nat.one_mul c.val).symm).trans
    (drop_blocks_of_getElem (fun c => enc8 (vget freshness c)) 1 (fun _ => length_enc8 _) allChans c.val c (by simp [allChans]))⟩

/-- The body of a CONFIGURE request. -/
def configureBody (short long : Nat) (tags : Vector (BitVec 12) 8) (freshness : Vector Nat 32) : List Byte :=
  enc8 short ++ enc8 long ++ tagBytes tags ++ freshnessBytes freshness

section
variable (short long : Nat) (tags : Vector (BitVec 12) 8) (freshness : Vector Nat 32)

theorem configureBody_length : (configureBody short long tags freshness).length = 50 := by
  simp only [configureBody, List.length_append, length_enc8, tagBytes_length, freshnessBytes_length]

theorem rd16_configureBody (k : Stand) : rd16 (configureBody short long tags freshness) (2 + 2 * k.val) = (vget tags k).toNat := by
  obtain ⟨rest, hrest⟩ := drop_tagBytes tags k
  rw [← Nat.add_zero (2 + 2 * k.val), ← rd16_drop, ← List.drop_drop, configureBody, List.append_assoc,
    List.drop_left' (by simp only [List.length_append, length_enc8]),
    List.drop_append_of_le_length (by rw [tagBytes_length]; omega), hrest, List.append_assoc,
    rd16_of_enc16 (by have := (vget tags k).isLt; omega)]

theorem rd8_configureBody (c : Chan) (h : vget freshness c ≤ 255) :
    rd8 (configureBody short long tags freshness) (18 + c.val) = vget freshness c := by
  obtain ⟨rest, hrest⟩ := drop_freshnessBytes freshness c
  rw [← Nat.add_zero (18 + c.val), ← rd8_drop, ← List.drop_drop, configureBody,
    List.drop_left' (by simp only [List.length_append, length_enc8, tagBytes_length]), hrest, rd8_of_enc8 (by omega)]

end

theorem configureFault_configureBody {short long : Nat} (tags : Vector (BitVec 12) 8) {freshness : Vector Nat 32}
    (hs : 2 ≤ short ∧ short ≤ 15) (hl : 20 ≤ long ∧ long ≤ 250) (hfresh : ∀ c, 1 ≤ vget freshness c ∧ vget freshness c ≤ 255)
    (config : ConfigRecord) :
    configureFault (configureBody short long tags freshness) = none ∧
      configured (configureBody short long tags freshness) config =
        { config with shortCount := short, longCount := long, tags := tags, freshness := freshness } := by
  have h0 : rd8 (configureBody short long tags freshness) 0 = short := by
    simp only [configureBody, List.append_assoc]
    exact rd8_of_enc8 (by omega) _
  have h1 : rd8 (configureBody short long tags freshness) 1 = long := by
    simp only [configureBody, List.append_assoc, rd8_append, length_enc8, le_refl, Nat.sub_self]
    exact rd8_of_enc8 (by omega) _
  have htags : ∀ k : Stand, rd16 (configureBody short long tags freshness) (2 + 2 * k.val) = (vget tags k).toNat :=
    rd16_configureBody short long tags freshness
  have hchans : ∀ c : Chan, rd8 (configureBody short long tags freshness) (18 + c.val) = vget freshness c :=
    fun c => rd8_configureBody short long tags freshness c (hfresh c).2
  constructor
  · rw [configureFault_timeout (by omega) (by omega) fun k => by rw [htags]; have := (vget tags k).isLt; omega,
      Option.map_eq_none_iff, List.find?_eq_none]
    intro c _
    rw [hchans, (inNat_eq_true _ _ _).mpr (hfresh c)]
    simp
  · simp only [configured, h0, h1, htags, hchans, BitVec.ofNat_toNat, BitVec.setWidth_eq, vtab_vget]

/-- Settles O34: the items of the body read back, or the first of them out of its range is named. -/
theorem configureReplacesItems : Obligations.ConfigureReplacesItems := by
  intro tag s hf
  refine ⟨fun body hlen hmill => exec_of_request rfl (by decide) hf (reqConfigure_wrongState s hlen hmill),
    fun short long tags freshness body hbody hs1 hs2 hl1 hl2 hfresh hmill => ?_, fun body hlen hmill => ?_⟩
  · obtain rfl : body = configureBody short long tags freshness := hbody
    obtain ⟨hfault, hconfig⟩ := configureFault_configureBody tags ⟨hs1, hs2⟩ ⟨hl1, hl2⟩ hfresh s.sch.config
    have hans := reqConfigure_taken s (configureBody_length short long tags freshness) hmill hfault hconfig
    have hexec := exec_of_request (c := .configure tag _) (kind := 0x03) (tag := tag) rfl (by decide) hf hans
    exact hexec
  · refine ⟨fun h => exec_of_request rfl (by decide) hf (reqConfigure_fault s hlen hmill (configureFault_short h)),
      fun hs1 hs2 => ⟨fun h => exec_of_request rfl (by decide) hf
        (reqConfigure_fault s hlen hmill (configureFault_long ⟨hs1, hs2⟩ h)), fun hl1 hl2 => ⟨fun k hk hbefore =>
          exec_of_request rfl (by decide) hf
            (reqConfigure_fault s hlen hmill (configureFault_tag ⟨hs1, hs2⟩ ⟨hl1, hl2⟩ hk hbefore)),
          fun htags c hc hbefore => exec_of_request rfl (by decide) hf (reqConfigure_fault s hlen hmill ?_)⟩⟩⟩
    have hfind : (allChans.find? fun c => !inNat 1 255 (rd8 body (18 + c.val))) = some c :=
      find_finRange (by rw [hc]; rfl) fun d hd => by
        rw [(inNat_eq_true _ _ _).mpr ⟨hbefore d hd, Nat.le_of_lt_succ (rd8_lt _ _)⟩]; rfl
    rw [configureFault_timeout ⟨hs1, hs2⟩ ⟨hl1, hl2⟩ htags, hfind]
    rfl

end Sys2Proof.Machine
end

section
/-! PROOFS. The acceptance table and the action table (R25, R26, R152): O35, O36. -/

namespace Sys2Proof.Machine

/-! ## An entry in bytes (R23) -/

theorem rdEntry_drop (body : List Byte) (o : Nat) : rdEntry body o = rdEntry (body.drop o) 0 := by
  simp only [rdEntry, rd8_drop, rd16_drop, Nat.add_zero, Nat.zero_add]

theorem entryBadField_drop (body : List Byte) (o : Nat) : entryBadField body o = entryBadField (body.drop o) 0 := by
  simp only [entryBadField, rd8_drop, rd16_drop, Nat.add_zero, Nat.zero_add]

/-- Five items laid out as an acceptance entry. -/
def entryBytes (enabled tag mask quantity channel : Nat) : List Byte :=
  enc8 enabled ++ enc16 tag ++ enc16 mask ++ enc8 quantity ++ enc8 channel

/-- The items of an entry's bytes. -/
theorem entryBytes_items {enabled tag mask quantity channel : Nat} (rest : List Byte) (he : enabled < 256) (ht : tag < 65536)
    (hm : mask < 65536) (hq : quantity < 256) (hc : channel < 256) :
    rd8 (entryBytes enabled tag mask quantity channel ++ rest) 0 = enabled ∧
      rd16 (entryBytes enabled tag mask quantity channel ++ rest) 1 = tag ∧
      rd16 (entryBytes enabled tag mask quantity channel ++ rest) 3 = mask ∧
      rd8 (entryBytes enabled tag mask quantity channel ++ rest) 5 = quantity ∧
      rd8 (entryBytes enabled tag mask quantity channel ++ rest) 6 = channel := by
  simp only [entryBytes, List.append_assoc, rd8_append, rd16_append, length_enc8, length_enc16, rd8_enc8, rd16_enc16,
    Nat.reduceLeDiff, Nat.reduceSub, le_refl]
  omega

theorem firstFail_cons (n : Nat) (b : Bool) (l : List (Nat × Bool)) :
    firstFail ((n, b) :: l) = if b = true then firstFail l else some n := by
  cases b <;> rfl

/-- The lowest-numbered field of an entry out of its range (R25). -/
theorem entryBadField_items (body : List Byte) :
    entryBadField body 0 =
      if 1 < rd8 body 0 then some 1 else if 4095 < rd16 body 1 then some 2 else if 4095 < rd16 body 3 then some 3
      else if 14 < rd8 body 5 then some 4 else if 31 < rd8 body 6 then some 5 else none := by
  simp only [entryBadField, firstFail_cons, inNat_eq_true, Nat.zero_le, true_and, Nat.zero_add,
    show firstFail [] = none from rfl]
  grind

/-- An entry with an item out of its range fails on the lowest-numbered one. -/
theorem entryBadField_entryBytes {enabled tag mask quantity channel field : Nat} (rest : List Byte) (he : enabled < 256)
    (ht : tag < 65536) (hm : mask < 65536) (hq : quantity < 256) (hc : channel < 256)
    (hbad : 1 < enabled ∨ 4095 < tag ∨ 4095 < mask ∨ 14 < quantity ∨ 31 < channel)
    (hfield : field =
      (if 1 < enabled then 1 else if 4095 < tag then 2 else if 4095 < mask then 3 else if 14 < quantity then 4 else 5)) :
    entryBadField (entryBytes enabled tag mask quantity channel ++ rest) 0 = some field := by
  obtain ⟨h0, h1, h3, h5, h6⟩ := entryBytes_items rest he ht hm hq hc
  rw [entryBadField_items, h0, h1, h3, h5, h6, hfield]
  grind

theorem encEntry_eq (e : AcceptEntry) :
    encEntry e = entryBytes e.enabled.toNat e.tag.toNat e.mask.toNat e.quantity e.channel.val := rfl

/-- An entry in its ranges reads back, and has no failing field. -/
theorem entry_readsBack (e : AcceptEntry) (rest : List Byte) (h : e.quantity ≤ 14) :
    rdEntry (encEntry e ++ rest) 0 = e ∧ entryBadField (encEntry e ++ rest) 0 = none := by
  have he := toNat_le_one e.enabled
  have ht := e.tag.isLt
  have hm := e.mask.isLt
  have hc := e.channel.isLt
  obtain ⟨h0, h1, h3, h5, h6⟩ := entryBytes_items (enabled := e.enabled.toNat) (tag := e.tag.toNat) (mask := e.mask.toNat)
    (quantity := e.quantity) (channel := e.channel.val) rest (by omega) (by omega) (by omega) (by omega) (by omega)
  rw [encEntry_eq]
  constructor
  · rw [rdEntry, h0, h1, h3, h5, h6]
    cases e with
    | mk enabled tag mask quantity channel => cases enabled <;> simp
  · rw [entryBadField_items, h0, h1, h3, h5, h6, if_neg (by omega), if_neg (by omega), if_neg (by omega), if_neg (by omega),
      if_neg (by omega)]

/-! ## A run of entries -/

/-- A body of SET_ACCEPT: its run, and the bytes behind. -/
def runBody (first count : Nat) (es : List AcceptEntry) (rest : List Byte) : List Byte :=
  enc8 first ++ enc8 count ++ (es.map encEntry).flatten ++ rest

theorem runBody_items {first count : Nat} (es : List AcceptEntry) (rest : List Byte) (hf : first < 256) (hc : count < 256) :
    rd8 (runBody first count es rest) 0 = first ∧ rd8 (runBody first count es rest) 1 = count ∧
      (runBody first count es rest).length = 2 + 7 * es.length + rest.length := by
  refine ⟨?_, ?_, ?_⟩
  · simp only [runBody, List.append_assoc, rd8_of_enc8 hf]
  · simp only [runBody, List.append_assoc, rd8_append, length_enc8, le_refl, Nat.sub_self, rd8_of_enc8 hc]
  · simp only [runBody, List.length_append, length_enc8, length_blocks encEntry 7 encEntry_length]
    omega

theorem drop_runBody {first count : Nat} {es : List AcceptEntry} {rest : List Byte} {i : Nat} {e : AcceptEntry} (h : es[i]? = some e) :
    ∃ l, (runBody first count es rest).drop (2 + 7 * i) = encEntry e ++ l := by
  obtain ⟨hi, -⟩ := List.getElem?_eq_some_iff.mp h
  refine ⟨((es.drop (i + 1)).map encEntry).flatten ++ rest, ?_⟩
  rw [← List.drop_drop, runBody, List.append_assoc, List.drop_left' (by simp only [List.length_append, length_enc8]),
    List.drop_append_of_le_length (by rw [length_blocks encEntry 7 encEntry_length]; omega),
    drop_blocks_of_getElem encEntry 7 encEntry_length es i e h, List.append_assoc]

theorem drop_runBody_end {first count : Nat} {es : List AcceptEntry} {rest : List Byte} :
    (runBody first count es rest).drop (2 + 7 * es.length) = rest := by
  rw [runBody, List.drop_left']
  rw [List.length_append, length_blocks encEntry 7 encEntry_length, List.length_append, length_enc8, length_enc8]
  omega

theorem entryBadField_runBody {first count : Nat} {es : List AcceptEntry} {rest : List Byte} {i : Nat} {e : AcceptEntry}
    (h : es[i]? = some e) (hq : e.quantity ≤ 14) :
    entryBadField (runBody first count es rest) (2 + 7 * i) = none ∧ rdEntry (runBody first count es rest) (2 + 7 * i) = e := by
  obtain ⟨l, hl⟩ := drop_runBody (first := first) (count := count) (rest := rest) h
  obtain ⟨hread, hbad⟩ := entry_readsBack e l hq
  rw [entryBadField_drop, rdEntry_drop, hl]
  exact ⟨hbad, hread⟩

/-- The first number below a bound that a check names. -/
theorem findSome_range {α : Type} {f : Nat → Option α} {n i : Nat} {a : α} (hi : i < n) (h : f i = some a)
    (hbefore : ∀ j, j < i → f j = none) : (List.range n).findSome? f = some a := by
  obtain ⟨m, rfl⟩ : ∃ m, n = i + (m + 1) := ⟨n - i - 1, by omega⟩
  refine List.findSome?_eq_some_iff.mpr ⟨List.range i, i, (List.range m).map fun j => i + (j + 1), ?_, h,
    fun j hj => hbefore j (List.mem_range.mp hj)⟩
  rw [List.range_add, List.range_succ_eq_map]
  simp

theorem acceptRun_false {first count : Nat} (h : 23 < first ∨ count = 0 ∨ 24 < first + count) : acceptRun first count = false :=
  decide_eq_false (by omega)

theorem acceptRun_true {first count : Nat} (h : 1 ≤ count ∧ first + count ≤ 24) : acceptRun first count = true :=
  decide_eq_true (by omega)

/-! ## SET_ACCEPT and READ_ACCEPT -/

theorem reqSetAccept_eq {body : List Byte} (s : State) (hlen : body.length = 2 + 7 * rd8 body 1) :
    reqSetAccept body s =
      if s.stk.mill ≠ .idle then (s, [5])
      else if !acceptRun (rd8 body 0) (rd8 body 1) then (s, [4, 0, 0, 0])
      else match acceptFault body with
        | some (entry, field) => (s, badParam entry field 0)
        | none => (s.withFlc { s.flc with accept := acceptWritten body s.flc.accept },
            [0] ++ enc8 (rd8 body 0) ++ enc8 (rd8 body 1)) :=
  if_neg (by omega)

theorem reqReadAccept_eq {body : List Byte} (s : State) (hlen : body.length = 2) :
    reqReadAccept body s =
      if !acceptRun (rd8 body 0) (rd8 body 1) then (s, [4, 0, 0, 0])
      else (s, [0] ++ (enc8 (rd8 body 0) ++ enc8 (rd8 body 1) ++ ((List.range (rd8 body 1)).map fun i =>
        encEntry (vget s.flc.accept (Fin.ofNat 24 (rd8 body 0 + i)))).flatten)) :=
  if_pos hlen

theorem acceptFault_none {first : Nat} {es : List AcceptEntry} (hf : first < 256) (hes : es.length < 256)
    (hq : ∀ e ∈ es, e.quantity ≤ 14) : acceptFault (runBody first es.length es []) = none := by
  obtain ⟨-, hcount, -⟩ := runBody_items es [] hf hes
  rw [acceptFault, hcount, List.findSome?_eq_none_iff]
  intro i hi
  have hget := List.getElem?_eq_getElem (List.mem_range.mp hi)
  rw [(entryBadField_runBody hget (hq _ (List.getElem_mem _))).1]
  rfl

/-- The first failing entry is the one behind those that pass, with the field it fails on. -/
theorem acceptFault_some {first count field : Nat} {es : List AcceptEntry} {rest : List Byte} (hf : first < 256) (hc : count < 256)
    (hes : es.length < count) (hq : ∀ e ∈ es, e.quantity ≤ 14) (hbad : entryBadField rest 0 = some field) :
    acceptFault (runBody first count es rest) = some (first + es.length, field) := by
  obtain ⟨hfirst, hcount, -⟩ := runBody_items es rest hf hc
  rw [acceptFault, hfirst, hcount]
  refine findSome_range hes ?_ fun i hi => ?_
  · rw [entryBadField_drop, drop_runBody_end, hbad]
    rfl
  · rw [(entryBadField_runBody (List.getElem?_eq_getElem hi) (hq _ (List.getElem_mem _))).1]
    rfl

theorem acceptWritten_runBody {first : Nat} {es : List AcceptEntry} (t : Vector AcceptEntry 24) (hf : first < 256)
    (hes : es.length < 256) (hq : ∀ e ∈ es, e.quantity ≤ 14) :
    acceptWritten (runBody first es.length es []) t =
      vtab fun n => if first ≤ n.val then (es[n.val - first]?).getD (vget t n) else vget t n := by
  obtain ⟨hfirst, hcount, -⟩ := runBody_items es [] hf hes
  rw [acceptWritten, hfirst, hcount]
  refine congrArg vtab (funext fun n => ?_)
  by_cases hlow : first ≤ n.val
  · by_cases hhigh : n.val < first + es.length
    · have hget := List.getElem?_eq_getElem (l := es) (i := n.val - first) (by omega)
      rw [if_pos ⟨hlow, hhigh⟩, if_pos hlow, (entryBadField_runBody hget (hq _ (List.getElem_mem _))).2, hget]
      rfl
    · rw [if_neg (by omega), if_pos hlow, List.getElem?_eq_none (by omega)]
      rfl
  · rw [if_neg (by omega), if_neg hlow]

theorem readEntries {first : Nat} {es : List AcceptEntry} {t : Vector AcceptEntry 24} (hrun : first + es.length ≤ 24)
    (hes : ∀ i e, es[i]? = some e → ∀ n : EntryNo, n.val = first + i → vget t n = e) :
    ((List.range es.length).map fun i => encEntry (vget t (Fin.ofNat 24 (first + i)))) = es.map encEntry := by
  refine List.ext_getElem (by simp) fun i hi hi' => ?_
  simp only [List.length_map] at hi'
  rw [List.getElem_map, List.getElem_map, List.getElem_range,
    hes i es[i] (List.getElem?_eq_getElem hi') (Fin.ofNat 24 (first + i)) (Nat.mod_eq_of_lt (by omega))]

/-- Settles O35: the run's entries read back one by one, and the checks come in R25's order. -/
theorem acceptanceTable : Obligations.AcceptanceTable := by
  intro tag first es s hf hfirst hes
  have hbody : enc8 first ++ enc8 es.length ++ (es.map encEntry).flatten = runBody first es.length es [] :=
    (List.append_nil _).symm
  obtain ⟨h0, h1, hlen⟩ := runBody_items (count := es.length) es [] hfirst (by omega)
  have heq := reqSetAccept_eq s (body := runBody first es.length es []) (by rw [h1, hlen]; rfl)
  rw [h0, h1] at heq
  have hread : ∀ {count : Nat}, count < 256 → rd8 (enc8 first ++ enc8 count) 0 = first ∧ rd8 (enc8 first ++ enc8 count) 1 = count :=
    fun hc => ⟨rd8_of_enc8 hfirst _, by
      rw [rd8_append _ _ _ (by rw [length_enc8]), length_enc8, Nat.sub_self, rd8_enc8_end, Nat.mod_eq_of_lt hc]⟩
  rw [hbody]
  refine ⟨fun hmill => exec_of_request rfl (by decide) hf (heq.trans (if_pos hmill)), fun hmill hrun =>
      exec_of_request rfl (by decide) hf (heq.trans ?_), fun enabled etag mask quantity channel field count rest hmill hq hcount
      hrun hrest he ht hm hqu hc hbad hfield => ?_, fun hmill hne hrun hq => ?_, fun count hc hrun => ?_, fun hne hrun hget => ?_⟩
  · rw [if_neg (not_not.mpr hmill), acceptRun_false (by rwa [List.length_eq_zero_iff])]
    rfl
  · have hcb : count < 256 := by omega
    have hb : enc8 first ++ enc8 count ++ (es.map encEntry).flatten ++
        (enc8 enabled ++ enc16 etag ++ enc16 mask ++ enc8 quantity ++ enc8 channel) ++ rest =
        runBody first count es (entryBytes enabled etag mask quantity channel ++ rest) := List.append_assoc _ _ _
    obtain ⟨h0, h1, hlen⟩ := runBody_items es (entryBytes enabled etag mask quantity channel ++ rest) hfirst hcb
    have hentry := entryBadField_entryBytes rest he ht hm hqu hc hbad hfield
    have hlen' : (entryBytes enabled etag mask quantity channel ++ rest).length = 7 + rest.length := List.length_append
    rw [hb]
    refine exec_of_request rfl (by decide) hf ((reqSetAccept_eq s (by rw [hlen, h1, hlen', hrest]; omega)).trans ?_)
    rw [if_neg (not_not.mpr hmill), h0, h1, acceptRun_true (by omega), acceptFault_some hfirst hcb hcount hq hentry]
    rfl
  · have hans := heq.trans (if_neg (not_not.mpr hmill))
    rw [acceptRun_true ⟨List.length_pos_iff.mpr hne, hrun⟩, acceptFault_none hfirst (by omega) hq,
      acceptWritten_runBody _ hfirst (by omega) hq] at hans
    exact exec_of_request (c := .setAccept tag _) (kind := 0x04) (tag := tag) rfl (by decide) hf hans
  · obtain ⟨h0, h1⟩ := hread hc
    refine exec_of_request rfl (by decide) hf ((reqReadAccept_eq s rfl).trans ?_)
    rw [h0, h1, acceptRun_false hrun]
    rfl
  · obtain ⟨h0, h1⟩ := hread (count := es.length) (by omega)
    refine exec_of_request rfl (by decide) hf ((reqReadAccept_eq s rfl).trans ?_)
    rw [h0, h1, acceptRun_true ⟨List.length_pos_iff.mpr hne, hrun⟩, readEntries hrun hget]
    rfl

end Sys2Proof.Machine
end

section
/-! PROOFS. SET_ACTIONS (R152): O36. -/

namespace Sys2Proof.Machine

/-! ## The items of a body -/

/-- The row and action of an item, as a body carries them. -/
def actionItem (p : Fin 12 × Action) : Nat × Nat := (p.1.val, actionCode p.2)

/-- The two bytes of an item. -/
def itemBytes (p : Fin 12 × Action) : List Byte := enc8 p.1.val ++ enc8 (actionCode p.2)

theorem actionCode_le (a : Action) : actionCode a ≤ 3 := by cases a <;> simp [actionCode]

theorem actionItems_cons (row action : Nat) (l : List Byte) (hr : row < 256) (ha : action < 256) :
    actionItems (enc8 row ++ (enc8 action ++ l)) = (row, action) :: actionItems l := by
  have hlen : (enc8 row ++ (enc8 action ++ l)).length / 2 = l.length / 2 + 1 := by
    simp only [List.length_append, length_enc8]
    omega
  have hrest : ∀ i, rd8 (enc8 row ++ (enc8 action ++ l)) (i + 2) = rd8 l i := fun i => rfl
  have h0 : rd8 (enc8 row ++ (enc8 action ++ l)) 0 = row := rd8_of_enc8 hr _
  have h1 : rd8 (enc8 row ++ (enc8 action ++ l)) 1 = action := rd8_of_enc8 ha l
  rw [actionItems, hlen, List.range_succ_eq_map, List.map_cons, List.map_map, Nat.mul_zero, Nat.zero_add, h0, h1, actionItems]
  refine congrArg _ (List.map_congr_left fun i _ => ?_)
  exact Prod.ext (hrest (2 * i)) (hrest (2 * i + 1))

theorem actionItems_items (items : List (Fin 12 × Action)) (l : List Byte) :
    actionItems ((items.map itemBytes).flatten ++ l) = items.map actionItem ++ actionItems l := by
  induction items with
  | nil => rfl
  | cons p items ih =>
    have hp := p.1.isLt
    have ha := actionCode_le p.2
    rw [List.map_cons, List.flatten_cons, itemBytes, List.append_assoc, List.append_assoc,
      actionItems_cons _ _ _ (by omega) (by omega), ih]
    rfl

/-! ## The checks of the items -/

/-- An item of a named list that repeats no row and names none of the fixed rows passes. -/
theorem actionItemBad_items {items : List (Fin 12 × Action)} (more : List (Nat × Nat)) (hnodup : (items.map Prod.fst).Nodup)
    (hfixed : ∀ p ∈ items, 3 ≤ p.1.val) {i : Nat} (hi : i < items.length) :
    actionItemBad (items.map actionItem ++ more) i = false := by
  have hget : (items.map actionItem ++ more)[i]? = some (actionItem items[i]) := by
    rw [List.getElem?_append_left (by simpa using hi)]
    simp [hi]
  have hrow := items[i].1.isLt
  have hlow := hfixed items[i] (List.getElem_mem hi)
  have hfresh : ((items.map actionItem ++ more).take i).any (fun p => p.1 == items[i].1.val) = false := by
    rw [List.any_eq_false]
    intro p hp
    rw [List.take_append_of_le_length (by simpa using hi.le), List.mem_iff_getElem] at hp
    obtain ⟨j, hj, rfl⟩ := hp
    simp only [List.length_take, List.length_map] at hj
    simp only [List.getElem_take, List.getElem_map, actionItem, beq_iff_eq]
    intro heq
    have := (List.nodup_iff_injective_get.mp hnodup) (a₁ := ⟨j, by simp; omega⟩) (a₂ := ⟨i, by simpa using hi⟩)
      (by simpa using Fin.ext heq)
    simp only [Fin.mk.injEq] at this
    omega
  simp only [actionItemBad, hget, actionItem, actionOfCode_code, hfresh]
  simp
  omega

theorem actionItemBad_next {items : List (Fin 12 × Action)} {row action : Nat} (more : List (Nat × Nat))
    (hbad : 11 < row ∨ 3 < action ∨ row ≤ 2 ∨ row ∈ items.map (fun p => p.1.val)) :
    actionItemBad (items.map actionItem ++ (row, action) :: more) items.length = true := by
  have hget : (items.map actionItem ++ (row, action) :: more)[items.length]? = some (row, action) := by
    rw [List.getElem?_append_right (by simp)]
    simp
  have htake : (items.map actionItem ++ (row, action) :: more).take items.length = items.map actionItem :=
    List.take_left' (by simp)
  have hcode : 3 < action → actionOfCode action = none := fun h => by
    obtain ⟨n, rfl⟩ : ∃ n, action = n + 4 := ⟨action - 4, by omega⟩
    rfl
  simp only [actionItemBad, hget, htake, Bool.or_eq_true, decide_eq_true_eq]
  obtain h | h | h | h := hbad
  · exact .inl (.inl (.inl h))
  · exact .inl (.inl (.inr (by rw [hcode h]; rfl)))
  · exact .inl (.inr h)
  · refine .inr ?_
    obtain ⟨p, hp, rfl⟩ := List.mem_map.mp h
    exact List.any_eq_true.mpr ⟨actionItem p, List.mem_map_of_mem hp, beq_self_eq_true _⟩

theorem actionsFault_items {items : List (Fin 12 × Action)} (hnodup : (items.map Prod.fst).Nodup)
    (hfixed : ∀ p ∈ items, 3 ≤ p.1.val) : actionsFault (items.map actionItem) = none := by
  rw [actionsFault, Option.map_eq_none_iff, List.find?_eq_none]
  intro i hi
  have := actionItemBad_items [] hnodup hfixed (i := i) (by simpa using hi)
  simpa using this

/-- The first failing item is named by its position, counted from 1 (log 15). -/
theorem actionsFault_some {items : List (Fin 12 × Action)} {row action : Nat} (more : List (Nat × Nat))
    (hnodup : (items.map Prod.fst).Nodup) (hfixed : ∀ p ∈ items, 3 ≤ p.1.val)
    (hbad : 11 < row ∨ 3 < action ∨ row ≤ 2 ∨ row ∈ items.map (fun p => p.1.val)) :
    actionsFault (items.map actionItem ++ (row, action) :: more) = some (items.length + 1) := by
  have hlen : (items.map actionItem ++ (row, action) :: more).length = items.length + (more.length + 1) := by simp
  have hfind : (List.range (items.map actionItem ++ (row, action) :: more).length).find?
      (fun i => actionItemBad (items.map actionItem ++ (row, action) :: more) i) = some items.length := by
    rw [hlen, List.range_add, List.range_succ_eq_map, List.find?_append, List.find?_eq_none.mpr]
    · simp [actionItemBad_next more hbad]
    · intro i hi
      simp [actionItemBad_items ((row, action) :: more) hnodup hfixed (List.mem_range.mp hi)]
  rw [actionsFault, hfind]
  rfl

theorem actionsWritten_items (items : List (Fin 12 × Action)) (t : Vector Action 12) :
    actionsWritten (items.map actionItem) t =
      vtab fun r => match items.find? fun p => p.1 = r with
        | some p => p.2
        | none => vget t r := by
  refine congrArg vtab (funext fun r => ?_)
  have hfind : (items.map actionItem).find? (fun p => p.1 == r.val) = (items.find? fun p => p.1 = r).map actionItem := by
    rw [List.find?_map]
    refine congrArg _ (congrArg (fun q => items.find? q) (funext fun p => ?_))
    simp only [Function.comp, actionItem, beq_eq_decide, Fin.ext_iff]
  rw [hfind]
  cases items.find? fun p => p.1 = r with
  | none => rfl
  | some p => simp [actionItem, actionOfCode_code]

/-! ## SET_ACTIONS -/

theorem reqSetActions_wrongState {body : List Byte} {s : State} (h : s.stk.mill ≠ .idle) :
    reqSetActions body s = (s, [5] ++ actionRows s.sch.config.actions) := if_pos h

theorem reqSetActions_badLength {body : List Byte} {s : State} (hmill : s.stk.mill = .idle)
    (h : body.length % 2 ≠ 0 ∨ body.length = 0 ∨ 24 < body.length) :
    reqSetActions body s = (s, [3] ++ actionRows s.sch.config.actions) :=
  (if_neg (not_not.mpr hmill)).trans (if_pos h)

theorem reqSetActions_fault {body : List Byte} {s : State} {i : Nat} (hmill : s.stk.mill = .idle)
    (h : ¬(body.length % 2 ≠ 0 ∨ body.length = 0 ∨ 24 < body.length)) (hfault : actionsFault (actionItems body) = some i) :
    reqSetActions body s = (s, badParam i 0 0 ++ actionRows s.sch.config.actions) := by
  refine (if_neg (not_not.mpr hmill)).trans ((if_neg h).trans ?_)
  rw [hfault]
  rfl

theorem reqSetActions_taken {body : List Byte} {s : State} {actions : Vector Action 12} (hmill : s.stk.mill = .idle)
    (h : ¬(body.length % 2 ≠ 0 ∨ body.length = 0 ∨ 24 < body.length)) (hfault : actionsFault (actionItems body) = none)
    (hactions : actionsWritten (actionItems body) s.sch.config.actions = actions) :
    reqSetActions body s = ({ s with sch := { s.sch with config := { s.sch.config with actions := actions } } },
      [0] ++ actionRows actions) := by
  refine (if_neg (not_not.mpr hmill)).trans ((if_neg h).trans ?_)
  rw [hfault]
  dsimp only
  rw [hactions]
  rfl

theorem length_items (items : List (Fin 12 × Action)) : ((items.map itemBytes).flatten).length = 2 * items.length := by
  rw [length_blocks itemBytes 2 fun _ => rfl, Nat.mul_comm]

/-- Items that repeat no row and name no fixed row are nine at most. -/
theorem length_le_of_rows {items : List (Fin 12 × Action)} (hnodup : (items.map Prod.fst).Nodup) : items.length ≤ 12 := by
  simpa using hnodup.length_le_card

/-- Settles O36: the items read back, the first failing one is named, and else each names its row. -/
theorem setActionsWritesRows : Obligations.SetActionsWritesRows := by
  intro tag items rows s hf hrows
  obtain rfl : rows = actionRows := funext hrows
  refine ⟨fun hmill body => exec_of_request rfl (by decide) hf (reqSetActions_wrongState hmill), fun hmill =>
    ⟨fun body h => exec_of_request rfl (by decide) hf (reqSetActions_badLength hmill (by rwa [List.length_eq_zero_iff])),
      fun hnodup hfixed => ⟨fun row action rest hrow haction hbad hrest hlen => ?_, fun actions hne hactions => ?_⟩⟩⟩
  · have hb : (items.map fun p => enc8 p.1.val ++ enc8 (actionCode p.2)).flatten ++ enc8 row ++ enc8 action ++ rest =
        (items.map itemBytes).flatten ++ (enc8 row ++ (enc8 action ++ rest)) := by
      simp only [List.append_assoc]
      rfl
    have hl : ((items.map itemBytes).flatten ++ (enc8 row ++ (enc8 action ++ rest))).length = 2 * items.length + 2 + rest.length := by
      simp only [List.length_append, length_items, length_enc8]
      omega
    rw [hb]
    have hans := reqSetActions_fault (s := s) hmill (i := items.length + 1) (by rw [hl]; omega)
      (by rw [actionItems_items, actionItems_cons row action rest hrow haction]; exact actionsFault_some _ hnodup hfixed hbad)
    have hexec := exec_of_request (c := .setActions tag _) (kind := 0x06) (tag := tag) rfl (by decide) hf hans
    exact hexec
  · have hitems : actionItems ((items.map itemBytes).flatten) = items.map actionItem := by
      have h := actionItems_items items []
      rwa [List.append_nil, show actionItems [] = [] from rfl, List.append_nil] at h
    have hpos := List.length_pos_iff.mpr hne
    have hle := length_le_of_rows hnodup
    have hans := reqSetActions_taken (s := s) (body := (items.map itemBytes).flatten) (actions := actions) hmill (by rw [length_items]; omega)
      (by rw [hitems]; exact actionsFault_items hnodup hfixed)
      (by rw [hitems]; exact (actionsWritten_items items _).trans hactions.symm)
    exact exec_of_request (c := .setActions tag _) (kind := 0x06) (tag := tag) rfl (by decide) hf hans

end Sys2Proof.Machine
end

section
/-! PROOFS. The requests that read: READ_BANK, READ_CHANNELS, READ_SEGMENTS, READ_TRIPS and READ_TRACK (R11, R34, R82, R83,
R159): O38, O49, O50. -/

namespace Sys2Proof.Machine

/-! ## READ_BANK (R11) -/

/-- READ_BANK with both parameters in range replies with the item of the bank that it selects. -/
theorem reqReadBank_eq {sel item : Byte} {bank : Bank} {head : List Byte} (s : State) (hitem : item.toNat ≤ 8)
    (hsel : sel = 0 ∧ bank = s.sch.active.bank ∧ head = enc8 (activeCode s.sch.active.state) ++ enc16 s.sch.active.serial ∨
      sel = 1 ∧ bank = s.sch.pendingBank.bank ∧
        head = enc8 (pendingCode s.sch.pendingBank.state) ++ enc16 s.sch.pendingBank.serial) :
    reqReadBank [sel, item] s = (s.spendIf (decide (item.toNat = 0) && bank.mill.isSome),
      [0] ++ (head ++ enc8 item.toNat ++ bankItem bank item.toNat s.freeAt)) := by
  refine (withLength_of_eq rfl s _).trans ?_
  obtain ⟨rfl, rfl, rfl⟩ | ⟨rfl, rfl, rfl⟩ := hsel
  · rw [rd8_head, if_neg (by decide), if_neg (by exact not_lt.mpr hitem)]
    rfl
  · rw [rd8_head, if_neg (by decide), if_neg (by exact not_lt.mpr hitem)]
    rfl

/-- Settles O38: the selected bank's head and item. -/
theorem readBankReplies : Obligations.ReadBankReplies := by
  intro tag sel bank head s hf hsel
  have hzero : ∀ m, bank.mill = m → reqReadBank [sel, 0] s = (s.spendIf m.isSome, [0] ++ (head ++ [0] ++ bankItem bank 0 s.freeAt)) :=
    fun m hm => by rw [reqReadBank_eq s (by decide) hsel, hm]; rfl
  refine ⟨fun k => ?_, fun hm => ?_, fun m hm => ⟨s.freeAt, s.freeIx + 64, ?_⟩⟩
  · have hk := posByte_toNat k
    have hans := reqReadBank_eq s (item := posByte k) (by rw [hk]; unfold Stand.pos; omega) hsel
    have hitem : bankItem bank (Stand.pos k) s.freeAt = match vget bank.stands k with
        | some r => [1] ++ encStand r
        | none => [0] := by
      rw [bankItem, standOfPos_pos]
      rfl
    rw [hk, hitem, show decide (Stand.pos k = 0) = false from decide_eq_false (by unfold Stand.pos; omega)] at hans
    refine (exec_of_request (kind := 0x0B) (tag := tag) rfl (by decide) hf hans).trans ?_
    simp only [List.append_assoc]
    rfl
  · have hans := hzero none hm
    have hitem : bankItem bank 0 s.freeAt = [0] := by
      rw [bankItem, show standOfPos 0 = none from rfl]
      dsimp only
      rw [hm]
      rfl
    rw [hitem] at hans
    refine (exec_of_request (kind := 0x0B) (tag := tag) rfl (by decide) hf hans).trans ?_
    simp only [List.append_assoc]
    rfl
  · have hans := hzero (some m) hm
    have hitem : bankItem bank 0 s.freeAt = [1] ++ encMill m s.freeAt := by
      rw [bankItem, show standOfPos 0 = none from rfl]
      dsimp only
      rw [hm]
      rfl
    rw [hitem] at hans
    refine (exec_of_request (kind := 0x0B) (tag := tag) rfl (by decide) hf hans).trans ?_
    simp only [List.append_assoc]
    rfl

/-! ## READ_CHANNELS (R34) -/

theorem allChans_getElem? {i : Nat} (h : i < 32) : allChans[i]? = some (Fin.ofNat 32 i) := by
  have hi : i % 32 = i := Nat.mod_eq_of_lt h
  simp [allChans, h, Fin.ext_iff, hi]

/-- The numbers of a run within the channels, in order. -/
theorem channelRun_eq {first n : Nat} (h : first + n ≤ 32) :
    ((List.range n).map fun i => (Fin.ofNat 32 (first + i) : Chan)) = (allChans.drop first).take n := by
  refine List.ext_getElem? fun i => ?_
  rw [List.getElem?_map, List.getElem?_take]
  by_cases hi : i < n
  · rw [if_pos hi, List.getElem?_drop, List.getElem?_range hi, allChans_getElem? (by omega)]
    rfl
  · rw [if_neg hi, List.getElem?_eq_none (by simpa using hi)]
    rfl

theorem channelRecords_eq (s : State) {first n : Nat} (h : first + n ≤ 32) :
    channelRecords s first n =
      (((allChans.drop first).take n).map fun c => encChannel (s.chan c) (vget s.sch.config.freshness c)).flatten := by
  rw [← channelRun_eq h, List.map_map]
  rfl

theorem reqReadChannels_eq {body : List Byte} (s : State) (hlen : body.length = 2)
    (h : rd8 body 0 ≤ 31 ∧ 1 ≤ rd8 body 1 ∧ rd8 body 0 + rd8 body 1 ≤ 32) :
    reqReadChannels body s = (s, enc8 0 ++ (enc32 s.ms.toNat ++ enc8 (rd8 body 0) ++ enc8 (min (rd8 body 1) 20) ++
      (((allChans.drop (rd8 body 0)).take (min (rd8 body 1) 20)).map fun c =>
        encChannel (s.chan c) (vget s.sch.config.freshness c)).flatten)) := by
  refine (withLength_of_eq hlen s _).trans ?_
  rw [channelRun, decide_eq_true h]
  refine Prod.ext rfl ?_
  rw [← channelRecords_eq s (by omega)]
  rfl

/-! ## READ_SEGMENTS (R83) -/

/-- The records before the starting record are passed over. -/
theorem segmentsFrom_eq {n count : Nat} {before found : List Segment}
    (hbefore : ∀ g ∈ before, n ≠ 0 ∧ ¬(g.seg + 65535 - n) % 65535 < 32768)
    (hfound : ∀ g, found.head? = some g → n = 0 ∨ (g.seg + 65535 - n) % 65535 < 32768) :
    segmentsFrom n count (before ++ found) = found.take count := by
  have hskip : ∀ g ∈ before, (!qualifies n g) = true := fun g hg => by
    obtain ⟨h0, hstep⟩ := hbefore g hg
    simp only [qualifies, Bool.not_eq_true', Bool.or_eq_false_iff, beq_eq_false_iff_ne, decide_eq_false_iff_not]
    exact ⟨h0, hstep⟩
  rw [segmentsFrom, List.dropWhile_append_of_pos hskip]
  cases found with
  | nil => rfl
  | cons g rest =>
    have hq : qualifies n g = true := by
      rw [qualifies, Bool.or_eq_true, beq_iff_eq, decide_eq_true_eq]
      exact hfound g rfl
    rw [List.dropWhile_cons_of_neg (by simp [hq])]

theorem reqReadSegments_eq {body : List Byte} {found : List Segment} (s : State) (hlen : body.length = 3)
    (h : 1 ≤ rd8 body 2 ∧ rd8 body 2 ≤ 8) (hfound : segmentsFrom (rd16 body 0) (rd8 body 2) s.stk.ring = found) :
    reqReadSegments body s = (s, enc8 0 ++ (enc8 s.stk.ring.length ++ enc16 (found.head?.elim 0 (·.seg)) ++ enc8 found.length ++
      (found.map encSegment).flatten)) := by
  refine (withLength_of_eq hlen s _).trans ?_
  rw [(inNat_eq_true _ _ _).mpr h, hfound]
  rfl

/-! ## READ_TRIPS (R159) -/

theorem reqReadTrips_eq {body : List Byte} (s : State) (hlen : body.length = 1) (h : 1 ≤ rd8 body 0 ∧ rd8 body 0 ≤ 71) :
    reqReadTrips body s = (s, enc8 0 ++ tripsContent (rd8 body 0) s) := by
  refine (withLength_of_eq hlen s _).trans ?_
  rw [(inNat_eq_true _ _ _).mpr h]
  rfl

theorem firstOutKey_elim (s : State) :
    s.firstOutKey.elim 255 Key.num = (match s.tmx.table.find? (·.firstOut) with
      | some r => r.key.num
      | none => 255) := by
  unfold State.firstOutKey
  cases s.tmx.table.find? (·.firstOut) <;> rfl

/-- Settles O49: each reply holds the records of its run. -/
theorem recordsRead : Obligations.RecordsRead := by
  intro tag s hf
  refine ⟨fun first count hfirst hcount hrun => ?_, fun start count before found hstart hlow hhigh hring hbefore hfound => ?_,
    fun first hlow hhigh => ?_⟩
  · have h0 : rd8 (enc8 first ++ enc8 count) 0 = first := rd8_of_enc8 (by omega) _
    have h1 : rd8 (enc8 first ++ enc8 count) 1 = count := by
      rw [rd8_append _ _ _ (by rw [length_enc8]), length_enc8, Nat.sub_self, rd8_enc8_end, Nat.mod_eq_of_lt (by omega)]
    have hans := reqReadChannels_eq s (body := enc8 first ++ enc8 count) rfl (by rw [h0, h1]; exact ⟨hfirst, hcount, hrun⟩)
    rw [h0, h1] at hans
    exact exec_of_request (c := .readChannels tag _) (kind := 0x14) (tag := tag) rfl (by decide) hf hans
  · have h0 : rd16 (enc16 start ++ enc8 count) 0 = start := rd16_of_enc16 hstart _
    have h2 : rd8 (enc16 start ++ enc8 count) 2 = count := by
      rw [rd8_append _ _ _ (by rw [length_enc16]), length_enc16, Nat.sub_self, rd8_enc8_end, Nat.mod_eq_of_lt (by omega)]
    have hans := reqReadSegments_eq s (body := enc16 start ++ enc8 count) (found := found.take count) rfl
      (by rw [h2]; exact ⟨hlow, hhigh⟩) (by rw [h0, h2, hring, segmentsFrom_eq hbefore hfound])
    have hhead : (found.take count).head?.elim 0 (·.seg) = (match found.head? with
        | some g => g.seg
        | none => 0) := by
      rw [List.head?_take, if_neg (by omega)]
      cases found.head? <;> rfl
    rw [hhead, List.length_take] at hans
    exact exec_of_request (c := .readSegments tag _) (kind := 0x16) (tag := tag) rfl (by decide) hf hans
  · have h0 : rd8 (enc8 first) 0 = first := by rw [rd8_enc8_end, Nat.mod_eq_of_lt (by omega)]
    have hans := reqReadTrips_eq s (body := enc8 first) rfl (by rw [h0]; exact ⟨hlow, hhigh⟩)
    rw [h0, tripsContent, firstOutKey_elim] at hans
    exact exec_of_request (c := .readTrips tag _) (kind := 0x17) (tag := tag) rfl (by decide) hf hans

/-! ## READ_TRACK (R82) -/

/-- The numbers that the lists of some spans come to. -/
def listedNumbers (s : State) (lists : List SpanId) : Nat := (lists.map fun j => (s.span j).length).sum

/-- The lists included are a first run: they come to at most 96 numbers, and the next would pass 96. -/
theorem includeLists_split (s : State) (total : Nat) (l : List SpanId) (htotal : total ≤ 96) :
    ∃ later, includeLists s total l ++ later = l ∧ total + listedNumbers s (includeLists s total l) ≤ 96 ∧
      ∀ j, later.head? = some j → 96 < total + listedNumbers s (includeLists s total l) + (s.span j).length := by
  induction l generalizing total with
  | nil => exact ⟨[], rfl, htotal, fun j hj => by cases hj⟩
  | cons j rest ih =>
    rw [includeLists]
    split
    case isTrue hfit =>
      obtain ⟨later, hsplit, hsum, hnext⟩ := ih _ hfit
      refine ⟨later, by rw [List.cons_append, hsplit], ?_, fun i hi => ?_⟩
      · simpa only [listedNumbers, List.map_cons, List.sum_cons, Nat.add_assoc] using hsum
      · simpa only [listedNumbers, List.map_cons, List.sum_cons, Nat.add_assoc] using hnext i hi
    case isFalse hfull =>
      refine ⟨j :: rest, rfl, htotal, fun i hi => ?_⟩
      obtain rfl : j = i := Option.some.inj hi
      exact not_le.mp hfull

theorem listedSpans_split (s : State) (first : Nat) (hspans : ∀ j, (s.span j).length ≤ 24) :
    ∃ later, listedSpans s first ++ later = (spansInUse s).filter (fun j => decide (first ≤ spanPosition j)) ∧
      listedNumbers s (listedSpans s first) ≤ 96 ∧
      ∀ j, later.head? = some j → 96 < listedNumbers s (listedSpans s first) + (s.span j).length := by
  unfold listedSpans
  split
  next h => exact ⟨[], h.symm, Nat.zero_le _, fun j hj => by cases hj⟩
  next j rest h =>
    obtain ⟨later, hsplit, hsum, hnext⟩ := includeLists_split s (s.span j).length rest ((hspans j).trans (by decide))
    refine ⟨later, by rw [List.cons_append, hsplit, h], ?_, fun i hi => ?_⟩
    · simpa only [listedNumbers, List.map_cons, List.sum_cons] using hsum
    · simpa only [listedNumbers, List.map_cons, List.sum_cons] using hnext i hi

theorem reqReadTrack_eq {body : List Byte} (s : State) (hlen : body.length = 1) (h : 1 ≤ rd8 body 0 ∧ rd8 body 0 ≤ 9) :
    reqReadTrack body s = (s, enc8 0 ++ trackContent (rd8 body 0) s) := by
  refine (withLength_of_eq hlen s _).trans ?_
  rw [(inNat_eq_true _ _ _).mpr h]
  rfl

theorem trackStand_eq (s : State) (k : Stand) :
    trackStand s k = enc8 (Stand.pos k + if vget s.stk.tailMarks k then 128 else 0) ++ enc16 (match vget s.stk.bites k with
      | some g => g.seg
      | none => 0) := by
  unfold trackStand
  cases vget s.stk.tailMarks k <;> cases vget s.stk.bites k <;> rfl

theorem elim_spanPosition (o : Option SpanId) :
    o.elim 0 spanPosition = (match o with
      | some j => j.val + 2
      | none => 0) := by
  cases o <;> rfl

theorem length_spansInUse (s : State) :
    (spansInUse s).length = (s.activeSet.drop 1).length + if s.sch.active.state = .valid then 1 else 0 := by
  simp only [spansInUse, List.length_append, List.length_map, State.downstream]
  split <;> rfl

/-- Settles O50: the items in R190's order, with a first run of the lists. -/
theorem trackRead : Obligations.TrackRead := by
  intro tag first s hf hcap hlow hhigh
  obtain ⟨hspans, -⟩ := hcap
  obtain ⟨later, hsplit, hsum, hnext⟩ := listedSpans_split s first hspans
  refine ⟨listedSpans s first, later, hsplit, hsum, hnext, ?_⟩
  have h0 : rd8 (enc8 first) 0 = first := by rw [rd8_enc8_end, Nat.mod_eq_of_lt (by omega)]
  have hans := reqReadTrack_eq s (body := enc8 first) rfl (by rw [h0]; exact ⟨hlow, hhigh⟩)
  rw [h0] at hans
  refine (exec_of_request (c := .readTrack tag _) (kind := 0x15) (tag := tag) rfl (by decide) hf hans).trans ?_
  have hstands : s.activeSet.map (trackStand s) = s.activeSet.map fun k =>
      enc8 (Stand.pos k + if vget s.stk.tailMarks k then 128 else 0) ++ enc16 (match vget s.stk.bites k with
        | some g => g.seg
        | none => 0) := List.map_congr_left fun k _ => trackStand_eq s k
  simp only [trackContent, hstands, length_spansInUse, elim_spanPosition, List.append_assoc]
  rfl

end Sys2Proof.Machine
end

section
/-! PROOFS. SET_REPORTS (R181 to R183): O51. -/

namespace Sys2Proof.Machine

/-! ## The first failing item of a stream (R183) -/

/-- The counted channel numbers that a body holds. -/
theorem rdStreamChans_getElem? {body : List Byte} {o n : Nat} (hcount : rd8 body (o + 1) ≤ 8) (hn : n < rd8 body (o + 1))
    (hlen : o + 10 ≤ body.length) : (rdStreamChans body o)[n]? = some (rd8 body (o + 2 + n)) := by
  have hget : o + 2 + n < body.length := by omega
  rw [rdStreamChans, Nat.min_eq_left hcount, List.getElem?_map, List.getElem?_take, if_pos hn, List.getElem?_drop,
    List.getElem?_eq_getElem hget]
  simp [rd8, hget]

theorem rdStreamChans_length {body : List Byte} {o : Nat} (hcount : rd8 body (o + 1) ≤ 8) (hlen : o + 10 ≤ body.length) :
    (rdStreamChans body o).length = rd8 body (o + 1) := by
  simp only [rdStreamChans, List.length_map, List.length_take, List.length_drop]
  omega

/-- Channel numbers with their range. -/
def chanRanges (chans : List Nat) : List (Int × Int × Int) := chans.map fun (c : Nat) => ((c : Int), (0 : Int), (31 : Int))

/-- The checks of a stream: the flag, the count, and its channels in their order. -/
theorem streamBadField_eq (body : List Byte) (o : Nat) :
    streamBadField body o =
      if rd8 body o ≤ 1 then
        if 1 ≤ rd8 body (o + 1) ∧ rd8 body (o + 1) ≤ 8 then
          firstFail (rangeChecks 3 (chanRanges (rdStreamChans body o)))
        else some 2
      else some 1 := by
  have hchans : rangeChecks 3 (chanRanges (rdStreamChans body o)) =
      (rdStreamChans body o).mapIdx fun i c => (3 + i, inNat 0 31 c) := by
    rw [rangeChecks, chanRanges, List.mapIdx_eq_iff]
    intro i
    rw [List.getElem?_mapIdx, List.getElem?_map, Option.map_map]
    refine congrArg (fun f => Option.map f (rdStreamChans body o)[i]?) (funext fun c => ?_)
    exact Prod.ext rfl (inNat_eq_inInt 0 31 c)
  rw [hchans]
  simp only [streamBadField, firstFail_cons, inNat_eq_true, Nat.zero_le, true_and]

theorem streamBadField_of_fails {body : List Byte} {o field : Nat} (hlen : o + 10 ≤ body.length) (h : StreamFails body o field) :
    streamBadField body o = some field := by
  rw [streamBadField_eq]
  obtain ⟨hflag, rfl⟩ | ⟨hflag, hcount, rfl⟩ | ⟨hflag, hlow, hhigh, n, hn, hbad, hbefore, rfl⟩ := h
  · rw [if_neg (by omega)]
  · rw [if_pos hflag, if_neg (by omega)]
  · rw [if_pos hflag, if_pos ⟨hlow, hhigh⟩, Nat.add_comm n 3]
    refine firstFail_rangeChecks 3 _ n (rd8 body (o + 2 + n)) 0 31 ?_ (by omega) fun j y a b hj hget => ?_
    · rw [chanRanges, List.getElem?_map, rdStreamChans_getElem? hhigh hn hlen]
      rfl
    · rw [chanRanges, List.getElem?_map, rdStreamChans_getElem? hhigh (by omega) hlen] at hget
      have := hbefore j hj
      cases hget
      omega

theorem streamBadField_none {body : List Byte} {o : Nat} (hlen : o + 10 ≤ body.length) (h : ∀ bad, ¬StreamFails body o bad) :
    streamBadField body o = none := by
  have hflag : rd8 body o ≤ 1 := by
    by_contra hout
    exact h 1 (.inl ⟨by omega, rfl⟩)
  have hcount : 1 ≤ rd8 body (o + 1) ∧ rd8 body (o + 1) ≤ 8 := by
    by_contra hout
    exact h 2 (.inr (.inl ⟨hflag, by omega, rfl⟩))
  have hchans : ∀ n, n < rd8 body (o + 1) → rd8 body (o + 2 + n) ≤ 31 := by
    intro n
    induction n using Nat.strong_induction_on with
    | _ n ih =>
      intro hn
      by_contra hout
      exact h (n + 3) (.inr (.inr ⟨hflag, hcount.1, hcount.2, n, hn, by omega, fun l hl => ih l hl (by omega), rfl⟩))
  rw [streamBadField_eq, if_pos hflag, if_pos hcount]
  refine firstFail_rangeChecks_none 3 _ fun c hc => ?_
  obtain ⟨x, hx, rfl⟩ := List.mem_map.mp hc
  obtain ⟨n, hn, hget⟩ := List.mem_iff_getElem.mp hx
  rw [rdStreamChans_length hcount.2 hlen] at hn
  have hx' := rdStreamChans_getElem? hcount.2 hn hlen
  rw [List.getElem?_eq_getElem (by rwa [rdStreamChans_length hcount.2 hlen]), hget] at hx'
  have := hchans n hn
  cases hx'
  dsimp only
  omega

theorem reportsFault_mask {body : List Byte} (h : 63 < rd8 body 0) : reportsFault body = some (0, 1) := if_pos h

theorem reportsFault_stream {body : List Byte} {i : StreamId} {field : Nat} (hlen : body.length = 49) (hmask : rd8 body 0 ≤ 63)
    (hbefore : ∀ j : StreamId, j < i → ∀ bad, ¬StreamFails body (1 + 12 * j.val) bad)
    (h : StreamFails body (1 + 12 * i.val) field) : reportsFault body = some (i.val + 1, field) := by
  rw [reportsFault, if_neg (by omega), allStreams_eq]
  refine findSome_finRange (k := i) ?_ fun j hj => ?_
  · rw [streamAt, streamBadField_of_fails (by omega) h]
    rfl
  · rw [streamAt, streamBadField_none (by omega) (hbefore j hj)]
    rfl

/-! ## A stream in bytes (R182) -/

theorem rdStream_drop (body : List Byte) (o : Nat) : rdStream body o = rdStream (body.drop o) 0 := by
  simp only [rdStream, rdStreamChans, rd8_drop, rd16_drop, List.drop_drop, Nat.add_zero, Nat.zero_add]

theorem streamBadField_drop (body : List Byte) (o : Nat) : streamBadField body o = streamBadField (body.drop o) 0 := by
  simp only [streamBadField, rdStreamChans, rd8_drop, List.drop_drop, Nat.add_zero, Nat.zero_add]

theorem streamClamped_drop (body : List Byte) (o : Nat) : streamClamped body o = streamClamped (body.drop o) 0 := by
  simp only [streamClamped, rd16_drop, Nat.zero_add]

/-- The eight channel places of a stream, the unused ones among them. -/
def placeBytes (t : Stream) (unused : Nat → Byte) : List Byte :=
  (t.chans.map fun c => BitVec.ofNat 8 c.val) ++ (List.range (8 - t.chans.length)).map unused

theorem placeBytes_length {t : Stream} (unused : Nat → Byte) (h : t.chans.length ≤ 8) : (placeBytes t unused).length = 8 := by
  simp only [placeBytes, List.length_append, List.length_map, List.length_range]
  omega

theorem encStream_eq (t : Stream) (unused : Nat → Byte) :
    encStream t unused = encFlag t.enabled ++ (enc8 t.chans.length ++ (placeBytes t unused ++ enc16 t.period)) := by
  simp only [encStream, placeBytes, List.append_assoc]

theorem encStream_length {t : Stream} (unused : Nat → Byte) (h : t.chans.length ≤ 8) : (encStream t unused).length = 12 := by
  simp only [encStream_eq, List.length_append, placeBytes_length unused h, length_encFlag, length_enc8, length_enc16]

/-- The items of a stream's bytes. -/
theorem encStream_items {t : Stream} (unused : Nat → Byte) (rest : List Byte) (hlow : 1 ≤ t.chans.length)
    (h : t.chans.length ≤ 8) (hperiod : t.period < 65536) :
    rd8 (encStream t unused ++ rest) 0 = t.enabled.toNat ∧ rd8 (encStream t unused ++ rest) 1 = t.chans.length ∧
      rdStreamChans (encStream t unused ++ rest) 0 = t.chans.map (·.val) ∧ rd16 (encStream t unused ++ rest) 10 = t.period := by
  have hflag := toNat_le_one t.enabled
  have h1 : rd8 (encStream t unused ++ rest) 1 = t.chans.length := by
    simp only [encStream_eq, List.append_assoc, rd8_append, length_encFlag, le_refl, Nat.sub_self]
    exact rd8_of_enc8 (by omega) _
  refine ⟨?_, h1, ?_, ?_⟩
  · rw [encStream_eq, List.append_assoc]
    exact rd8_of_enc8 (by omega) _
  · have hdrop : (encStream t unused ++ rest).drop (0 + 2) = placeBytes t unused ++ (enc16 t.period ++ rest) := by
      rw [encStream_eq, ← List.append_assoc (encFlag _), List.append_assoc, List.append_assoc (placeBytes _ _),
        List.drop_left' (by simp only [List.length_append, length_encFlag, length_enc8])]
    rw [rdStreamChans, h1, Nat.min_eq_left h, hdrop, placeBytes, List.append_assoc, List.take_left' (List.length_map _), List.map_map]
    refine List.map_congr_left fun c _ => ?_
    have := c.isLt
    simp only [Function.comp, BitVec.toNat_ofNat]
    omega
  · have hdrop : (encStream t unused ++ rest).drop 10 = enc16 t.period ++ rest := by
      rw [encStream_eq, ← List.append_assoc (enc8 _), ← List.append_assoc (encFlag _), List.append_assoc,
        List.drop_left' (by simp only [List.length_append, length_encFlag, length_enc8, placeBytes_length unused h])]
    rw [← Nat.add_zero 10, ← rd16_drop, hdrop, rd16_of_enc16 hperiod]

/-- What a stream asked for is stored as: its period clamped, its timer started afresh or stopped (R182). -/
def storedStream (t : Stream) : Stream :=
  { t with
    period := max 10 (min 10000 t.period)
    timer := if t.enabled then some (max 10 (min 10000 t.period)) else none }

/-- A stream reads back as it is stored. -/
theorem rdStream_encStream {t : Stream} (unused : Nat → Byte) (rest : List Byte) (hlow : 1 ≤ t.chans.length)
    (h : t.chans.length ≤ 8) (hperiod : t.period < 65536) :
    rdStream (encStream t unused ++ rest) 0 = storedStream t ∧ streamBadField (encStream t unused ++ rest) 0 = none ∧
      streamClamped (encStream t unused ++ rest) 0 = decide (t.period ≠ (storedStream t).period) := by
  obtain ⟨h0, h1, hchans, h10⟩ := encStream_items unused rest hlow h hperiod
  have hflag := toNat_le_one t.enabled
  refine ⟨?_, ?_, ?_⟩
  · have henabled : (rd8 (encStream t unused ++ rest) 0 == 1) = t.enabled := by
      rw [h0]
      cases t.enabled <;> rfl
    have hmap : (t.chans.map (·.val)).map (Fin.ofNat 32) = t.chans := by
      rw [List.map_map]
      exact (List.map_congr_left fun c _ => Fin.ext (Nat.mod_eq_of_lt c.isLt)).trans (List.map_id _)
    have hclamp : min (max t.period 10) 10000 = max 10 (min 10000 t.period) := by omega
    simp only [rdStream, henabled, hchans, hmap, Nat.zero_add, h10, hclamp, storedStream]
  · rw [streamBadField_eq, Nat.zero_add, h0, h1, if_pos hflag, if_pos ⟨hlow, h⟩, hchans]
    refine firstFail_rangeChecks_none 3 _ fun c hc => ?_
    simp only [chanRanges, List.map_map, List.mem_map, Function.comp] at hc
    obtain ⟨c', -, rfl⟩ := hc
    have := c'.isLt
    dsimp only
    omega
  · rw [streamClamped, Nat.zero_add, h10, inNat, ← decide_not]
    refine decide_eq_decide.mpr ?_
    simp only [storedStream]
    omega

/-! ## SET_REPORTS -/

theorem reqSetReports_fault {body : List Byte} {item field : Nat} (s : State) (hlen : body.length = 49)
    (h : reportsFault body = some (item, field)) : reqSetReports body s = (s, badParam item field 0) := by
  refine (withLength_of_eq hlen s _).trans ?_
  rw [h]
  rfl

theorem maskedQueue_eq (mask : BitVec 6) (q : List Notice) :
    maskedQueue mask q =
      q.filter fun n => kindEnabled mask n.body.source && decide (∀ i, n.body.source ≠ .channelPeriodic i) := by
  refine List.filter_congr fun n _ => congrArg _ (decide_eq_decide.mpr ?_)
  cases n.body.source <;> simp [NoticeSource.kindIx]

/-- What SET_REPORTS leaves in the report queue's settings (R181 to R183). -/
def reported (mask : BitVec 6) (streams : Vector Stream 4) (s : State) : State :=
  { s with
    hlk := { s.hlk with
      mask := mask
      streams := streams
      queue := s.hlk.queue.filter fun n =>
        kindEnabled mask n.body.source && decide (∀ i, n.body.source ≠ .channelPeriodic i) }
    freeIx := s.freeIx + 64 }

theorem reqSetReports_taken {body : List Byte} {mask : BitVec 6} {streams : Vector Stream 4} {clamped : Bool} (s : State)
    (hlen : body.length = 49) (h : reportsFault body = none) (hmask : BitVec.ofNat 6 (rd8 body 0) = mask)
    (hstreams : (vtab fun i => rdStream body (streamAt i)) = streams)
    (hclamped : (allStreams.any fun i => streamClamped body (streamAt i)) = clamped) :
    reqSetReports body s = (reported mask streams s, takenReply clamped (enc8 mask.toNat ++
      (allStreams.map fun i => encStream (vget streams i) fun j => s.freeAt (8 * i.val + j)).flatten)) := by
  refine (withLength_of_eq hlen s _).trans ?_
  rw [h, reported, ← maskedQueue_eq, ← hmask, ← hstreams, ← hclamped]
  rfl

/-- The body of a SET_REPORTS request. -/
def reportsBody (mask : BitVec 6) (asked : Vector Stream 4) (junk : StreamId → Nat → Byte) : List Byte :=
  enc8 mask.toNat ++ (allStreams.map fun i => encStream (vget asked i) (junk i)).flatten

section
variable (mask : BitVec 6) {asked : Vector Stream 4} (junk : StreamId → Nat → Byte)

theorem reportsBody_length (h : ∀ i, (vget asked i).chans.length ≤ 8) : (reportsBody mask asked junk).length = 49 := by
  rw [reportsBody, List.length_append, length_blocks (fun i => encStream (vget asked i) (junk i)) 12
    (fun i => encStream_length _ (h i)), length_enc8]
  rfl

theorem drop_reportsBody (h : ∀ i, (vget asked i).chans.length ≤ 8) (i : StreamId) :
    ∃ rest, (reportsBody mask asked junk).drop (streamAt i) = encStream (vget asked i) (junk i) ++ rest := by
  refine ⟨((allStreams.drop (i.val + 1)).map fun i => encStream (vget asked i) (junk i)).flatten, ?_⟩
  rw [reportsBody, streamAt, ← List.drop_drop, List.drop_left' (length_enc8 _)]
  exact drop_blocks_of_getElem (fun i => encStream (vget asked i) (junk i)) 12 (fun i => encStream_length _ (h i)) allStreams
    i.val i (by simp [allStreams_eq])

theorem rd8_reportsBody : rd8 (reportsBody mask asked junk) 0 = mask.toNat :=
  rd8_of_enc8 (by have := mask.isLt; omega) _

end

/-- Settles O51: the streams read back as they are stored, or the first failing item is named. -/
theorem setReports : Obligations.SetReports := by
  intro tag s hf
  refine ⟨fun mask asked stored junk hasked hstored => ?_, fun body hlen =>
    ⟨fun h => exec_of_request rfl (by decide) hf (reqSetReports_fault s hlen (reportsFault_mask h)),
      fun i field hmask hbefore h =>
        exec_of_request rfl (by decide) hf (reqSetReports_fault s hlen (reportsFault_stream hlen hmask hbefore h))⟩⟩
  have hlens : ∀ i, (vget asked i).chans.length ≤ 8 := fun i => (hasked i).2.1
  have hvstored : ∀ i, vget stored i = storedStream (vget asked i) := fun i => by rw [hstored, vget_vtab]; rfl
  have hstream : ∀ i, rdStream (reportsBody mask asked junk) (streamAt i) = vget stored i ∧
      streamBadField (reportsBody mask asked junk) (streamAt i) = none ∧
      streamClamped (reportsBody mask asked junk) (streamAt i) = decide ((vget asked i).period ≠ (vget stored i).period) := fun i => by
    obtain ⟨rest, hrest⟩ := drop_reportsBody mask junk hlens i
    obtain ⟨hlow, hhigh, hperiod⟩ := hasked i
    rw [rdStream_drop, streamBadField_drop, streamClamped_drop, hrest, hvstored]
    exact rdStream_encStream (junk i) rest hlow hhigh hperiod
  have hmask := rd8_reportsBody mask (asked := asked) junk
  have hfault : reportsFault (reportsBody mask asked junk) = none := by
    rw [reportsFault, hmask, if_neg (by have := mask.isLt; omega), List.findSome?_eq_none_iff]
    intro i _
    rw [(hstream i).2.1]
    rfl
  have hans := reqSetReports_taken s (reportsBody_length mask junk hlens) hfault (mask := mask) (by rw [hmask]; simp)
    ((congrArg vtab (funext fun i => (hstream i).1)).trans (vtab_vget stored)) rfl
  refine ⟨fun i j => s.freeAt (8 * i.val + j), s.freeIx + 64, _, rfl, ?_⟩
  have hexec := exec_of_request (c := .setReports tag _) (kind := 0x18) (tag := tag) rfl (by decide) hf hans
  refine hexec.trans (congrArg (fun c => Host.Outcome.next (reply 0x18 tag c _)) ?_)
  have hclamped : (allStreams.any fun i => streamClamped (reportsBody mask asked junk) (streamAt i)) =
      !decide (∀ i, (vget asked i).period = (vget stored i).period) := by
    rw [Bool.eq_iff_iff, List.any_eq_true, Bool.not_eq_true', decide_eq_false_iff_not, not_forall]
    refine exists_congr fun i => ?_
    rw [(hstream i).2.2, decide_eq_true_eq]
    exact and_iff_right (by simp [allStreams_eq])
  rw [hclamped, takenReply]
  by_cases hall : ∀ i, (vget asked i).period = (vget stored i).period
  · rw [if_pos hall, decide_eq_true hall]
    rfl
  · rw [if_neg hall, decide_eq_false hall]
    rfl

end Sys2Proof.Machine
end

section
/-! PROOFS. STATUS (R176, R189): O33. -/

namespace Sys2Proof.Machine

/-! ## The header -/

theorem statusHeader_length (s : State) : (statusHeader s).length = 21 := rfl

/-- The items of the header of a STATUS reply. -/
theorem statusHeader_items (s : State) (l : List Byte) :
    rd8 (statusHeader s ++ l) 0 = 0 ∧ rd32 (statusHeader s ++ l) 1 = s.ms.toNat ∧
      rd8 (statusHeader s ++ l) 5 = millCode s.stk.mill ∧ rd16 (statusHeader s ++ l) 6 = s.stk.coil % 65536 ∧
      rd16 (statusHeader s ++ l) 8 = s.stk.allocated % 65536 ∧ rd16 (statusHeader s ++ l) 10 = s.stk.retired % 65536 ∧
      rd8 (statusHeader s ++ l) 12 = activeCode s.sch.active.state ∧
      rd16 (statusHeader s ++ l) 13 = s.sch.active.serial % 65536 ∧
      rd8 (statusHeader s ++ l) 15 = pendingCode s.sch.pendingBank.state ∧
      rd16 (statusHeader s ++ l) 16 = s.sch.pendingBank.serial % 65536 ∧
      rd8 (statusHeader s ++ l) 18 = s.tmx.table.length % 256 ∧
      rd8 (statusHeader s ++ l) 19 = s.firstOutKey.elim 255 Key.num % 256 ∧
      rd8 (statusHeader s ++ l) 20 = s.tmx.stopLine.toNat % 256 := by
  have hms := s.ms.isLt
  have hmill : millCode s.stk.mill < 256 := by cases s.stk.mill <;> decide
  have hactive : activeCode s.sch.active.state < 256 := by cases s.sch.active.state <;> decide
  have hpending : pendingCode s.sch.pendingBank.state < 256 := by cases s.sch.pendingBank.state <;> decide
  unfold statusHeader
  simp only [encFlag, List.append_assoc, rd8_append, rd16_append, rd32_append, length_enc8, length_enc16, length_enc32,
    rd8_enc8, rd16_enc16, rd32_enc32, ReplyCode.num, Nat.reduceLeDiff, Nat.reduceSub, Nat.one_le_ofNat, le_refl,
    Nat.mod_eq_of_lt hmill, Nat.mod_eq_of_lt hactive, Nat.mod_eq_of_lt hpending, Nat.mod_eq_of_lt hms, Nat.zero_mod, and_self]

/-! ## A stand block -/

theorem statusBlock_length (s : State) (k : Stand) (free : Byte) : (statusBlock s k free).length = 28 := rfl

theorem statusFlags_lt (s : State) (k : Stand) : s.statusFlags k < 65536 := by
  have h : ∀ b : Bool, b.toNat ≤ 1 := toNat_le_one
  have := h (s.seq k).frozen
  have := h (s.stripPresent k)
  have := h (s.seq k).fastOpen
  have := h (s.seq k).localReq
  have := h (s.gap k).locked
  have := h (s.gap k).stale
  have := h (s.gap k).gmSat
  have := h (s.gap k).limited
  have := h (s.gap k).slewing
  have := h (s.gap k).timer.isSome
  unfold State.statusFlags
  omega

theorem standCode_lt (st : StandState) : standCode st < 16 := by cases st <;> decide

/-- The items of a stand block of a STATUS reply. -/
theorem statusBlock_items (s : State) (k : Stand) (free : Byte) (l : List Byte) :
    rd8 (statusBlock s k free ++ l) 0 = standCode (s.seq k).state ∧
      rd16 (statusBlock s k free ++ l) 1 = s.statusFlags k ∧
      rd8 (statusBlock s k free ++ l) 3 = (s.effectiveAction k).elim 255 actionCode % 256 ∧
      rd8 (statusBlock s k free ++ l) 4 = handoverByte (s.seq k).handover free % 256 ∧
      rd16 (statusBlock s k free ++ l) 5 = (s.seq k).handover.elim 0 (·.remaining) % 65536 ∧
      rd8 (statusBlock s k free ++ l) 7 = (s.seq k).nonOverlap.getD 0 % 256 ∧
      rd8 (statusBlock s k free ++ l) 8 = (s.seq k).equalize.getD 0 % 256 ∧
      rd24 (statusBlock s k free ++ l) 9 = ((s.gap k).sRef % 16777216).toNat % 16777216 ∧
      rd8 (statusBlock s k free ++ l) 12 = ((s.gap k).lastSent.elim 255 fun p => modeCode p.mode) % 256 ∧
      rd24 (statusBlock s k free ++ l) 13 = ((s.gap k).lastSent.elim 0 (·.gap) % 16777216).toNat % 16777216 ∧
      rd16 (statusBlock s k free ++ l) 16 = (s.gap k).hGm.getD 65535 % 65536 ∧
      rd16 (statusBlock s k free ++ l) 18 = (s.gap k).hLock % 65536 ∧
      rd24 (statusBlock s k free ++ l) 20 = ((s.gap k).sRefLock % 16777216).toNat % 16777216 ∧
      rd8 (statusBlock s k free ++ l) 23 = (s.gap k).lockCount % 256 ∧
      rd16 (statusBlock s k free ++ l) 24 = ((s.gap k).trim % 65536).toNat % 65536 ∧
      rd16 (statusBlock s k free ++ l) 26 = ((s.gap k).integ % 65536).toNat % 65536 := by
  have hst : standCode (s.seq k).state < 256 := (standCode_lt _).trans (by decide)
  have hflags := statusFlags_lt s k
  unfold statusBlock
  simp only [encS24, encS16, encThickness, List.append_assoc, rd8_append, rd16_append, rd24_append, length_enc8, length_enc16,
    length_enc24, rd8_enc8, rd16_enc16, rd24_enc24, Nat.reduceLeDiff, Nat.reduceSub, Nat.one_le_ofNat, le_refl,
    Nat.mod_eq_of_lt hst, Nat.mod_eq_of_lt hflags, and_self]

/-! ## The whole reply -/

theorem statusReply_length (s : State) : (statusReply s).length = 245 := by
  rw [statusReply, List.length_append, statusHeader_length,
    length_blocks (fun k : Stand => statusBlock s k (s.freeAt k.val)) 28 fun _ => statusBlock_length s _ _]
  rfl

theorem drop_statusReply (s : State) (k : Stand) :
    ∃ l, (statusReply s).drop (21 + 28 * k.val) = statusBlock s k (s.freeAt k.val) ++ l := by
  refine ⟨((allStands.drop (k.val + 1)).map fun k => statusBlock s k (s.freeAt k.val)).flatten, ?_⟩
  rw [statusReply, ← List.drop_drop, List.drop_left' (statusHeader_length s)]
  exact drop_blocks_of_getElem (fun k : Stand => statusBlock s k (s.freeAt k.val)) 28 (fun _ => statusBlock_length s _ _) allStands
    k.val k (by simp [allStands_eq])

theorem keyNum_le (key : Key) : key.num ≤ 70 := by
  cases key with
  | stand c k =>
    have := k.isLt
    cases c <;> simp only [Key.num, condNum] <;> omega
  | stopInput n =>
    have := n.isLt
    simp only [Key.num]
    omega
  | _ => decide

theorem effectiveAction_elim (s : State) (k : Stand) :
    (s.effectiveAction k).elim 255 actionCode =
      (if s.tmx.table.any fun r => r.covers k && r.action == .millStop then actionCode .millStop
        else if s.tmx.table.any fun r => r.covers k && r.action == .open_ then actionCode .open_
        else if s.tmx.table.any fun r => r.covers k && r.action == .freeze then actionCode .freeze
        else 255) := by
  simp only [State.effectiveAction, List.any_filter]
  split_ifs <;> rfl

theorem spendIf_eq (used : Bool) (s : State) : s.spendIf used = { s with freeIx := (s.spendIf used).freeIx } := by
  cases used <;> rfl

/-- Settles O33: the header and the stand blocks of R189, item by item. -/
theorem statusSnapshot : Obligations.StatusSnapshot := by
  intro tag s hf
  have hans : reqStatus [] s = (s.spendIf (allStands.any fun k => priorIsFree (s.seq k)), statusReply s) := rfl
  rw [spendIf_eq] at hans
  obtain ⟨h0, h1, h5, h6, h8, h10, h12, h13, h15, h16, h18, h19, h20⟩ :=
    statusHeader_items s (allStands.map fun k => statusBlock s k (s.freeAt k.val)).flatten
  refine ⟨statusReply s, _, exec_of_request rfl (by decide) hf hans, statusReply_length s, h0, h1, h5,
    fun h => h6.trans (Nat.mod_eq_of_lt h), fun h => h8.trans (Nat.mod_eq_of_lt h), fun h => h10.trans (Nat.mod_eq_of_lt h), h12,
    fun h => h13.trans (Nat.mod_eq_of_lt h), h15, fun h => h16.trans (Nat.mod_eq_of_lt h), fun h => h18.trans (Nat.mod_eq_of_lt h),
    h19.trans ?_, h20.trans ?_, ?_⟩
  · refine Eq.trans ?_ (firstOutKey_elim s)
    cases s.firstOutKey with
    | none => rfl
    | some key => exact Nat.mod_eq_of_lt (Nat.lt_of_le_of_lt (keyNum_le key) (by decide))
  · cases s.tmx.stopLine <;> rfl
  · rintro k o rfl
    obtain ⟨l, hl⟩ := drop_statusReply s k
    obtain ⟨b0, b1, b3, b4, b5, b7, b8, b9, b12, b13, b16, b18, b20, b23, b24, b26⟩ := statusBlock_items s k (s.freeAt k.val) l
    rw [← hl] at b0 b1 b3 b4 b5 b7 b8 b9 b12 b13 b16 b18 b20 b23 b24 b26
    rw [rd8_drop] at b0 b3 b4 b7 b8 b12 b23
    rw [rd16_drop] at b1 b5 b16 b18 b24 b26
    rw [rd24_drop] at b9 b13 b20
    have haction : (s.effectiveAction k).elim 255 actionCode % 256 = (s.effectiveAction k).elim 255 actionCode := by
      cases s.effectiveAction k with
      | none => rfl
      | some a => exact Nat.mod_eq_of_lt ((actionCode_le a).trans_lt (by decide))
    refine ⟨b0, b1, b3.trans (haction.trans (effectiveAction_elim s k)), fun h => ?_, fun h hh => ⟨fun p hdir hp => ?_, fun hdir => ?_, fun hrem => ?_⟩,
      fun h => ?_, fun n h hn => ?_, fun h => ?_, fun n h hn => ?_, fun hlow hhigh => ?_, fun h => ?_, fun p hp => ⟨?_, fun hlow hhigh => ?_⟩,
      fun h => ?_, fun n h hn => ?_, fun h => b18.trans (Nat.mod_eq_of_lt h), fun hlow hhigh => ?_,
      fun h => b23.trans (Nat.mod_eq_of_lt h), fun hlow hhigh => ?_, fun hlow hhigh => ?_⟩
    · rw [b4, b5, h]
      exact ⟨rfl, rfl⟩
    · have := standCode_lt p
      rw [b4, hh, handoverByte, hdir, hp]
      exact Nat.mod_eq_of_lt (by simp only [dirCode, Option.elim_some]; omega)
    · rw [b4, hh, handoverByte, hdir]
      simp only [dirCode]
      omega
    · rw [b5, hh]
      exact Nat.mod_eq_of_lt hrem
    · rw [b7, h]
      rfl
    · rw [b7, h]
      exact Nat.mod_eq_of_lt hn
    · rw [b8, h]
      rfl
    · rw [b8, h]
      exact Nat.mod_eq_of_lt hn
    · rw [rdS24, b9, signed24_enc (by omega)]
    · rw [b12, b13, h]
      exact ⟨rfl, rfl⟩
    · rw [b12, hp]
      exact Nat.mod_eq_of_lt ((modeCode_le p.mode).trans_lt (by decide))
    · rw [rdS24, b13, hp, Option.elim_some]
      exact signed24_enc (by omega)
    · rw [b16, h]
      rfl
    · rw [b16, h]
      exact Nat.mod_eq_of_lt hn
    · rw [rdS24, b20, signed24_enc (by omega)]
    · rw [rdS16, b24, signed16_enc (by omega)]
    · rw [rdS16, b26, signed16_enc (by omega)]

end Sys2Proof.Machine
end

section
/-! PROOFS. The trip table, record by record: what a raise, a gone, a removal and the evaluation of the scopes make of the
record of each key (R139, R153 to R157), and what they leave of the stands. -/

namespace Sys2Proof.Machine

/-! ## The record of a key -/

theorem recordOf_congr {s t : State} (h : t.tmx.table = s.tmx.table) (key : Key) : t.recordOf key = s.recordOf key := by
  rw [State.recordOf, State.recordOf, h]

theorem recordOf_key {s : State} {key : Key} {r : TripRecord} (h : s.recordOf key = some r) : r.key = key := by
  simpa using List.find?_some h

theorem recordOf_mem {s : State} {key : Key} {r : TripRecord} (h : s.recordOf key = some r) : r ∈ s.tmx.table :=
  List.mem_of_find?_eq_some h

theorem present_eq_false {s : State} {key : Key} : s.present key = false ↔ ∀ r, s.recordOf key = some r → r.state = .held := by
  unfold State.present
  cases s.recordOf key <;> simp

theorem present_congr {s t : State} {key : Key} (h : t.recordOf key = s.recordOf key) : t.present key = s.present key := by
  rw [State.present, State.present, h]

theorem recordOf_modRecord (key key' : Key) (f : TripRecord → TripRecord) (hf : ∀ r, (f r).key = r.key) (s : State) :
    (s.modRecord key f).recordOf key' = if key' = key then (s.recordOf key').map f else s.recordOf key' := by
  have hpred : ∀ r : TripRecord, ((if r.key == key then f r else r).key == key') = (r.key == key') := fun r => by
    split <;> simp [hf]
  have hfind : (s.modRecord key f).recordOf key' = (s.recordOf key').map fun r => if r.key == key then f r else r := by
    change List.find? (fun r => r.key == key') (s.tmx.table.map fun r => if r.key == key then f r else r) = _
    rw [List.find?_map]
    exact congrArg (Option.map _) (congrArg (fun p => List.find? p s.tmx.table) (funext hpred))
  rw [hfind]
  cases h : s.recordOf key' with
  | none => simp
  | some r =>
    have hkey := recordOf_key h
    by_cases hk : key' = key <;> simp [hkey, hk]

theorem recordOf_dropRecord (r : TripRecord) (key : Key) (s : State) :
    (dropRecord r s).recordOf key = if key = r.key then none else s.recordOf key := by
  change List.find? (fun q => q.key == key) (s.tmx.table.filter fun q => !(q.key == r.key)) = _
  rw [List.find?_filter]
  split
  next h =>
    rw [List.find?_eq_none]
    rintro q -
    simp [h]
  next h =>
    refine congrArg (fun p => List.find? p s.tmx.table) (funext fun q => ?_)
    by_cases hq : q.key = key <;> simp [hq, h]

theorem recordOf_addRecord (key key' : Key) (s : State) (hnew : s.recordOf key = none) :
    (addRecord key s).recordOf key' = if key' = key then some (newRecord key s) else s.recordOf key' := by
  change List.find? (fun q => q.key == key') (s.tmx.table ++ [newRecord key s]) = _
  rw [List.find?_append]
  have hsingle : List.find? (fun q => q.key == key') [newRecord key s] = if key' = key then some (newRecord key s) else none := by
    by_cases h : key' = key
    · simp [List.find?, newRecord, h]
    · simp [List.find?, newRecord, h, beq_eq_false_iff_ne.mpr (Ne.symm h)]
  rw [hsingle]
  split
  next h =>
    subst h
    rw [show List.find? (fun q => q.key == key') s.tmx.table = none from hnew]
    rfl
  next => exact Option.or_none

/-! ## Removal and gone -/

theorem removeRecord_tmx (r : TripRecord) (s : State) : (removeRecord r s).tmx = (dropRecord r s).tmx := by
  simp [removeRecord, dropRecord]

theorem tripNotice_tmx (key : Key) (s : State) : (tripNotice key s).tmx = s.tmx := by simp

/-- What the gone of its key makes of a record: a RAISED one is HELD, an ACKED one removed (R155). -/
def TripRecord.gone (r : TripRecord) : Option TripRecord :=
  match r.state with
  | .raised => some { r with state := .held }
  | .acked => none
  | .held => some r

theorem recordOf_goneKey (key key' : Key) (s : State) :
    (goneKey key s).recordOf key' = if key' = key then (s.recordOf key').bind TripRecord.gone else s.recordOf key' := by
  obtain ⟨hnone, e⟩ | ⟨r, hr, ⟨hst, e⟩ | ⟨hst, e⟩ | ⟨hst, e⟩⟩ := goneKey_cases key s <;> rw [e]
  · by_cases h : key' = key
    · subst h
      simp [hnone]
    · simp [h]
  · rw [recordOf_congr (congrArg TripMatrix.table (tripNotice_tmx key _)), recordOf_modRecord key key' (fun r => { r with state := .held }) fun _ => rfl]
    by_cases h : key' = key
    · subst h
      simp [hr, TripRecord.gone, hst]
    · simp [h]
  · rw [recordOf_congr (congrArg TripMatrix.table (removeRecord_tmx r s)), recordOf_dropRecord, recordOf_key hr]
    by_cases h : key' = key
    · subst h
      simp [hr, TripRecord.gone, hst]
    · simp [h]
  · by_cases h : key' = key
    · subst h
      simp [hr, TripRecord.gone, hst]
    · simp [h]

theorem gone_gone (o : Option TripRecord) : (o.bind TripRecord.gone).bind TripRecord.gone = o.bind TripRecord.gone := by
  cases o with
  | none => rfl
  | some r => cases h : r.state <;> simp [TripRecord.gone, h]

/-- A record that is not present is as it was after the gone of its key. -/
theorem gone_of_not_present {s : State} {key : Key} (h : s.present key = false) :
    (s.recordOf key).bind TripRecord.gone = s.recordOf key := by
  rw [present_eq_false] at h
  cases hr : s.recordOf key with
  | none => rfl
  | some r => simp [TripRecord.gone, h r hr]

/-! ## The stands under a change of the trip table -/

/-- What the trip matrix leaves of a stand: its state, its handover, LOCAL_REQ and its equalize timer. -/
def State.standing (s : State) (k : Stand) : StandState × Option Handover × Bool × Option Nat :=
  ((s.seq k).state, (s.seq k).handover, (s.seq k).localReq, (s.seq k).equalize)

theorem standing_congr {s t : State} (h : t.ssq = s.ssq) : t.standing = s.standing := by
  funext k
  simp [State.standing, State.seq, h]

theorem standing_iff {s t : State} {k : Stand} :
    t.standing k = s.standing k ↔ (t.seq k).state = (s.seq k).state ∧ (t.seq k).handover = (s.seq k).handover ∧
      (t.seq k).localReq = (s.seq k).localReq ∧ (t.seq k).equalize = (s.seq k).equalize := by
  simp [State.standing]

theorem eachStand_evalFrozen_standing (s : State) : (eachStand evalFrozen s).standing = s.standing := by
  funext k
  rw [standing_iff, eachStand_evalFrozen_seq]
  exact ⟨rfl, rfl, rfl, rfl⟩

theorem eachStand_evalDemand_standing (s : State) : (eachStand evalDemand s).standing = s.standing := by
  funext k
  rw [standing_iff, eachStand_evalDemand_seq]
  simp

theorem updateNotice_standing (b : NoticeBody) (s : State) : (updateNotice b s).standing = s.standing :=
  standing_congr (by simp)

theorem tripNotice_standing (key : Key) (s : State) : (tripNotice key s).standing = s.standing := standing_congr (by simp)

theorem removeRecord_standing (r : TripRecord) (s : State) : (removeRecord r s).standing = s.standing := by
  unfold removeRecord
  rw [updateNotice_standing, eachStand_evalDemand_standing, eachStand_evalFrozen_standing]
  rfl

theorem goneKey_standing (key : Key) (s : State) : (goneKey key s).standing = s.standing := by
  obtain ⟨-, e⟩ | ⟨r, -, ⟨-, e⟩ | ⟨-, e⟩ | ⟨-, e⟩⟩ := goneKey_cases key s <;> rw [e]
  · rw [tripNotice_standing]
    rfl
  · exact removeRecord_standing r s

theorem goneOutOfScope_standing (key : Key) (s : State) : (goneOutOfScope key s).standing = s.standing := by
  unfold goneOutOfScope
  split
  · exact goneKey_standing key s
  · rfl

theorem evalScopes_standing (s : State) : (evalScopes s).standing = s.standing :=
  foldl_keeps State.standing _ (fun t key => goneOutOfScope_standing key t) _ _

theorem evalScopes_state (s : State) (k : Stand) : ((evalScopes s).seq k).state = (s.seq k).state :=
  (standing_iff.mp (congrFun (evalScopes_standing s) k)).1

/-! ## Scopes (R139) -/

/-- The scopes depend on the mill, the stands' states, the gap records, the strip and the active bank alone. -/
theorem scopeHolds_congr {s t : State} (hstk : t.stk.mill.running = s.stk.mill.running)
    (hstate : ∀ k, (t.seq k).state = (s.seq k).state)
    (hgap : ∀ k, (t.gap k).windowRef = (s.gap k).windowRef ∧ (t.gap k).lastSent = (s.gap k).lastSent)
    (hpres : t.plu.pres = s.plu.pres) (hactive : t.sch.active = s.sch.active) (key : Key) :
    scopeHolds t key = scopeHolds s key := by
  have hset : t.activeSet = s.activeSet := by simp only [State.activeSet, State.millRec, hactive]
  have hstrip : ∀ k, t.stripPresent k = s.stripPresent k := fun k => by
    have h : t.presence k = s.presence k := congrArg (fun p => vget p k) hpres
    rw [State.stripPresent, State.stripPresent, h]
  have hin : ∀ k, t.inSet k = s.inSet k := fun k => by simp only [State.inSet, hset]
  have hfirst : ∀ k, t.isFirst k = s.isFirst k := fun k => by simp only [State.isFirst, State.firstActive, hset]
  have hprev : ∀ k, t.prevActive k = s.prevActive k := fun k => by simp only [State.prevActive, hset]
  cases key with
  | stand c k => cases c <;> simp only [scopeHolds, loopScope, hstate, hgap, hstrip, hin, hfirst, hprev]
  | exitStale => exact hstk
  | _ => rfl

theorem scopeHolds_goneKey (key key' : Key) (s : State) : scopeHolds (goneKey key s) key' = scopeHolds s key' :=
  scopeHolds_congr (by simp) (fun k => (standing_iff.mp (congrFun (goneKey_standing key s) k)).1)
    (fun k => by simp [State.gap]) (by simp) (by simp) key'

theorem scopeHolds_goneOutOfScope (key key' : Key) (s : State) : scopeHolds (goneOutOfScope key s) key' = scopeHolds s key' := by
  unfold goneOutOfScope
  split
  · exact scopeHolds_goneKey key key' s
  · rfl

theorem scopeHolds_clearCounters (key : Key) (s : State) : scopeHolds (clearCounters s) key = scopeHolds s key :=
  scopeHolds_congr rfl (fun _ => rfl) (fun _ => ⟨rfl, rfl⟩) rfl rfl key

theorem recordOf_goneOutOfScope (key key' : Key) (s : State) :
    (goneOutOfScope key s).recordOf key' =
      if key' = key ∧ scopeHolds s key = false then (s.recordOf key').bind TripRecord.gone else s.recordOf key' := by
  unfold goneOutOfScope
  cases hscope : scopeHolds s key with
  | true => simp
  | false =>
    cases hp : s.present key with
    | true =>
      simp only [Bool.not_false, Bool.and_self, if_true, and_true]
      exact recordOf_goneKey key key' s
    | false =>
      simp only [Bool.false_and, Bool.false_eq_true, if_false, and_true]
      split
      next h => rw [h, gone_of_not_present hp]
      next => rfl

theorem recordOf_goneEach (l : List Key) (key : Key) (s : State) :
    scopeHolds (l.foldl (fun s key => goneOutOfScope key s) s) key = scopeHolds s key ∧
      (l.foldl (fun s key => goneOutOfScope key s) s).recordOf key =
        if key ∈ l ∧ scopeHolds s key = false then (s.recordOf key).bind TripRecord.gone else s.recordOf key := by
  induction l generalizing s with
  | nil => simp
  | cons k l ih =>
    rw [List.foldl_cons]
    obtain ⟨hscope, hrec⟩ := ih (goneOutOfScope k s)
    refine ⟨hscope.trans (scopeHolds_goneOutOfScope k key s), ?_⟩
    rw [hrec, scopeHolds_goneOutOfScope, recordOf_goneOutOfScope]
    by_cases hk : key = k
    · subst hk
      cases scopeHolds s key <;> simp [gone_gone]
    · simp [hk]

/-- The evaluation of the scopes makes each key out of its scope gone, and leaves the others (R139). -/
theorem recordOf_evalScopes (key : Key) (s : State) :
    (evalScopes s).recordOf key =
      if scopeHolds s key = false then (s.recordOf key).bind TripRecord.gone else s.recordOf key := by
  have h := (recordOf_goneEach ((clearCounters s).tmx.table.map (·.key)) key (clearCounters s)).2
  rw [scopeHolds_clearCounters] at h
  refine h.trans ?_
  rw [show (clearCounters s).recordOf key = s.recordOf key from rfl]
  by_cases hmem : key ∈ s.tmx.table.map (·.key)
  · simp [show key ∈ (clearCounters s).tmx.table.map (·.key) from hmem]
  · simp [(recordOf_none_iff s key).mpr hmem]

theorem scopeHolds_evalScopes (key : Key) (s : State) : scopeHolds (evalScopes s) key = scopeHolds s key :=
  ((recordOf_goneEach _ key (clearCounters s)).1).trans (scopeHolds_clearCounters key s)

end Sys2Proof.Machine
end

section
/-! PROOFS. The sequencer, record by record: what each operation of the sequencer makes of the record of each stand (R114 to
R133). -/

namespace Sys2Proof.Machine

theorem seq_congr {s t : State} (h : t.ssq = s.ssq) (k : Stand) : t.seq k = s.seq k := by rw [State.seq, State.seq, h]

/-- The non-overlap time of a stand; 0 without a record (R3, R125). -/
def State.tNo (s : State) (k : Stand) : Nat := (s.record k).elim 0 (·.tNo)

/-- A record that takes a state: the equalize timer stops unless the state lets it run (R126). -/
def SeqRecord.enter (q : SeqRecord) (st : StandState) : SeqRecord :=
  { q with state := st, equalize := if equalizeRuns st then q.equalize else none }

/-- A record whose handover has gone, LOCAL_REQ deasserted (R131). -/
def SeqRecord.released (q : SeqRecord) : SeqRecord := { q with handover := none, localReq := false }

@[simp] theorem standNotice_seq (k j : Stand) (s : State) : (standNotice k s).seq j = s.seq j := seq_congr (by simp) j

@[simp] theorem updateNotice_seq (b : NoticeBody) (j : Stand) (s : State) : (updateNotice b s).seq j = s.seq j :=
  seq_congr (by simp) j

@[simp] theorem millNotice_seq (j : Stand) (s : State) : (millNotice s).seq j = s.seq j := seq_congr (by simp) j

@[simp] theorem tripNotice_seq (key : Key) (j : Stand) (s : State) : (tripNotice key s).seq j = s.seq j := seq_congr (by simp) j

@[simp] theorem millStopExists_withSeq (k : Stand) (f : SeqRecord → SeqRecord) (s : State) :
    (s.modSeq k f).millStopExists = s.millStopExists := rfl

/-! ## States entered -/

theorem evalDemand_seq (k j : Stand) (s : State) :
    (evalDemand k s).seq j = if j = k then (s.seq k).evalDemand s.millStopExists (s.tNo k) else s.seq j :=
  modSeq_seq s k j _

theorem setStandState_seq (k j : Stand) (st : StandState) (s : State) :
    (setStandState k st s).seq j =
      if j = k then ((s.seq k).enter st).evalDemand s.millStopExists (s.tNo k) else s.seq j := by
  unfold setStandState
  rw [evalDemand_seq, modSeq_seq_self, modSeq_seq]
  split <;> rfl

theorem tripStand_seq (k j : Stand) (s : State) :
    (tripStand k s).seq j =
      if j = k then ((s.seq k).enter .tripped).evalDemand s.millStopExists (s.tNo k) else s.seq j := by
  have base : ∀ t : State, t.ssq = (s.modSeq k fun q => { q with state := .tripped, equalize := none }).ssq →
      t.tmx = s.tmx → t.sch = s.sch → (evalDemand k t).seq j =
        if j = k then ((s.seq k).enter .tripped).evalDemand s.millStopExists (s.tNo k) else s.seq j := by
    intro t hssq htmx hsch
    have hseq : ∀ i, t.seq i = (s.modSeq k fun q => { q with state := .tripped, equalize := none }).seq i := seq_congr hssq
    have hstop : t.millStopExists = s.millStopExists := by rw [State.millStopExists, State.millStopExists, htmx]
    have htime : t.tNo k = s.tNo k := by rw [State.tNo, State.tNo, State.record, State.record, hsch]
    rw [evalDemand_seq, hseq, hseq, hstop, htime, modSeq_seq_self, modSeq_seq]
    split <;> rfl
  unfold tripStand
  dsimp only
  apply base
  · split <;> split <;> simp
  · split <;> split <;> simp
  · split <;> split <;> simp

theorem enterState_seq (k j : Stand) (st : StandState) (s : State) :
    (enterState k st s).seq j =
      if j = k then ((s.seq k).enter st).evalDemand s.millStopExists (s.tNo k) else s.seq j := by
  unfold enterState
  split
  next h =>
    subst h
    exact tripStand_seq k j s
  next => exact setStandState_seq k j st s

theorem leaveHandover_seq (k j : Stand) (st : StandState) (s : State) :
    (leaveHandover k st s).seq j =
      if j = k then ((s.seq k).released.enter st).evalDemand s.millStopExists (s.tNo k) else s.seq j := by
  unfold leaveHandover
  rw [enterState_seq, modSeq_seq_self, modSeq_seq]
  split
  next => rfl
  next => rfl

theorem endHandover_seq (k j : Stand) (dir : Direction) (st : StandState) (result : HandoverResult) (s : State) :
    (endHandover k dir st result s).seq j =
      if j = k then ((s.seq k).released.enter st).evalDemand s.millStopExists (s.tNo k) else s.seq j := by
  unfold endHandover
  rw [updateNotice_seq, standNotice_seq, leaveHandover_seq]

/-! ## Creations -/

/-- What the creation of an OPEN-class record makes of the record of a stand that it covers (R122, R133). -/
def SeqRecord.opened (q : SeqRecord) (inSet millStop : Bool) (tNo : Nat) : SeqRecord :=
  if q.state.inPass then (q.enter .tripped).evalDemand millStop tNo
  else if q.state = .handover then
    q.handover.elim q fun h => (q.released.enter (unconfirmedState h inSet true)).evalDemand millStop tNo
  else q

theorem openCreationAt_seq (k j : Stand) (s : State) :
    (openCreationAt k s).seq j =
      if j = k then (s.seq k).opened (s.inSet k) s.millStopExists (s.tNo k) else s.seq j := by
  have htrip : (enterTripped k s).seq j =
      if j = k then ((s.seq k).enter .tripped).evalDemand s.millStopExists (s.tNo k) else s.seq j :=
    (standNotice_seq k j _).trans (tripStand_seq k j s)
  have hsame : s.seq j = if j = k then s.seq k else s.seq j := by
    split
    next h => rw [h]
    next => rfl
  unfold openCreationAt SeqRecord.opened
  cases hst : (s.seq k).state
  case setup => exact htrip
  case ready => exact htrip
  case thread => exact htrip
  case roll => exact htrip
  case tail => exact htrip
  case tripped => exact hsame
  case out => exact hsame
  case local_ => exact hsame
  case handover =>
    show (abortHandover k s).seq j = _
    unfold abortHandover
    cases hh : (s.seq k).handover with
    | none => exact hsame
    | some h => exact endHandover_seq k j _ _ _ s

theorem eachStand_openCreation_seq (r : TripRecord) (j : Stand) (s : State) :
    (eachStand (fun k s => if r.covers k then openCreationAt k s else s) s).seq j =
      if r.covers j then (s.seq j).opened (s.inSet j) s.millStopExists (s.tNo j) else s.seq j := by
  refine eachStand_view (fun j s => s.seq j) (fun s => (s.tmx, s.sch)) _
    (fun c k q => if r.covers k then
        q.opened ((c.2.active.bank.mill.elim [] (·.activeSet)).contains k) (c.1.table.any fun r => r.action == .millStop)
          ((vget c.2.active.bank.stands k).elim 0 (·.tNo)) else q) (fun k s => ?_) (fun k j s => ?_) j s
  · split <;> simp
  · split
    · exact openCreationAt_seq k j s
    · split
      next h => rw [h]
      next => rfl

/-- What the hand-over of a creation makes of each stand's record (R115, R157). -/
theorem handCreation_seq (r : TripRecord) (j : Stand) (s : State) :
    (handCreation r s).seq j =
      { (if r.action.openClass && r.covers j then (s.seq j).opened (s.inSet j) s.millStopExists (s.tNo j) else s.seq j) with
        frozen := s.freezeCover j }.evalDemand s.millStopExists (s.tNo j) := by
  have hopen : ∀ t : State, t.tmx.table = s.tmx.table → t.sch = s.sch → (eachStand evalDemand (eachStand evalFrozen t)).seq j =
      { t.seq j with frozen := s.freezeCover j }.evalDemand s.millStopExists (s.tNo j) := by
    intro t htmx hsch
    have hcover : t.freezeCover j = s.freezeCover j := by rw [State.freezeCover, State.freezeCover, htmx]
    have hstop : (eachStand evalFrozen t).millStopExists = s.millStopExists := by
      rw [State.millStopExists, State.millStopExists, ← htmx]
      simp
    have htime : (eachStand evalFrozen t).record j = s.record j := by
      rw [State.record, State.record, ← hsch]
      simp
    rw [eachStand_evalDemand_seq, eachStand_evalFrozen_seq, hcover, hstop, htime]
    rfl
  unfold handCreation
  dsimp only
  cases r.action.openClass with
  | false => exact hopen (evalStopLine s) rfl rfl
  | true =>
    simp only [if_true, Bool.true_and]
    rw [hopen _ (by simp) (by simp), eachStand_openCreation_seq]
    rfl

end Sys2Proof.Machine
end

section
/-! PROOFS. What the bank swap, mill empty and the creation of a record make of the stands (R16, R80, R157). -/

namespace Sys2Proof.Machine

/-- What of a sequencer record an evaluation of the FAST_OPEN demand and of the frozen state leaves. -/
def SeqRecord.standing (q : SeqRecord) : StandState × Option Handover × Bool × Option Nat :=
  (q.state, q.handover, q.localReq, q.equalize)

theorem standing_eq (s : State) (k : Stand) : s.standing k = (s.seq k).standing := rfl

@[simp] theorem evalDemand_record_standing (q : SeqRecord) (millStop : Bool) (tNo : Nat) :
    (q.evalDemand millStop tNo).standing = q.standing := by
  obtain ⟨hstate, -, hhandover, hequalize, hreq⟩ := evalDemand_record_keeps q millStop tNo
  rw [SeqRecord.standing, hstate, hhandover, hequalize, hreq]
  rfl

/-! ## The swap -/

/-- What a swap makes of the record of a stand (R16). -/
def SeqRecord.swapped (q : SeqRecord) (inSet cover millStop : Bool) (tNo : Nat) : SeqRecord :=
  if q.state = .handover then { q with handover := q.handover.map swapHandover }
  else if q.state = .local_ ∨ q.state = .tripped ∨ q.state = placement inSet cover then q
  else (q.enter (placement inSet cover)).evalDemand millStop tNo

theorem placeAtSwap_seq (k j : Stand) (s : State) :
    (placeAtSwap k s).seq j =
      if j = k then (s.seq k).swapped (s.inSet k) (s.openCover k) s.millStopExists (s.tNo k) else s.seq j := by
  have hsame : s.seq j = if j = k then s.seq k else s.seq j := by
    split
    next h => rw [h]
    next => rfl
  have hplace (hh : (s.seq k).state ≠ .handover) (hl : (s.seq k).state ≠ .local_) (ht : (s.seq k).state ≠ .tripped) :
      (if (s.seq k).state = placement (s.inSet k) (s.openCover k) then s
        else standNotice k (enterState k (placement (s.inSet k) (s.openCover k)) s)).seq j =
        if j = k then (s.seq k).swapped (s.inSet k) (s.openCover k) s.millStopExists (s.tNo k) else s.seq j := by
    unfold SeqRecord.swapped
    simp only [hh, hl, ht, if_false, false_or]
    split
    · exact hsame
    · rw [standNotice_seq, enterState_seq]
  unfold placeAtSwap
  split
  next h =>
    unfold SeqRecord.swapped
    rw [modSeq_seq, if_pos h]
  next h =>
    unfold SeqRecord.swapped
    simp only [h, reduceCtorEq, if_false, true_or, if_true]
    exact hsame
  next h =>
    unfold SeqRecord.swapped
    simp only [h, reduceCtorEq, if_false, false_or, true_or, if_true]
    exact hsame
  next hh hl ht => exact hplace hh hl ht

theorem eachStand_placeAtSwap_seq (j : Stand) (s : State) :
    (eachStand placeAtSwap s).seq j = (s.seq j).swapped (s.inSet j) (s.openCover j) s.millStopExists (s.tNo j) :=
  eachStand_view (fun j s => s.seq j) (fun s => (s.tmx, s.sch)) placeAtSwap
    (fun c k q => q.swapped ((c.2.active.bank.mill.elim [] (·.activeSet)).contains k)
      (c.1.table.any fun r => r.action.openClass && r.covers k) (c.1.table.any fun r => r.action == .millStop)
      ((vget c.2.active.bank.stands k).elim 0 (·.tNo)))
    (fun k s => by simp) (fun k j s => placeAtSwap_seq k j s) j s

/-- What a swap leaves of a stand: its place by the new bank and the covers of the trip table (R16). -/
theorem swapBank_standing (k : Stand) (s : State) :
    (swapBank s).standing k =
      ((s.seq k).swapped ((swapStart s).inSet k) (s.openCover k) s.millStopExists ((swapStart s).tNo k)).standing := by
  rw [swapBank_eq, standing_eq, millNotice_seq, ← standing_eq, evalScopes_standing, standing_eq, eachStand_placeAtSwap_seq]
  rfl

/-! ## Mill empty -/

theorem tailToSetup_seq (k j : Stand) (s : State) :
    (tailToSetup k s).seq j =
      if j = k then (if (s.seq k).state = .tail then ((s.seq k).enter .setup).evalDemand s.millStopExists (s.tNo k) else s.seq k)
      else s.seq j := by
  unfold tailToSetup
  split
  next h =>
    unfold placeStand
    rw [standNotice_seq, setStandState_seq]
  next =>
    split
    next h => rw [h]
    next => rfl

theorem eachStand_tailToSetup_seq (j : Stand) (s : State) :
    (eachStand tailToSetup s).seq j =
      if (s.seq j).state = .tail then ((s.seq j).enter .setup).evalDemand s.millStopExists (s.tNo j) else s.seq j :=
  eachStand_view (fun j s => s.seq j) (fun s => (s.tmx, s.sch)) tailToSetup
    (fun c k q => if q.state = .tail then (q.enter .setup).evalDemand (c.1.table.any fun r => r.action == .millStop)
      ((vget c.2.active.bank.stands k).elim 0 (·.tNo)) else q)
    (fun k s => by simp) (fun k j s => tailToSetup_seq k j s) j s

/-- The state that mill empty finds once a COMMITTED bank is swapped (R80). -/
def emptied (s : State) : State := if s.sch.pendingBank.state = .committed then swapBank s else s

/-- The state that mill empty gives its mill state: the stands in TAIL in SETUP, and no tail mark (R80). -/
def unmarked (s : State) : State :=
  let t := evalScopes (eachStand tailToSetup (emptied s))
  t.withStk { t.stk with tailMarks := Vector.replicate 8 false }

theorem millEmpty_unfold (s : State) : millEmpty s = setMill (stateAfterEmpty (unmarked s)) (unmarked s) := by
  unfold millEmpty unmarked emptied
  rfl

theorem setMill_standing (m : MillState) (s : State) : (setMill m s).standing = s.standing := by
  unfold setMill
  rw [evalScopes_standing]
  exact standing_congr (by simp)

theorem unmarked_standing (k : Stand) (s : State) :
    (unmarked s).standing k =
      if ((emptied s).seq k).state = .tail then (((emptied s).seq k).enter .setup).standing else (emptied s).standing k := by
  have h : (unmarked s).standing = (evalScopes (eachStand tailToSetup (emptied s))).standing := by
    unfold unmarked
    exact standing_congr (by simp)
  rw [h, evalScopes_standing, standing_eq, eachStand_tailToSetup_seq]
  split
  · rw [evalDemand_record_standing]
  · rfl

/-- Mill empty sends the stands in TAIL to SETUP, once the swap has placed every stand (R80). -/
theorem millEmpty_standing (k : Stand) (s : State) :
    (millEmpty s).standing k =
      if ((emptied s).seq k).state = .tail then (((emptied s).seq k).enter .setup).standing else (emptied s).standing k := by
  rw [millEmpty_unfold, setMill_standing, unmarked_standing]

theorem millEmptyTest_cases (s : State) :
    s.millIsEmpty = true ∧ millEmptyTest s = millEmpty s ∨ s.millIsEmpty = false ∧ millEmptyTest s = s := by
  unfold millEmptyTest
  cases s.millIsEmpty <;> simp

end Sys2Proof.Machine
end

section
/-! PROOFS. What holds at every event: the changes that a statement about the stands, the mill and the scopes has to answer
for, each under the conditions on which the part makes it. A statement has two strengths, `P true` as an event leaves it and
`P false` as it stands before the trip matrix takes the change (R139). -/

namespace Sys2Proof.Machine

/-! ## The changes -/

/-- A stand enters THREAD on a head event, before the trip matrix takes the change (R68, R98, R117). -/
def threaded (k : Stand) (s : State) : State :=
  let s := setStandState k .thread s
  let s := s.modGap k GapRecord.enterThread
  if s.isFirst k && s.stk.mill == .armed then startCoil s else s

theorem threadStand_eq (k : Stand) (s : State) : threadStand k s = staleAtThread k (evalScopes (standNotice k (threaded k s))) := rfl

/-- A stand is restored, before its notice (R128). -/
def restored (k : Stand) (s : State) : State :=
  let s := s.modSeq k fun q => { q with fastOpen := false, nonOverlap := none }
  if s.inSet k then
    let tEq := (s.record k).elim 0 (·.tEq)
    (setStandState k .setup s).modSeq k fun q => { q with equalize := if 0 < tEq then some tEq else none }
  else setStandState k .out s

theorem restoreStand_eq (k : Stand) (s : State) : restoreStand k s = evalScopes (standNotice k (restored k s)) := rfl

/-- A stand enters HANDOVER, before its notice (R130). -/
def pendHandover (k : Stand) (h : Handover) (s : State) : State :=
  let s := s.modSeq k fun q => { q with handover := some h }
  let s := setStandState k .handover (emptySlot k s)
  s.modSeq k fun q => { q with localReq := true }

theorem enterHandover_eq (k : Stand) (h : Handover) (s : State) :
    enterHandover k h s = evalScopes (standNotice k (pendHandover k h s)) := rfl

/-- The states in which a handover may leave its stand (R131, R132). -/
inductive HandoverEnd (s : State) (k : Stand) : StandState → Prop where
  | unconfirmed (h : Handover) (cover : Bool) (hpending : (s.seq k).handover = some h) :
      HandoverEnd s k (unconfirmedState h (s.inSet k) cover)
  | granted (h : Handover) (hpending : (s.seq k).handover = some h) : HandoverEnd s k .local_
  | completed (hstate : (s.seq k).state = .local_ ∨ ∃ h, (s.seq k).handover = some h) :
      HandoverEnd s k (coordState (s.inSet k) (s.openCover k))

/-- The handovers that a HANDOVER request makes (R130). -/
inductive HandoverMade (s : State) (k : Stand) : Handover → Prop where
  | toLocal (n : Nat) (hcan : canGoLocal k s = true) :
      HandoverMade s k { dir := .toLocal, prior := some (s.seq k).state, remaining := n }
  | toCoord (n : Nat) (hstate : (s.seq k).state = .local_) : HandoverMade s k { dir := .toCoord, prior := none, remaining := n }

/-- The mill states that are set outside a swap, mill empty and a new coil (R66, R67, R75). -/
inductive MillChange (s : State) : MillState → Prop where
  | tailout (hmill : s.stk.mill = .rolling) : MillChange s .tailout
  | arm (harm : canArm s = true) : MillChange s .armed
  | disarm (hmill : s.stk.mill = .armed) : MillChange s .idle

/-- A change of the presence logic and the filters that makes no strip present and none absent (R47, R55). -/
structure SameStrip (s : State) (p : PresenceUnit) : Prop where
  absent (k : Stand) : (vget p.pres k).state = .absent ↔ (s.presence k).state = .absent
  settled : p.settled = s.plu.settled
  due (i : FilterId) : ((s.withPlu p).filter i).due = true → (s.filter i).due = true ∨ s.plu.settled = true

/-- A statement that the changes of the part uphold, but for those that move strip. -/
structure Upheld (P : Bool → State → Prop) : Prop where
  weaken {s : State} : P true s → P false s := by intros; assumption
  /-- the scopes evaluated (R139) -/
  scopes {s : State} : P false s → P true (evalScopes s)
  /-- a change of the host link -/
  host (l : HostLink) {b : Bool} {s : State} : P b s → P b (s.withHlk l) := by intros; assumption
  /-- a change of the field-in side -/
  line (asm : FieldAssembler) (accept : Vector AcceptEntry 24) {b : Bool} {s : State} :
    P b s → P b (s.withFlc { s.flc with asm := asm, accept := accept }) := by intros; assumption
  /-- a change of a gap record but for its last sent and its window reference -/
  gap (k : Stand) (f : GapRecord → GapRecord) (hf : ∀ g, (f g).windowRef = g.windowRef ∧ (f g).lastSent = g.lastSent)
    {b : Bool} {s : State} : P b s → P b (s.modGap k f)
  /-- the same for the gap records of all stands -/
  gaps (f : Stand → GapRecord → GapRecord) (hf : ∀ k g, (f k g).windowRef = g.windowRef ∧ (f k g).lastSent = g.lastSent)
    {b : Bool} {s : State} : P b s → P b (s.modGaps f)
  /-- a change of a channel -/
  chan (c : Chan) (f : Channel → Channel) {b : Bool} {s : State} : P b s → P b (s.modChan c f) := by intros; assumption
  /-- a change of the inputs that leaves the strip where it is -/
  inputs (p : PresenceUnit) {b : Bool} {s : State} (hp : SameStrip s p) : P b s → P b (s.withPlu p)
  /-- the inputs settled (R54, R55) -/
  settle (pins : InputPins) {b : Bool} {s : State} (hsettled : s.plu.settled = false) : P b s → P false (settleInputs pins s)
  /-- the timers counted down (R114) -/
  count {b : Bool} {s : State} : P b s → P b (countDown s)
  /-- CONFIGURE (R18) -/
  configure (body : List Byte) {b : Bool} {s : State} :
    P b s → P b ((s.withSch { s.sch with config := configured body s.sch.config }).withFlc { s.flc with
      slots := vtab fun k => if vget (configured body s.sch.config).tags k = 0 then none else vget s.flc.slots k })
  /-- SET_ACTIONS (R152) -/
  actions (rows : Vector Action 12) {b : Bool} {s : State} :
    P b s → P b (s.withSch { s.sch with config := { s.sch.config with actions := rows } }) := by intros; assumption
  /-- a change of the pending bank (R8 to R13) -/
  pend (p : PendingBank) (counter : Nat) {b : Bool} {s : State} :
    P b s → P b (s.withSch { s.sch with pendingBank := p, counter := counter }) := by intros; assumption
  /-- free values spent (log 9) -/
  spend {b : Bool} {s : State} : P b s → P b s.spendFree := by intros; assumption
  /-- a force sample counted (R141) -/
  countForce (k : Stand) (n : Nat) {s : State} (hn : n ≤ 8 ∨ n ≤ vget s.tmx.forceCnt k) :
    P false s → P false (s.withTmx { s.tmx with forceCnt := vset s.tmx.forceCnt k n }) := by intros; assumption
  /-- a gap sample counted (R141) -/
  countGap (k : Stand) (n : Nat) {s : State} (hn : n ≤ 8 ∨ n ≤ vget s.tmx.gapCnt k) :
    P false s → P false (s.withTmx { s.tmx with gapCnt := vset s.tmx.gapCnt k n }) := by intros; assumption
  /-- the record of a key HELD, or that of a present key ACKED (R155, R156) -/
  mark (key : Key) (st : RecState) {b : Bool} {s : State} (h : st = .held ∨ s.present key = true) :
    P b s → P b (s.modRecord key fun r => { r with state := st })
  /-- a HELD record raised again (R154) -/
  reraise (key : Key) {b : Bool} {s : State} (hscope : scopeHolds s key = true) :
    P b s → P b (s.modRecord key fun r => { r with state := .raised, occ := satSucc 255 r.occ })
  /-- the creation of a record (R154, R157) -/
  create (inTracker : Bool) (key : Key) {s : State} (hnew : s.recordOf key = none) :
    P false s → P true (createRecord inTracker key s)
  /-- the removal of a record (R157) -/
  remove (r : TripRecord) {b : Bool} {s : State} : P b s → P b (removeRecord r s)
  /-- mill empty (R80) -/
  empty {s : State} (hempty : s.millIsEmpty = true) : P false s → P true (millEmpty s)
  /-- a change of the mill state (R65) -/
  mill {m : MillState} {s : State} (h : MillChange s m) : P false s → P true (setMill m s)
  /-- a stand goes from SETUP to READY (R120) -/
  ready (k : Stand) {s : State} (hstate : (s.seq k).state = .setup) : P false s → P false (setStandState k .ready s)
  /-- a stand goes from THREAD to ROLL (R118) -/
  roll (k : Stand) {s : State} (hstate : (s.seq k).state = .thread) : P false s → P false (setStandState k .roll s)
  /-- a stand goes from READY to THREAD (R117) -/
  thread (k : Stand) {s : State} (hset : s.inSet k = true) (hstate : (s.seq k).state = .ready)
    (hthreads : headThreads k s = true) : P false s → P false (threaded k s)
  /-- a stand goes from THREAD or ROLL to TAIL (R118) -/
  tail (k : Stand) {s : State} (hstate : (s.seq k).state.rolling = true) : P false s → P false (setStandState k .tail s)
  /-- a setpoint produced (R36, R90) -/
  send (k : Stand) (mode : Mode) (ref : Int) {s : State} (hrecord : s.record k ≠ none)
    (hstate : (s.seq k).state.away = false) : P false s → P false (produce k mode ref s)
  /-- a slot emptied (R37) -/
  emptySlot (k : Stand) {b : Bool} {s : State} : P b s → P b (emptySlot k s)
  /-- the line takes the next setpoint (R38) -/
  next {s : State} (hbusy : s.flc.tx ≠ none) : P false s → P false (nextSetpoint s)
  /-- a handover ends (R131) -/
  leave (k : Stand) (st : StandState) {s : State} (h : HandoverEnd s k st) : P false s → P false (leaveHandover k st s)
  /-- a handover begins (R130) -/
  pendHandover (k : Stand) (h : Handover) {s : State} (hmade : HandoverMade s k h) : P false s → P false (pendHandover k h s)
  /-- a stand restored (R128) -/
  restore (k : Stand) {s : State} (hok : restoreOutcome k s = .ok) : P false s → P false (restored k s)
  /-- FAST_OPEN asserted at the end of its interval (R125) -/
  overlap (k : Stand) {b : Bool} {s : State} (hdue : (s.seq k).nonOverlap = some 0) :
    P b s → P b (s.modSeq k fun q => { q with nonOverlap := none, fastOpen := true })
  /-- the equalize interval ended (R126) -/
  equalized (k : Stand) {b : Bool} {s : State} : P b s → P b (s.modSeq k fun q => { q with equalize := none })
  /-- the bank swap in IDLE (R15) -/
  swap {s : State} (hmill : s.stk.mill = .idle) : P false s → P true (swapBank s)
  /-- the soft reset of the stands and the tracker (R85, R137) -/
  reset {s : State} (hthreaded : s.anyThreaded = false) :
    P false s → P true (resetTracker (resetStands (resetCounters (resetGaps (resetLengths (resetSlots (resetReports s)))))))

variable {P : Bool → State → Prop}

/-! ## The trip matrix -/

theorem Upheld.toFalse (h : Upheld P) {b : Bool} {s : State} (hs : P b s) : P false s := by
  cases b with
  | true => exact h.weaken hs
  | false => exact hs

theorem Upheld.ofTrue (h : Upheld P) {b : Bool} {s : State} (hs : P true s) : P b s := by
  cases b with
  | true => exact hs
  | false => exact h.weaken hs

theorem Upheld.notice (h : Upheld P) (n : NoticeBody) {b : Bool} {s : State} (hs : P b s) : P b (updateNotice n s) := by
  unfold updateNotice
  split
  · exact h.host _ hs
  · exact hs

theorem Upheld.after_standNotice (h : Upheld P) (k : Stand) {b : Bool} {s : State} (hs : P b s) : P b (standNotice k s) :=
  h.notice _ hs

theorem Upheld.after_tripNotice (h : Upheld P) (key : Key) {b : Bool} {s : State} (hs : P b s) : P b (tripNotice key s) := by
  unfold tripNotice
  split
  · exact h.notice _ hs
  · exact hs

theorem Upheld.after_goneKey (h : Upheld P) (key : Key) {b : Bool} {s : State} (hs : P b s) : P b (goneKey key s) := by
  obtain ⟨-, e⟩ | ⟨r, -, ⟨-, e⟩ | ⟨-, e⟩ | ⟨-, e⟩⟩ := goneKey_cases key s <;> rw [e]
  · exact hs
  · exact h.after_tripNotice key (h.mark key .held (.inl rfl) hs)
  · exact h.remove r hs
  · exact hs

theorem Upheld.after_raiseKey (h : Upheld P) (inTracker : Bool) (key : Key) {b : Bool} {s : State}
    (hscope : scopeHolds s key = true) (hs : P b s) : P b (raiseKey inTracker key s) := by
  obtain ⟨hnew, e⟩ | ⟨r, -, ⟨-, e⟩ | ⟨-, e⟩⟩ := raiseKey_cases inTracker key s <;> rw [e]
  · exact h.ofTrue (h.create inTracker key hnew (h.toFalse hs))
  · exact h.after_tripNotice key (h.reraise key hscope hs)
  · exact hs

theorem Upheld.after_pulseKey (h : Upheld P) (key : Key) {b : Bool} {s : State} (hscope : scopeHolds s key = true) (hs : P b s) :
    P b (pulseKey key s) := h.after_goneKey key (h.after_raiseKey false key hscope hs)

theorem Upheld.after_levelKey (h : Upheld P) (key : Key) (holds : Bool) {b : Bool} {s : State}
    (hscope : scopeHolds s key = true) (hs : P b s) : P b (levelKey key holds s) := by
  unfold levelKey
  split
  · exact h.after_raiseKey false key hscope hs
  · exact h.after_goneKey key hs

theorem Upheld.after_millEmptyTest (h : Upheld P) {s : State} (hs : P true s) : P true (millEmptyTest s) := by
  obtain ⟨hempty, e⟩ | ⟨-, e⟩ := millEmptyTest_cases s <;> rw [e]
  · exact h.empty hempty (h.weaken hs)
  · exact hs

theorem Upheld.after_takeCount (h : Upheld P) (key : Key) (beyond : Bool) {s : State} (hs : P true s) :
    P true (takeCount key beyond s) := by
  unfold takeCount
  split
  · split
    next hscope => exact h.after_raiseKey true key hscope hs
    next => exact hs
  · exact h.after_goneKey key hs

theorem Upheld.after_handCount (h : Upheld P) (k : Stand) (count : Nat) {s : State} (hs : P true s) :
    P true (handCount k count s) := by
  unfold handCount
  split
  · exact h.after_takeCount _ _ (h.after_takeCount _ _ (h.after_takeCount _ _ hs))
  · exact hs

theorem Upheld.after_handCounts (h : Upheld P) (before : State) {s : State} (hs : P true s) : P true (handCounts before s) :=
  foldl_inv _ (fun k _ ht => h.after_handCount k _ ht) _ hs

theorem Upheld.after_endTracker (h : Upheld P) (before : State) {s : State} (hs : P true s) : P true (endTracker before s) :=
  h.after_millEmptyTest (h.after_handCounts before hs)

theorem Upheld.after_takeExitStale (h : Upheld P) (fresh : Bool) {s : State} (hs : P true s) : P true (takeExitStale fresh s) := by
  unfold takeExitStale
  split
  · exact h.after_goneKey _ hs
  · split
    next hscope => exact h.after_raiseKey true _ hscope hs
    next => exact hs

/-! ## The sequencer -/

theorem Upheld.after_placeStand (h : Upheld P) (k : Stand) (st : StandState) {s : State} (hs : P false (setStandState k st s)) :
    P false (placeStand k st s) := h.after_standNotice k hs

theorem Upheld.after_windowTest (h : Upheld P) (k : Stand) {s : State} (hs : P false s) : P false (windowTest k s) := by
  obtain ⟨hstate, -, e⟩ | ⟨-, e⟩ := windowTest_cases k s <;> rw [e]
  · exact h.after_placeStand k .ready (h.ready k hstate hs)
  · exact hs

theorem Upheld.after_lockOn (h : Upheld P) (k : Stand) {b : Bool} {s : State} (hstate : (s.seq k).state = .thread) (hs : P b s) :
    P b (lockOn k s) := by
  unfold lockOn
  split
  · refine h.ofTrue (h.scopes (h.after_placeStand k .roll (h.roll k hstate ?_)))
    exact h.gap k (fun g => { g with hLock := _, sRefLock := g.sRef, locked := true }) (fun _ => ⟨rfl, rfl⟩) (h.toFalse hs)
  · exact hs

theorem Upheld.after_countAdvance (h : Upheld P) (k : Stand) {s : State} (hs : P true s) : P true (countAdvance k s) := by
  unfold countAdvance
  split
  · split
    next hcount =>
      obtain ⟨hstate, -⟩ := hcount
      have hcounted := h.gap k (fun g => { g with lockCount := g.lockCount + 1 }) (fun _ => ⟨rfl, rfl⟩) hs
      dsimp only
      split
      · exact h.after_lockOn k hstate hcounted
      · exact hcounted
    next => exact hs
  · exact hs

theorem Upheld.after_staleAtThread (h : Upheld P) (k : Stand) {s : State} (hs : P true s) : P true (staleAtThread k s) := by
  unfold staleAtThread
  split
  next hthread =>
    obtain ⟨hstate, -⟩ := hthread
    exact h.after_raiseKey false _ (by simp [scopeHolds, hstate, StandState.threaded]) hs
  next => exact hs

theorem Upheld.after_threadStand (h : Upheld P) (k : Stand) {s : State} (hset : s.inSet k = true)
    (hstate : (s.seq k).state = .ready) (hthreads : headThreads k s = true) (hs : P false s) : P true (threadStand k s) := by
  rw [threadStand_eq]
  exact h.after_staleAtThread k (h.scopes (h.after_standNotice k (h.thread k hset hstate hthreads hs)))

theorem Upheld.after_seqHead (h : Upheld P) (k : Stand) {s : State} (hset : s.inSet k = true) (hs : P false s) :
    P true (seqHead k s) := by
  unfold seqHead
  rw [if_pos hset]
  refine h.scopes ?_
  unfold sequenceHead
  split
  case h_1 hstate =>
    split
    next hthreads => exact h.weaken (h.after_threadStand k hset hstate hthreads hs)
    next => exact h.after_pulseKey _ rfl hs
  case h_2 | h_3 => exact h.after_pulseKey _ rfl hs
  all_goals exact hs

theorem Upheld.after_seqTail (h : Upheld P) (k : Stand) {s : State} (hs : P true s) : P true (seqTail k s) := by
  unfold seqTail
  split
  next hrolling =>
    have htail : P true (evalScopes (standNotice k ((setStandState k .tail s).modGap k fun g => { g with lockCount := 0 }))) :=
      h.scopes (h.after_standNotice k
        (h.gap k (fun g => { g with lockCount := 0 }) (fun _ => ⟨rfl, rfl⟩) (h.tail k hrolling (h.weaken hs))))
    dsimp only
    split
    · exact h.after_millEmptyTest htail
    · exact htail
  next => exact hs

theorem Upheld.after_endHandover (h : Upheld P) (k : Stand) (dir : Direction) (st : StandState) (result : HandoverResult)
    {s : State} (hend : HandoverEnd s k st) (hs : P false s) : P true (evalScopes (endHandover k dir st result s)) :=
  h.scopes (h.notice _ (h.after_standNotice k (h.leave k st hend hs)))

theorem Upheld.after_completeToCoord (h : Upheld P) (k : Stand) {s : State}
    (hstate : (s.seq k).state = .local_ ∨ ∃ ho, (s.seq k).handover = some ho) (hs : P false s) : P true (completeToCoord k s) :=
  h.after_endHandover k _ _ _ (.completed hstate) hs

theorem Upheld.after_panelChange (h : Upheld P) (k : Stand) (active : Bool) {s : State} (hs : P true s) :
    P true (panelChange k active s) := by
  unfold panelChange
  split
  next ho hpending =>
    split <;> split
    · exact h.after_endHandover k _ _ _ (.granted ho hpending) (h.weaken hs)
    · exact hs
    · exact hs
    · exact h.after_completeToCoord k (.inr ⟨ho, hpending⟩) (h.weaken hs)
  next => exact hs

/-! ## Samples and lapses -/

/-- What a condition with a persistence counter makes of a sample: a count within 8, and a raise in scope alone (R141). -/
theorem persist_bound (beyond scope present : Bool) (needed count : Nat) :
    ((persist beyond scope present needed count).1 ≤ 8 ∨ (persist beyond scope present needed count).1 ≤ count) ∧
      ((persist beyond scope present needed count).2 = true → scope = true) := by
  unfold persist
  cases beyond with
  | false => simp
  | true => cases scope <;> cases present <;> simp [satSucc_le]

theorem Upheld.after_takeForce (h : Upheld P) (k : Stand) (value : Int) {s : State} (hs : P false s) :
    P false (takeForce k value s) := by
  unfold takeForce
  split
  next r _ =>
    obtain ⟨hbound, hscope⟩ := persist_bound (decide ((r.fMax : Int) < value)) (scopeHolds s (.stand .forceHigh k))
      (s.present (.stand .forceHigh k)) r.pF (vget s.tmx.forceCnt k)
    have hcounted := h.countForce k _ hbound hs
    dsimp only
    split
    next hraise => exact h.after_raiseKey false _ (hscope hraise) hcounted
    next =>
      split
      · exact hcounted
      · exact h.after_goneKey _ hcounted
  next => exact hs

theorem Upheld.after_takeWindow (h : Upheld P) (k : Stand) (value : Int) {s : State} (hs : P false s) :
    P false (takeWindow k value s) := by
  unfold takeWindow
  split
  next r ref _ _ =>
    obtain ⟨hbound, hscope⟩ := persist_bound (decide ((r.w : Int) < (value - ref).natAbs)) (scopeHolds s (.stand .gapWindow k))
      (s.present (.stand .gapWindow k)) r.pW (vget s.tmx.gapCnt k)
    have hcounted := h.countGap k _ hbound hs
    dsimp only
    split
    next hraise => exact h.after_raiseKey false _ (hscope hraise) hcounted
    next =>
      split
      · exact hcounted
      · exact h.after_goneKey _ hcounted
  next => exact hs

theorem Upheld.after_clearStale (h : Upheld P) (k : Stand) {s : State} (hs : P false s) : P false (clearStale k s) := by
  unfold clearStale
  split
  · exact h.after_goneKey _ hs
  · exact hs

theorem Upheld.after_lapseAt (h : Upheld P) (k : Stand) {s : State} (hs : P true s) : P true (takeLapse.lapseAt k s) := by
  unfold takeLapse.lapseAt
  split
  next hscope => exact h.after_raiseKey false _ hscope hs
  next => exact hs

theorem Upheld.after_takeLapse (h : Upheld P) (c : Chan) {s : State} (hs : P true s) : P true (takeLapse c s) := by
  unfold takeLapse
  split
  · exact h.after_lapseAt _ hs
  · exact h.after_lapseAt _ hs
  · exact hs

theorem Upheld.after_takeSample (h : Upheld P) (c : Chan) (value : Int) {s : State} (hs : P false s) :
    P false (takeSample c value s) := by
  unfold takeSample
  split
  · exact h.after_clearStale _ (h.after_takeForce _ _ hs)
  · exact h.after_windowTest _ (h.after_clearStale _ (h.after_takeWindow _ _ hs))
  · exact h.after_levelKey _ _ rfl hs
  · exact hs

theorem Upheld.after_deliver (h : Upheld P) (c : Chan) (hit : EntryNo) (f : FieldFrame) {s : State} (hs : P true s) :
    P true (deliver c hit f s) := by
  unfold deliver
  split
  · exact hs
  split
  · dsimp only
    split
    · exact h.chan c _ hs
    · exact h.after_takeLapse c (h.chan c _ hs)
  · exact h.scopes (h.after_takeSample c _ (h.chan c _ (h.weaken hs)))

theorem Upheld.after_takeFrame (h : Upheld P) (frame : List Byte) {s : State} (hs : P true s) : P true (takeFrame frame s) := by
  unfold takeFrame
  dsimp only
  split
  · exact hs
  split
  · exact hs
  split
  · exact h.after_deliver _ _ _ hs
  · exact hs

theorem Upheld.after_expireChannel (h : Upheld P) (c : Chan) {s : State} (hs : P true s) : P true (expireChannel c s) :=
  h.after_takeLapse c (h.chan c _ hs)

end Sys2Proof.Machine
end

section
/-! PROOFS. What holds at every event, continued: updates, requests and moves; and the changes that move strip. -/

namespace Sys2Proof.Machine

variable {P : Bool → State → Prop}

/-! ## Updates -/

theorem Upheld.after_estimate (h : Upheld P) (k : Stand) (r : StandRecord) {b : Bool} {s : State} (hs : P b s) :
    P b (estimate k r s) := by
  unfold estimate
  split
  · exact h.gap k (fun g => g.compute _) (fun _ => ⟨rfl, rfl⟩) hs
  · exact h.gap k (fun g => { g with stale := true }) (fun _ => ⟨rfl, rfl⟩) hs

theorem estimate_seq (k j : Stand) (r : StandRecord) (s : State) : (estimate k r s).seq j = s.seq j := seq_congr (by simp) j

theorem produce_seq (k j : Stand) (mode : Mode) (ref : Int) (s : State) : (produce k mode ref s).seq j = s.seq j :=
  seq_congr (by simp) j

theorem estimate_record (k j : Stand) (r : StandRecord) (s : State) : (estimate k r s).record j = s.record j := by
  rw [State.record, State.record]
  simp

theorem Upheld.after_updateOut (h : Upheld P) (k : Stand) (r : StandRecord) {s : State} (hrecord : s.record k ≠ none)
    (hstate : (s.seq k).state = .out) (hs : P false s) : P false (updateOut k r s) := by
  have haway : (s.seq k).state.away = false := by rw [hstate]; rfl
  unfold updateOut
  split
  · exact h.send k _ _ hrecord haway hs
  · exact h.send k _ _ hrecord haway hs
  · exact hs
  · exact hs

theorem Upheld.after_updateSetup (h : Upheld P) (k : Stand) (r : StandRecord) {s : State} (hrecord : s.record k ≠ none)
    (hstate : (s.seq k).state = .setup) (hs : P false s) : P false (updateSetup k r s) := by
  have haway : (s.seq k).state.away = false := by rw [hstate]; rfl
  refine h.after_windowTest k ?_
  split
  · exact hs
  · exact h.send k _ _ hrecord haway hs

theorem Upheld.after_updateReady (h : Upheld P) (k : Stand) (r : StandRecord) {s : State} (hrecord : s.record k ≠ none)
    (hstate : (s.seq k).state = .ready) (hs : P false s) : P false (updateReady k r s) := by
  have haway : (s.seq k).state.away = false := by rw [hstate]; rfl
  unfold updateReady
  split
  · exact hs
  · exact h.send k _ _ hrecord haway hs

theorem Upheld.after_updateThread (h : Upheld P) (k : Stand) (r : StandRecord) {s : State} (hrecord : s.record k ≠ none)
    (hstate : (s.seq k).state = .thread) (hs : P false s) : P false (updateThread k r s) := by
  have hsent : P false (produce k .hold r.sPreset (estimate k r s)) :=
    h.send k _ _ (by rwa [estimate_record]) (by rw [estimate_seq, hstate]; rfl) (h.after_estimate k r hs)
  unfold updateThread
  dsimp only
  split
  · exact h.after_lockOn k (by rw [produce_seq, estimate_seq, hstate]) hsent
  · exact hsent

theorem Upheld.after_updateRoll (h : Upheld P) (k : Stand) (r : StandRecord) {s : State} (hrecord : s.record k ≠ none)
    (hstate : (s.seq k).state = .roll) (hs : P false s) : P false (updateRoll k r s) := by
  have hest := h.after_estimate k r hs
  have hrec : (estimate k r s).record k ≠ none := by rwa [estimate_record]
  have haway : ((estimate k r s).seq k).state.away = false := by rw [estimate_seq, hstate]; rfl
  unfold updateRoll
  dsimp only
  split
  · refine h.send k _ _ hrec haway ?_
    refine h.gap k _ (fun g => ?_) hest
    exact ⟨rfl, rfl⟩
  · exact h.send k _ _ hrec haway hest

theorem Upheld.after_update (h : Upheld P) (k : Stand) (r : StandRecord) {s : State} (hrecord : s.record k ≠ none)
    (hs : P false s) : P false (update k r s) := by
  unfold update
  split
  case h_1 hstate => exact h.after_updateOut k r hrecord hstate hs
  case h_2 hstate => exact h.after_updateSetup k r hrecord hstate hs
  case h_3 hstate => exact h.after_updateReady k r hrecord hstate hs
  case h_4 hstate => exact h.after_updateThread k r hrecord hstate hs
  case h_5 hstate => exact h.after_updateRoll k r hrecord hstate hs
  case h_6 hstate => exact h.send k _ _ hrecord (by rw [hstate]; rfl) hs
  case h_7 hstate => exact h.send k _ _ hrecord (by rw [hstate]; rfl) hs
  case h_8 => exact h.emptySlot k hs
  case h_9 => exact h.emptySlot k hs

theorem Upheld.after_expireUpdate (h : Upheld P) (k : Stand) {s : State} (hs : P true s) : P true (expireUpdate k s) := by
  unfold expireUpdate
  split
  next r hrecord =>
    exact h.scopes (h.after_update k r (fun hnone => nomatch hnone.symm.trans hrecord)
      (h.gap k (fun g => { g with timer := some r.tCtl }) (fun _ => ⟨rfl, rfl⟩) (h.weaken hs)))
  next => exact hs

/-! ## Requests -/

theorem Upheld.after_ackKey (h : Upheld P) (key : Key) {b : Bool} {s : State} (hs : P b s) : P b (ackKey key s).1 := by
  unfold ackKey
  split
  · exact hs
  next r hr =>
    split
    next hstate =>
      exact h.after_tripNotice key (h.mark key .acked (.inr (by simp [State.present, hr, hstate])) hs)
    next => exact h.remove r hs
    next => exact hs

theorem Upheld.after_ackKeys (h : Upheld P) (keys : List Key) {b : Bool} {s : State} (hs : P b s) : P b (ackKeys keys s).1 := by
  suffices ∀ t : State × Nat, P b t.1 → P b (keys.foldl (fun t key => let u := ackKey key t.1; (u.1, t.2 + u.2)) t).1 from
    this (s, 0) hs
  induction keys with
  | nil => exact fun _ ht => ht
  | cons key keys ih => exact fun t ht => ih _ (h.after_ackKey key ht)

theorem Upheld.after_restoreOne (h : Upheld P) (k : Stand) {s : State} (hs : P true s) : P true (restoreOne k s) := by
  unfold restoreOne
  split
  next hok =>
    rw [restoreStand_eq]
    exact h.scopes (h.after_standNotice k (h.restore k hok (h.weaken hs)))
  next => exact hs

theorem Upheld.after_restoreAll (h : Upheld P) {s : State} (hs : P true s) : P true (restoreAll s).1 := by
  suffices ∀ (l : List Stand) (t : State × List (Stand × ReplyCode)), P true t.1 →
      P true (l.foldl (fun t k => (restoreOne k t.1, t.2 ++ [(k, restoreOutcome k t.1)])) t).1 from this allStands (s, []) hs
  intro l
  induction l with
  | nil => exact fun _ ht => ht
  | cons k l ih => exact fun t ht => ih _ (h.after_restoreOne k ht)

theorem Upheld.after_enterHandover (h : Upheld P) (k : Stand) (ho : Handover) {s : State} (hmade : HandoverMade s k ho)
    (hs : P true s) : P true (enterHandover k ho s) := by
  rw [enterHandover_eq]
  exact h.scopes (h.after_standNotice k (h.pendHandover k ho hmade (h.weaken hs)))

theorem Upheld.after_takeHandover (h : Upheld P) (k : Stand) (dir : Direction) (seconds : Nat) {s : State}
    (hcan : canHandover k dir s = true) (hs : P true s) : P true (takeHandover k dir seconds s) := by
  unfold takeHandover
  cases dir with
  | toLocal => exact h.after_enterHandover k _ (.toLocal _ hcan) hs
  | toCoord =>
    have hstate : (s.seq k).state = .local_ := by simpa [canHandover] using hcan
    dsimp only
    split
    · exact h.after_completeToCoord k (.inl hstate) (h.weaken hs)
    · exact h.after_enterHandover k _ (.toCoord _ hstate) hs

theorem Upheld.after_softReset (h : Upheld P) {s : State} (hthreaded : s.anyThreaded = false) (hs : P true s) :
    P true (softReset s) := h.after_pulseKey _ rfl (h.reset hthreaded (h.weaken hs))

/-! ## Strip -/

/-- An upheld statement that the changes which move strip uphold too. -/
structure Tracked (P : Bool → State → Prop) : Prop extends Upheld P where
  /-- a head (R48) -/
  head (k : Stand) {s : State} (hdue : (s.filter (.hmd k)).due = true) (hon : pinActive s.plu.pins (.hmd k) = true)
    (habsent : (s.presence k).state = .absent) : P true s → P true (headEvent k (senseStrip k s))
  /-- a bite advance at the tracker (R72) -/
  advance (k : Stand) {s : State} : P true s → P true (trackAdvance k s)
  /-- a tail (R51) -/
  tailEnd (k : Stand) {s : State} (hstate : (s.presence k).state = .dropout) : P true s → P true (tailConfirmed k s)
  /-- CLEAR_MILL (R81) -/
  clearMill {s : State} (hclear : canClearMill s = true) : P true s → P true (clearMill s)

theorem sense_absent (p : Presence) (level : Bool) (h : ¬(level = true ∧ p.state = .absent)) :
    (p.sense level).state = .absent ↔ p.state = .absent := by
  unfold Presence.sense
  cases level <;> cases hp : p.state <;> simp [hp] at h ⊢

theorem sameStrip_of_filter (i : FilterId) (f : Filter) (s : State) (hf : f.due = false) :
    SameStrip s (s.setFilter i f).plu where
  absent k := by cases i <;> rfl
  settled := by cases i <;> rfl
  due j hdue := by
    have hset : (s.withPlu (s.setFilter i f).plu).filter j = if j = i then f else s.filter j := by
      rw [← setFilter_filter]
      cases i <;> rfl
    rw [hset] at hdue
    split at hdue
    · rw [hf] at hdue
      contradiction
    · exact .inl hdue

theorem setFilter_eq (i : FilterId) (f : Filter) (s : State) : s.setFilter i f = s.withPlu (s.setFilter i f).plu := by
  cases i <;> rfl

theorem senseStrip_sameStrip (k : Stand) (s : State)
    (h : ¬(pinActive s.plu.pins (.hmd k) = true ∧ (s.presence k).state = .absent)) : SameStrip s (senseStrip k s).plu where
  absent j := by
    show (vget (vset s.plu.pres k ((vget s.plu.pres k).sense _)) j).state = .absent ↔ _
    rw [vget_vset]
    split
    next hjk =>
      subst hjk
      exact sense_absent _ _ h
    next => exact Iff.rfl
  settled := rfl
  due j hdue :=
    (sameStrip_of_filter (.hmd k) { level := pinActive s.plu.pins (.hmd k), count := 0, due := false } s rfl).due j
      (by cases j <;> exact hdue)

theorem Tracked.after_acceptFilter (h : Tracked P) (i : FilterId) {s : State} (hdue : (s.filter i).due = true) (hs : P true s) :
    P true (acceptFilter i s) := by
  cases i with
  | hmd k =>
    rw [acceptFilter_hmd]
    split
    next hon => exact h.head k hdue hon.1 hon.2 hs
    next hoff =>
      have e : senseStrip k s = s.withPlu (senseStrip k s).plu := rfl
      rw [e]
      exact h.inputs _ (senseStrip_sameStrip k s hoff) hs
  | stop n =>
    refine h.after_levelKey (.stopInput n) _ rfl ?_
    rw [setFilter_eq]
    exact h.inputs _ (sameStrip_of_filter (.stop n) _ s rfl) hs
  | panel k =>
    refine h.after_panelChange k _ ?_
    rw [setFilter_eq]
    exact h.inputs _ (sameStrip_of_filter (.panel k) _ s rfl) hs

theorem sameStrip_acc (acc : Vector Nat 8) (s : State) : SameStrip s { s.plu with acc := acc } where
  absent _ := Iff.rfl
  settled := rfl
  due i hdue := .inl (by cases i <;> exact hdue)

theorem sameStrip_measured (k : Stand) (n : Nat) (s : State) :
    SameStrip s (s.modPresence k fun p => { p with measurer := n }).plu where
  absent j := by
    show (vget (vset s.plu.pres k { vget s.plu.pres k with measurer := n }) j).state = .absent ↔ _
    rw [vget_vset]
    split
    next hjk =>
      subst hjk
      exact Iff.rfl
    next => exact Iff.rfl
  settled := rfl
  due i hdue := .inl (by cases i <;> exact hdue)

theorem sameStrip_sampled (pins : InputPins) (s : State) (hsettled : s.plu.settled = true) :
    SameStrip s (sampleFilters pins s).plu where
  absent _ := Iff.rfl
  settled := rfl
  due _ _ := .inr hsettled

theorem Tracked.after_forwardAt (h : Tracked P) (k : Stand) {s : State} (hs : P true s) : P true (forwardAt k s) := by
  have hacc : P true (accumulate k s) := by
    unfold accumulate
    split
    · dsimp only
      split
      · exact h.after_countAdvance k (h.advance k (h.inputs _ (sameStrip_acc _ s) hs))
      · exact h.inputs _ (sameStrip_acc _ s) hs
    · exact hs
  unfold forwardAt measure
  split
  next hstate =>
    dsimp only
    split
    · exact h.tailEnd k hstate hacc
    · exact h.inputs _ (sameStrip_measured k _ _) hacc
  next => exact hacc

/-! ## Every move -/

theorem Tracked.after_effect (h : Tracked P) {s t : State} (e : Effect s t) (hs : P true s) : P true t := by
  cases e with
  | accept i hdue => exact h.after_acceptFilter i hdue hs
  | pulse k => exact h.after_forwardAt k hs
  | frame frame => exact h.after_takeFrame frame hs
  | channel c hdue => exact h.after_expireChannel c hs
  | update k hdue => exact h.after_expireUpdate k hs
  | setpoint hbusy => exact h.scopes (h.next hbusy (h.weaken hs))
  | handover k ho hpending hdue => exact h.after_endHandover k _ _ _ (.unconfirmed ho _ hpending) (h.weaken hs)
  | stream i hdue => exact h.notice _ (h.host _ hs)

theorem Tracked.after_request (h : Tracked P) {s t : State} (e : RequestEffect s t) (hs : P true s) : P true t := by
  cases e with
  | nothing => exact hs
  | spend => exact h.spend hs
  | configure body hmill hfault => exact h.configure body hs
  | setAccept body => exact h.line _ _ hs
  | setActions body hfault => exact h.actions _ hs
  | loadStand k body hfield => exact h.pend _ _ hs
  | loadMill body hfield => exact h.pend _ _ hs
  | commit hstate hvalid => exact h.pend _ _ hs
  | swap hmill hstate => exact h.swap hmill (h.weaken hs)
  | commitSwap hmill hstate hvalid => exact h.swap (s := commitPending s) hmill (h.weaken (h.pend _ _ hs))
  | clearPending => exact h.pend _ _ hs
  | arm harm => exact h.mill (.arm harm) (h.weaken hs)
  | disarm hmill => exact h.mill (.disarm hmill) (h.weaken hs)
  | clearMill hclear => exact h.clearMill hclear hs
  | setTrim k r x hrecord =>
    exact h.gap k (fun g => { g with trim := saturate (-(r.trimMax : Int)) r.trimMax x }) (fun _ => ⟨rfl, rfl⟩) hs
  | stop => exact h.after_pulseKey _ rfl hs
  | ackTrip keys => exact h.after_ackKeys keys hs
  | restoreAll => exact h.after_restoreAll hs
  | restore k => exact h.after_restoreOne k hs
  | handover k dir seconds hstate hcan => exact h.after_takeHandover k dir seconds hcan hs
  | setReports body hlen hfault => exact h.spend (h.host _ hs)
  | setAux body => exact h.host _ hs
  | reset hthreaded => exact h.after_softReset hthreaded hs

theorem Tracked.after_takeRequest (h : Tracked P) (q : HostFrame) {s : State} (hs : P true s) : P true (takeRequest q s) :=
  h.host _ (h.after_request (answer_effect q.kind.toNat q.body s) hs)

theorem Tracked.after_endEvent (h : Tracked P) {s : State} (hs : P true s) : P true (endEvent s) := by
  unfold endEvent pumpWith
  split
  · exact hs
  next reply _ _ =>
    have hsent := h.host { s.hlk with slot := none, tx := some reply } hs
    unfold startReply
    dsimp only
    split
    · exact h.after_takeRequest _ (h.host _ hsent)
    · exact hsent
  · exact h.host _ hs
  · exact hs

theorem Tracked.after_arriveRequest (h : Tracked P) (q : HostFrame) {s : State} (hs : P true s) : P true (arriveRequest q s) := by
  unfold arriveRequest
  split
  · exact hs
  · split
    · exact hs
    · exact h.host _ hs
    · exact h.after_takeRequest q hs

theorem Tracked.after_settleCore (h : Tracked P) (pins : InputPins) {s : State} (hsettled : s.plu.settled = false)
    (hs : P true s) : P true (settleCore pins s) := by
  have hsettle := h.scopes (h.settle pins (s := countDown s) hsettled (h.count hs))
  refine foldl_inv _ (fun n s hs => ?_) _ (eachStand_inv (P true) _ (fun k _ hs => h.after_standNotice k hs) _ hsettle)
  unfold settleStop
  split
  · exact h.after_raiseKey false _ rfl hs
  · exact hs

theorem Tracked.after_quiet (h : Tracked P) {s t : State} (m : Quiet s t) (hs : P true s) : P true t := by
  cases m with
  | fieldByte b framingError => exact h.line _ _ hs
  | fieldTimeout => exact h.line _ _ hs
  | hostByte b framingError => exact h.host _ hs
  | hostTimeout => exact h.host _ hs
  | nonOverlap k hdue => exact h.overlap k hdue hs
  | equalize k hdue => exact h.equalized k hs
  | tick pins hsettled => exact h.inputs _ (sameStrip_sampled pins (countDown s) hsettled) (h.count hs)

theorem Tracked.after_move (h : Tracked P) {s t : State} (m : Move s t) (hs : P true s) : P true t := by
  cases m with
  | quiet m => exact h.after_quiet m hs
  | event e => exact h.after_endEvent (h.after_effect e hs)
  | settle pins hsettled => exact h.after_endEvent (h.after_settleCore pins hsettled hs)
  | arrive q => exact h.after_endEvent (h.after_arriveRequest q hs)
  | sent hbusy => exact h.after_endEvent (h.host _ hs)

end Sys2Proof.Machine
end

section
/-! PROOFS. Statements that do not read the records of the tracker: the changes that move strip uphold them as far as the
sequencer, the scopes and the mill state go. -/

namespace Sys2Proof.Machine

variable {P : Bool → State → Prop}

/-- An upheld statement that reads of the tracker the mill state alone. -/
structure Untracked (P : Bool → State → Prop) : Prop extends Upheld P where
  /-- a change of the tracker in its mill state -/
  tracker (t : Tracker) {b : Bool} {s : State} (hmill : t.mill = s.stk.mill) : P b s → P b (s.withStk t)
  /-- the mill cleared (R81) -/
  idle {s : State} (hthreaded : s.anyThreaded = false) : P false s → P true (setMill .idle s)
  /-- strip present at a stand (R48) -/
  strip (k : Stand) {b : Bool} {s : State} (hset : b = true → s.inSet k = false) : P true s → P b (senseStrip k s)
  /-- strip absent at a stand (R51) -/
  absent (k : Stand) {s : State} : P true s → P true (s.modPresence k fun _ => { state := .absent, measurer := 0 })

theorem Untracked.after_retire (h : Untracked P) (g : Segment) {b : Bool} {s : State} (hs : P b s) : P b (retire g s) :=
  h.notice _ (h.tracker _ rfl hs)

theorem Untracked.after_setSpan (h : Untracked P) (j : SpanId) (l : List Segment) {b : Bool} {s : State} (hs : P b s) :
    P b (s.setSpan j l) := h.tracker _ rfl hs

theorem Untracked.after_setBite (h : Untracked P) (k : Stand) (g : Option Segment) {b : Bool} {s : State} (hs : P b s) :
    P b (s.setBite k g) := h.tracker _ rfl hs

theorem Untracked.after_allocate (h : Untracked P) (k : Stand) {b : Bool} {s : State} (hs : P b s) : P b (allocate k s) :=
  h.tracker _ rfl hs

theorem Untracked.after_offerMonitor (h : Untracked P) (meas : Option Nat) {b : Bool} {s : State} (hs : P b s) :
    P b (offerMonitor meas s) := by
  have hstep (eX : Int) (km : Nat) : P b (stepIntegrators eX km s) := by
    refine h.gaps _ (fun k g => ?_) hs
    split
    · split
      · exact ⟨rfl, rfl⟩
      · exact ⟨rfl, rfl⟩
    · exact ⟨rfl, rfl⟩
  unfold offerMonitor
  split
  · split
    · dsimp only
      split
      · exact hs
      · exact h.tracker _ rfl (hstep _ _)
    · exact h.tracker _ rfl hs
  · exact hs

theorem Untracked.after_popExit (h : Untracked P) {s : State} (hs : P true s) : P true (popExit s) := by
  unfold popExit
  split
  · exact h.after_retire _ (h.after_offerMonitor _ (h.after_takeExitStale _ (h.after_setSpan _ _ hs)))
  · exact hs

theorem Untracked.after_pushSpan (h : Untracked P) (j : SpanId) (g : Segment) {s : State} (hs : P true s) :
    P true (pushSpan j g s) := by
  refine h.after_setSpan j _ ?_
  split
  · split
    · exact h.after_retire _ (h.after_setSpan _ _ hs)
    · exact hs
  · exact hs

theorem Untracked.after_pushBite (h : Untracked P) (k : Stand) {s : State} (hs : P true s) : P true (pushBite k s) := by
  unfold pushBite
  split
  · have hempty := h.after_setBite k none hs
    unfold pushOut
    split
    · split
      · exact h.after_retire _ hempty
      · exact h.after_pushSpan _ _ hempty
    · dsimp only
      split
      · exact h.after_popExit (h.after_pushSpan _ _ hempty)
      · exact h.after_pushSpan _ _ hempty
  · exact hs

theorem Untracked.after_takeIntoBite (h : Untracked P) (k : Stand) {s : State} (hs : P true s) : P true (takeIntoBite k s) := by
  unfold takeIntoBite
  split
  · exact h.after_setBite k _ (h.after_setSpan _ _ hs)
  · exact hs

theorem Untracked.after_refill (h : Untracked P) (k : Stand) {s : State} (hs : P true s) : P true (refill k s) := by
  unfold refill
  split
  · split
    · exact hs
    · exact h.after_allocate k hs
  · exact h.after_takeIntoBite k hs

theorem Untracked.after_discardSpan (h : Untracked P) (j : SpanId) {b : Bool} {s : State} (hs : P b s) : P b (discardSpan j s) :=
  foldl_inv _ (fun _ _ ht => h.after_retire _ ht) _ (h.after_setSpan j [] hs)

theorem Untracked.after_trackHead (h : Untracked P) (k : Stand) {s : State} (hs : P true s) : P true (trackHead k s) := by
  unfold trackHead
  split
  · have hmark : P true (s.withStk { s.stk with tailMarks := vset s.stk.tailMarks k false }) := h.tracker _ rfl hs
    refine h.after_endTracker s ?_
    split
    · exact h.after_allocate k hmark
    · exact h.after_takeIntoBite k hmark
  · exact hs

theorem Untracked.after_headEvent (h : Untracked P) (k : Stand) {s : State} (hs : P true s) :
    P true (headEvent k (senseStrip k s)) := by
  refine h.after_standNotice k (h.after_trackHead k ?_)
  by_cases hset : s.inSet k = true
  · exact h.after_seqHead (s := senseStrip k s) k hset (h.strip k (fun hb => nomatch hb) hs)
  · have e : seqHead k (senseStrip k s) = senseStrip k s := if_neg hset
    rw [e]
    exact h.strip k (fun _ => by simpa using hset) hs

theorem Untracked.after_trackAdvance (h : Untracked P) (k : Stand) {s : State} (hs : P true s) : P true (trackAdvance k s) := by
  unfold trackAdvance
  split
  · exact hs
  split
  · exact h.after_endTracker s (h.after_popExit hs)
  split
  · exact h.after_endTracker s (h.after_refill k (h.after_pushBite k hs))
  · exact hs

theorem Untracked.after_trackTail (h : Untracked P) (k : Stand) {s : State} (hs : P true s) : P true (trackTail k s) := by
  rw [trackTail_eq]
  split
  · have hgive : P true (giveTail k s) := by
      refine h.tracker _ rfl ?_
      split
      · exact h.after_pushBite k hs
      · exact h.after_discardSpan _ (h.after_pushBite k hs)
    refine h.after_endTracker s ?_
    unfold tailMill
    split
    next hmill =>
      have hrolling : (giveTail k s).stk.mill = .rolling := by
        rw [Bool.and_eq_true, beq_iff_eq] at hmill
        exact hmill.2
      exact h.mill (.tailout hrolling) (h.weaken hgive)
    next => exact hgive
  · exact hs

theorem discardSpan_anyThreaded (j : SpanId) (s : State) : (discardSpan j s).anyThreaded = s.anyThreaded := by
  simp [State.anyThreaded, State.seq]

theorem discardBite_anyThreaded (k : Stand) (s : State) : (discardBite k s).anyThreaded = s.anyThreaded := by
  simp [State.anyThreaded, State.seq]

theorem clearMeasurers_sameStrip (s : State) : SameStrip s (clearMeasurers s.plu) where
  absent k := by
    show (vget (vtab fun k => ({ vget s.plu.pres k with measurer := 0 } : Presence)) k).state = .absent ↔ _
    rw [vget_vtab]
    exact Iff.rfl
  settled := rfl
  due i hdue := .inl (by cases i <;> exact hdue)

/-- Every held record retired with DISCARDED, bites first (R81). -/
def discardRecords (s : State) : State := allStands.foldl (fun t j => discardSpan j t) (eachStand discardBite s)

/-- Accumulators, measurers and tail marks cleared (R81). -/
def clearStrip (s : State) : State :=
  let t := s.withPlu (clearMeasurers s.plu)
  t.withStk { t.stk with tailMarks := Vector.replicate 8 false }

theorem clearMill_eq (s : State) : clearMill s = endTracker s (setMill .idle (clearStrip (discardRecords s))) := by
  unfold clearMill clearStrip discardRecords
  rfl

theorem discardRecords_anyThreaded (s : State) : (discardRecords s).anyThreaded = s.anyThreaded := by
  unfold discardRecords
  rw [foldl_keeps State.anyThreaded _ (fun t j => discardSpan_anyThreaded j t),
    eachStand_keeps State.anyThreaded _ discardBite_anyThreaded]

theorem clearStrip_anyThreaded (s : State) : (clearStrip s).anyThreaded = s.anyThreaded := rfl

theorem Untracked.after_clearMill (h : Untracked P) {s : State} (hclear : canClearMill s = true) (hs : P true s) :
    P true (clearMill s) := by
  have hthreaded : s.anyThreaded = false := by
    unfold canClearMill at hclear
    rw [Bool.and_eq_true, Bool.not_eq_true'] at hclear
    exact hclear.2
  have hbites : P true (eachStand discardBite s) := by
    refine eachStand_inv (P true) _ (fun k t ht => ?_) s hs
    unfold discardBite
    split
    · exact h.after_retire _ (h.after_setBite k none ht)
    · exact ht
  have hspans : P true (discardRecords s) := foldl_inv _ (fun j _ ht => h.after_discardSpan j ht) _ hbites
  have hall {u : State} (hu : P true u) : P true (clearStrip u) := h.tracker _ rfl (h.inputs _ (clearMeasurers_sameStrip u) hu)
  rw [clearMill_eq]
  refine h.after_endTracker s (h.idle ?_ (h.weaken (hall hspans)))
  rw [clearStrip_anyThreaded, discardRecords_anyThreaded, hthreaded]

theorem Untracked.tracked (h : Untracked P) : Tracked P where
  toUpheld := h.toUpheld
  head k _ _ _ _ hs := h.after_headEvent k hs
  advance k _ hs := h.after_trackAdvance k hs
  tailEnd k s _ hs := by
    show P true (standNotice k (trackTail k (seqTail k (s.modPresence k fun _ => { state := .absent, measurer := 0 }))))
    exact h.after_standNotice k (h.after_trackTail k (h.after_seqTail k (h.absent k hs)))
  clearMill hclear hs := h.after_clearMill hclear hs

end Sys2Proof.Machine
end

section
/-! PROOFS. The mill and the stands: THREAD, ROLL and TAIL belong to a coil's stands (R117, R124, R134), and O57. -/

namespace Sys2Proof.Machine

/-- `PassOk` of one stand: its record against the mill state and its place in the active set. -/
structure PassFits (mill : MillState) (inSet : Bool) (q : SeqRecord) : Prop where
  coil : q.state.threaded = true → mill.running = true ∧ inSet = true
  placed : inSet = true → q.state ≠ .out
  home : mill ≠ .idle → inSet = true → q.state.away = false
  prior (h : Handover) (st : StandState) : q.handover = some h → h.prior = some st →
    st = .out ∨ st = .setup ∨ st = .ready ∨ st = .tripped
  pending (h : Handover) : q.handover = some h → q.state = .handover

/-- Every stand fits a mill state. -/
def PassAll (mill : MillState) (s : State) : Prop := ∀ k, PassFits mill (s.inSet k) (s.seq k)

theorem threaded_iff (st : StandState) : st.threaded = true ↔ st = .thread ∨ st = .roll ∨ st = .tail := by cases st <;> decide

theorem running_iff (m : MillState) : m.running = true ↔ m = .rolling ∨ m = .tailout := by cases m <;> decide

theorem away_eq_false_iff (st : StandState) : st.away = false ↔ st ≠ .local_ ∧ st ≠ .handover := by cases st <;> decide

theorem passOk_iff (s : State) : PassOk s ↔ PassAll s.stk.mill s := by
  constructor
  · intro ⟨hcoil, hplaced, hhome, hprior, hpending⟩ k
    exact ⟨fun h => by rw [running_iff]; exact hcoil k ((threaded_iff _).mp h), hplaced k,
      fun hm hin => (away_eq_false_iff _).mpr (hhome k hm hin), hprior k, hpending k⟩
  · intro h
    exact ⟨fun k hst => by rw [← running_iff]; exact (h k).coil ((threaded_iff _).mpr hst), fun k => (h k).placed,
      fun k hm hin => (away_eq_false_iff _).mp ((h k).home hm hin), fun k => (h k).prior, fun k => (h k).pending⟩

/-! ## One stand -/

theorem PassFits.congr {m : MillState} {i : Bool} {q p : SeqRecord} (h : PassFits m i q) (e : p.standing = q.standing) :
    PassFits m i p := by
  obtain ⟨hstate, hho, -, -⟩ : p.state = q.state ∧ p.handover = q.handover ∧ p.localReq = q.localReq ∧
      p.equalize = q.equalize := by simpa [SeqRecord.standing] using e
  obtain ⟨hcoil, hplaced, hhome, hprior, hpending⟩ := h
  exact ⟨by rwa [hstate], by rwa [hstate], by rwa [hstate], by rwa [hho], by rwa [hho, hstate]⟩

theorem passFits_evalDemand {m : MillState} {i : Bool} {q : SeqRecord} (millStop : Bool) (tNo : Nat) (h : PassFits m i q) :
    PassFits m i (q.evalDemand millStop tNo) := h.congr (evalDemand_record_standing q millStop tNo)

theorem PassFits.no_handover {m : MillState} {i : Bool} {q : SeqRecord} (h : PassFits m i q) (hstate : q.state ≠ .handover) :
    q.handover = none := by
  cases hh : q.handover with
  | none => rfl
  | some ho => exact absurd (h.pending ho hh) hstate

/-- A stand without a handover may enter any state that the mill and the set allow. -/
theorem passFits_enter {m : MillState} {i : Bool} {q : SeqRecord} {st : StandState} (hho : q.handover = none)
    (hcoil : st.threaded = true → m.running = true ∧ i = true) (hplaced : i = true → st ≠ .out)
    (hhome : m ≠ .idle → i = true → st.away = false) : PassFits m i (q.enter st) where
  coil := hcoil
  placed := hplaced
  home := hhome
  prior h _ hh := nomatch hho.symm.trans hh
  pending h hh := nomatch hho.symm.trans hh

/-- The states that no mill state and no active set forbid. -/
theorem passFits_enter_home {m : MillState} {i : Bool} {q : SeqRecord} {st : StandState} (hho : q.handover = none)
    (hst : st = .setup ∨ st = .ready ∨ st = .tripped ∨ st = .out ∧ i = false) : PassFits m i (q.enter st) := by
  obtain rfl | rfl | rfl | ⟨rfl, rfl⟩ := hst <;>
    exact passFits_enter hho nofun (by simp) fun _ _ => rfl

theorem placement_home (i cover : Bool) :
    placement i cover = .setup ∨ placement i cover = .ready ∨ placement i cover = .tripped ∨
      placement i cover = .out ∧ i = false := by
  cases i <;> cases cover <;> decide

theorem returnState_home {p : StandState} (hp : p = .out ∨ p = .setup ∨ p = .ready ∨ p = .tripped) (i cover : Bool) :
    returnState p i cover = .setup ∨ returnState p i cover = .ready ∨ returnState p i cover = .tripped ∨
      returnState p i cover = .out ∧ i = false := by
  obtain rfl | rfl | rfl | rfl := hp <;> cases i <;> cases cover <;> decide

/-- A handover that ends leaves its stand in a state that the mill and the set allow (R131, R132). -/
theorem passFits_unconfirmed {m : MillState} {i : Bool} {q : SeqRecord} (h : PassFits m i q) {ho : Handover}
    (hho : q.handover = some ho) (cover : Bool) : PassFits m i (q.released.enter (unconfirmedState ho i cover)) := by
  unfold unconfirmedState
  cases ho.dir with
  | toCoord =>
    refine passFits_enter rfl nofun nofun fun hm hi => ?_
    have haway := h.home hm hi
    rw [h.pending ho hho] at haway
    contradiction
  | toLocal =>
    refine passFits_enter_home rfl (returnState_home ?_ i cover)
    cases hp : ho.prior with
    | none => exact .inl rfl
    | some st => exact h.prior ho st hho hp

theorem passFits_opened {m : MillState} {i : Bool} {q : SeqRecord} (millStop : Bool) (tNo : Nat) (h : PassFits m i q) :
    PassFits m i (q.opened i millStop tNo) := by
  unfold SeqRecord.opened
  split
  next hpass =>
    have hho : q.handover = none := h.no_handover fun he => by rw [he] at hpass; contradiction
    exact passFits_evalDemand _ _ (passFits_enter_home hho (.inr (.inr (.inl rfl))))
  next =>
    split
    next =>
      cases hh : q.handover with
      | none => exact h
      | some ho => exact passFits_evalDemand _ _ (passFits_unconfirmed h hh true)
    next => exact h

theorem passFits_swapped {m : MillState} {i : Bool} {q : SeqRecord} (h : PassFits m i q) (i' cover millStop : Bool) (tNo : Nat) :
    PassFits .idle i' (q.swapped i' cover millStop tNo) := by
  unfold SeqRecord.swapped
  split
  next hstate =>
    refine ⟨fun ht => ?_, fun _ he => ?_, fun hm => absurd rfl hm, fun ho st hh hp => ?_, fun _ _ => hstate⟩
    · rw [show q.state = .handover from hstate] at ht
      contradiction
    · exact nomatch (show q.state = .handover from hstate).symm.trans he
    · obtain ⟨old, hold, rfl⟩ := Option.map_eq_some_iff.mp hh
      unfold swapHandover at hp
      split at hp
      · exact .inr (.inl (Option.some.inj hp).symm)
      · exact h.prior old st hold hp
  next hstate =>
    have hho := h.no_handover hstate
    split
    next hkept =>
      refine ⟨fun ht => ?_, fun hi he => ?_, fun hm => absurd rfl hm, fun ho _ hh => ?_, fun ho hh => ?_⟩
      · obtain hk | hk | hk := hkept
        · rw [hk] at ht
          contradiction
        · rw [hk] at ht
          contradiction
        · rw [hk] at ht
          cases i' <;> cases cover <;> contradiction
      · obtain hk | hk | hk := hkept
        · exact nomatch hk.symm.trans he
        · exact nomatch hk.symm.trans he
        · rw [hk, hi] at he
          cases cover <;> contradiction
      · exact nomatch hho.symm.trans hh
      · exact nomatch hho.symm.trans hh
    next => exact passFits_evalDemand _ _ (passFits_enter_home hho (placement_home i' cover))

/-- A stand in TAIL sent to SETUP leaves the coil, where no stand of the set is in THREAD or ROLL (R79, R80). -/
theorem passFits_untailed {m : MillState} {i : Bool} {q p : SeqRecord} (h : PassFits m i q)
    (hroll : i = true → q.state.rolling = false)
    (e : p.standing = if q.state = .tail then (q.enter .setup).standing else q.standing) : PassFits .idle i p := by
  split at e
  next htail =>
    have hho := h.no_handover (by rw [htail]; decide)
    exact (passFits_enter_home hho (.inl rfl)).congr e
  next htail =>
    refine PassFits.congr ⟨fun ht => ?_, h.placed, fun hm => absurd rfl hm, h.prior, h.pending⟩ e
    have hnot := hroll (h.coil ht).2
    obtain hst | hst | hst := (threaded_iff _).mp ht
    · rw [hst] at hnot
      contradiction
    · rw [hst] at hnot
      contradiction
    · exact absurd hst htail

theorem PassFits.armed {i : Bool} {q : SeqRecord} (h : PassFits .idle i q) (hhome : i = true → q.state.away = false) :
    PassFits .armed i q where
  coil ht := nomatch (h.coil ht).1
  placed := h.placed
  home _ := hhome
  prior := h.prior
  pending := h.pending

theorem PassFits.unthreaded {m : MillState} {i : Bool} {q : SeqRecord} (h : PassFits m i q) (ht : q.state.threaded = false) :
    PassFits .idle i q where
  coil he := nomatch ht.symm.trans he
  placed := h.placed
  home hm := absurd rfl hm
  prior := h.prior
  pending := h.pending

/-! ## All stands -/

theorem inSet_congr {s t : State} (h : t.sch.active = s.sch.active) (k : Stand) : t.inSet k = s.inSet k := by
  simp only [State.inSet, State.activeSet, State.millRec, h]

theorem PassAll.congr {m : MillState} {s t : State} (hactive : t.sch.active = s.sch.active) (hst : t.standing = s.standing)
    (h : PassAll m s) : PassAll m t := by
  intro k
  rw [inSet_congr hactive]
  exact (h k).congr (congrFun hst k)

theorem passOk_congr {s t : State} (hmill : t.stk.mill = s.stk.mill) (hactive : t.sch.active = s.sch.active)
    (hst : t.standing = s.standing) (h : PassOk s) : PassOk t := by
  rw [passOk_iff, hmill]
  exact ((passOk_iff s).mp h).congr hactive hst

/-- A change of the record of one stand. -/
theorem PassAll.change {m : MillState} {s t : State} {k : Stand} {q : SeqRecord} (hactive : t.sch.active = s.sch.active)
    (hseq : ∀ j, t.seq j = if j = k then q else s.seq j) (hq : PassFits m (s.inSet k) (s.seq k) → PassFits m (s.inSet k) q)
    (h : PassAll m s) : PassAll m t := by
  intro j
  rw [inSet_congr hactive, hseq]
  split
  next hjk =>
    rw [hjk]
    exact hq (h k)
  next => exact h j

theorem passOk_change {s t : State} {k : Stand} {q : SeqRecord} (hmill : t.stk.mill = s.stk.mill)
    (hactive : t.sch.active = s.sch.active) (hseq : ∀ j, t.seq j = if j = k then q else s.seq j)
    (hq : PassFits s.stk.mill (s.inSet k) (s.seq k) → PassFits s.stk.mill (s.inSet k) q) (h : PassOk s) : PassOk t := by
  rw [passOk_iff, hmill]
  exact ((passOk_iff s).mp h).change hactive hseq hq

theorem passOk_evalScopes {s : State} (h : PassOk s) : PassOk (evalScopes s) :=
  passOk_congr (by simp) (by simp) (evalScopes_standing s) h

theorem passOk_setMill {m : MillState} {s : State} (h : PassAll m s) : PassOk (setMill m s) := by
  rw [passOk_iff, setMill_mill]
  exact h.congr (by simp) (setMill_standing m s)

theorem passOk_tripNotice (key : Key) {s : State} (h : PassOk s) : PassOk (tripNotice key s) :=
  passOk_congr (by simp) (by simp) (tripNotice_standing key s) h

/-! ## Swap and mill empty -/

theorem passAll_swapBank {m : MillState} {s : State} (h : PassAll m s) : PassAll .idle (swapBank s) := by
  intro k
  have hset : (swapBank s).inSet k = (swapStart s).inSet k := inSet_congr (by rw [swapBank_eq]; simp) k
  rw [hset]
  exact (passFits_swapped (h k) ((swapStart s).inSet k) (s.openCover k) s.millStopExists ((swapStart s).tNo k)).congr
    (swapBank_standing k s)

theorem passOk_swapBank {s : State} (hmill : s.stk.mill = .idle) (h : PassOk s) : PassOk (swapBank s) := by
  have hidle : (swapBank s).stk.mill = .idle := by rw [← hmill]; simp
  rw [passOk_iff, hidle]
  exact passAll_swapBank ((passOk_iff s).mp h)

theorem millIsEmpty_rolling {s : State} (hempty : s.millIsEmpty = true) (k : Stand) (hset : s.inSet k = true) :
    (s.seq k).state.rolling = false := by
  unfold State.millIsEmpty at hempty
  rw [Bool.and_eq_true, List.all_eq_true] at hempty
  simpa using hempty.2 k (by simpa [State.inSet] using hset)

theorem stateAfterEmpty_armed {s : State} (h : stateAfterEmpty s = .armed) (k : Stand) (hset : s.inSet k = true) :
    (s.seq k).state.away = false := by
  unfold stateAfterEmpty at h
  split at h
  · contradiction
  next hnone =>
    simp only [List.any_eq_true, not_exists, not_and, Bool.not_eq_true] at hnone
    exact hnone k (by simpa [State.inSet] using hset)

theorem unmarked_active (s : State) : (unmarked s).sch.active = (emptied s).sch.active := by
  unfold unmarked
  simp

theorem passAll_unmarked {s : State} (hempty : s.millIsEmpty = true) (h : PassOk s) : PassAll .idle (unmarked s) := by
  have hpass := (passOk_iff s).mp h
  intro k
  rw [inSet_congr (unmarked_active s)]
  by_cases hstate : s.sch.pendingBank.state = .committed
  · have e : emptied s = swapBank s := if_pos hstate
    have hswap := passAll_swapBank hpass k
    rw [← e] at hswap
    refine passFits_untailed hswap (fun _ => ?_) (unmarked_standing k s)
    cases hst : ((emptied s).seq k).state <;> try rfl
    all_goals exact nomatch (hswap.coil (by rw [hst]; rfl)).1
  · have e : emptied s = s := if_neg hstate
    have hstanding := unmarked_standing k s
    rw [e] at hstanding ⊢
    exact passFits_untailed (hpass k) (millIsEmpty_rolling hempty k) hstanding

theorem passOk_millEmpty {s : State} (hempty : s.millIsEmpty = true) (h : PassOk s) : PassOk (millEmpty s) := by
  have hall := passAll_unmarked hempty h
  rw [millEmpty_unfold]
  refine passOk_setMill fun k => ?_
  obtain hm | hm := stateAfterEmpty_cases (unmarked s) <;> rw [hm]
  · exact (hall k).armed (stateAfterEmpty_armed hm k)
  · exact hall k

/-! ## Creations -/

theorem passOk_handCreation (r : TripRecord) {s : State} (h : PassOk s) : PassOk (handCreation r s) := by
  have hmill : (handCreation r s).stk.mill = s.stk.mill := by simp
  rw [passOk_iff, hmill]
  intro k
  rw [inSet_congr (s := s) (t := handCreation r s) (by simp), handCreation_seq]
  refine passFits_evalDemand _ _ ?_
  have hk := (passOk_iff s).mp h k
  split
  · exact (passFits_opened s.millStopExists (s.tNo k) hk).congr rfl
  · exact hk.congr rfl

theorem passOk_createRecord (inTracker : Bool) (key : Key) {s : State} (h : PassOk s) : PassOk (createRecord inTracker key s) := by
  have hhand := passOk_handCreation (newRecord key s) (s := s.withTmx { s.tmx with table := s.tmx.table ++ [newRecord key s] }) h
  unfold createRecord
  refine passOk_evalScopes (passOk_tripNotice key ?_)
  split
  · obtain ⟨hempty, e⟩ | ⟨-, e⟩ := millEmptyTest_cases
      (handCreation (newRecord key s) (s.withTmx { s.tmx with table := s.tmx.table ++ [newRecord key s] })) <;> rw [e]
    · exact passOk_millEmpty hempty hhand
    · exact hhand
  · exact hhand

/-! ## The soft reset -/

theorem PassAll.unthreaded {m : MillState} {s : State} (hthreaded : s.anyThreaded = false) (h : PassAll m s) :
    PassAll .idle s := fun k => (h k).unthreaded (by
  unfold State.anyThreaded at hthreaded
  rw [List.any_eq_false] at hthreaded
  simpa using hthreaded k (mem_allStands k))

theorem PassAll.resetHandover (k : Stand) {s : State} (h : PassAll .idle s) : PassAll .idle (resetHandover k s) := by
  unfold Machine.resetHandover
  cases hh : (s.seq k).handover with
  | none => exact h
  | some ho =>
    refine h.change (k := k) (by simp) (fun j => (updateNotice_seq _ j _).trans (leaveHandover_seq k j _ s)) fun hk => ?_
    exact passFits_evalDemand _ _ (passFits_unconfirmed hk hh _)

theorem PassAll.placeAtReset (k : Stand) {s : State} (h : PassAll .idle s) : PassAll .idle (placeAtReset k s) := by
  unfold Machine.placeAtReset
  split
  · exact h
  · exact h
  · exact h
  next hl ht hh =>
    unfold placeIfChanged
    split
    · exact h
    · refine h.change (k := k) (by simp) (fun j => enterState_seq k j _ s) fun hk => ?_
      exact passFits_evalDemand _ _ (passFits_enter_home (hk.no_handover hh) (placement_home _ _))

theorem PassAll.resetStands {s : State} (h : PassAll .idle s) : PassAll .idle (resetStands s) := by
  have hreset := eachStand_inv (PassAll .idle) Machine.resetHandover (fun k _ hs => hs.resetHandover k) s h
  have hplace := eachStand_inv (PassAll .idle) Machine.placeAtReset (fun k _ hs => hs.placeAtReset k) _ hreset
  have hdemand := hplace.congr (t := eachStand evalDemand _) (by simp) (eachStand_evalDemand_standing _)
  have hnotice := eachStand_inv (PassAll .idle) standNotice (fun k t ht =>
    ht.congr (t := standNotice k t) (by simp) (standing_congr (by simp))) _ hdemand
  exact hnotice.congr (t := evalScopes _) (by simp) (evalScopes_standing _)

theorem passOk_reset {s : State} (hthreaded : s.anyThreaded = false) (h : PassOk s) :
    PassOk (resetTracker (resetStands (resetCounters (resetGaps (resetLengths (resetSlots (resetReports s))))))) := by
  have hidle : PassAll .idle (resetCounters (resetGaps (resetLengths (resetSlots (resetReports s))))) :=
    (((passOk_iff s).mp h).unthreaded hthreaded).congr rfl rfl
  exact passOk_setMill (hidle.resetStands.congr rfl rfl)

/-! ## The changes -/

theorem passOk_setStandState (k : Stand) (st : StandState) {s : State} (h : PassOk s) (hfrom : (s.seq k).state ≠ .handover)
    (hcoil : st.threaded = true → s.stk.mill.running = true ∧ s.inSet k = true) (hplaced : s.inSet k = true → st ≠ .out)
    (hhome : s.stk.mill ≠ .idle → s.inSet k = true → st.away = false) : PassOk (setStandState k st s) :=
  passOk_change (k := k) (by simp) (by simp) (fun j => setStandState_seq k j st s)
    (fun hk => passFits_evalDemand _ _ (passFits_enter (hk.no_handover hfrom) hcoil hplaced hhome)) h

/-- A stand of the coil that stays in it. -/
theorem passOk_stay (k : Stand) (st : StandState) {s : State} (h : PassOk s) (hfrom : (s.seq k).state.threaded = true)
    (hst : st.threaded = true) : PassOk (setStandState k st s) := by
  have hcoil := ((passOk_iff s).mp h k).coil hfrom
  refine passOk_setStandState k st h (fun e => ?_) (fun _ => hcoil) (fun _ e => ?_) fun _ _ => ?_
  · rw [e] at hfrom
    contradiction
  · rw [e] at hst
    contradiction
  · obtain rfl | rfl | rfl := (threaded_iff st).mp hst <;> rfl

theorem headThreads_mill {k : Stand} {s : State} (h : headThreads k s = true) :
    s.isFirst k = true ∧ s.stk.mill = .armed ∨ s.isFirst k = false ∧ s.stk.mill = .rolling := by
  unfold headThreads at h
  cases hf : s.isFirst k <;> simp_all

/-- The start of a coil leaves the mill ROLLING (R68). -/
theorem passOk_startCoil {s : State} (h : PassAll .rolling s) : PassOk (startCoil s) :=
  passOk_setMill (h.congr rfl rfl)

theorem passOk_threaded (k : Stand) {s : State} (hset : s.inSet k = true) (hstate : (s.seq k).state = .ready)
    (hthreads : headThreads k s = true) (h : PassOk s) : PassOk (threaded k s) := by
  have hpass := (passOk_iff s).mp h
  have hall : PassAll .rolling s := fun j => by
    obtain ⟨hcoil, hplaced, hhome, hprior, hpending⟩ := hpass j
    refine ⟨fun ht => ⟨rfl, (hcoil ht).2⟩, hplaced, fun _ => hhome ?_, hprior, hpending⟩
    obtain ⟨-, hm⟩ | ⟨-, hm⟩ := headThreads_mill hthreads <;> rw [hm] <;> decide
  have hthread : PassAll .rolling ((setStandState k .thread s).modGap k GapRecord.enterThread) := by
    refine hall.change (k := k) (by simp) (fun j => setStandState_seq k j .thread s) fun hk => passFits_evalDemand _ _ ?_
    exact passFits_enter (hk.no_handover (by rw [hstate]; decide)) (fun _ => ⟨rfl, hset⟩) (by simp) fun _ _ => rfl
  have hfirst : ((setStandState k .thread s).modGap k GapRecord.enterThread).isFirst k = s.isFirst k := by
    simp [State.isFirst, State.firstActive, State.activeSet, State.millRec]
  have hmill : ((setStandState k .thread s).modGap k GapRecord.enterThread).stk.mill = s.stk.mill := by simp
  unfold threaded
  dsimp only
  rw [hfirst, hmill]
  obtain ⟨hf, hm⟩ | ⟨hf, hm⟩ := headThreads_mill hthreads
  · rw [hf, hm]
    exact passOk_startCoil hthread
  · rw [hf]
    rw [show (false && s.stk.mill == .armed) = false from rfl, if_neg Bool.false_ne_true, passOk_iff, hmill, hm]
    exact hthread

theorem passOk_leave (k : Stand) (st : StandState) {s : State} (hend : HandoverEnd s k st) (h : PassOk s) :
    PassOk (leaveHandover k st s) := by
  refine passOk_change (k := k) (by simp) (by simp) (fun j => leaveHandover_seq k j st s)
    (fun hk => passFits_evalDemand _ _ ?_) h
  cases hend with
  | unconfirmed ho cover hpending => exact passFits_unconfirmed hk hpending cover
  | granted ho hpending =>
    refine passFits_enter rfl (fun h => nomatch h) (fun _ h => nomatch h) fun hm hi => ?_
    have haway := hk.home hm hi
    rw [hk.pending ho hpending] at haway
    contradiction
  | completed hstate =>
    refine passFits_enter_home rfl ?_
    unfold coordState
    cases s.inSet k <;> cases s.openCover k <;> simp

theorem pendHandover_seq (k : Stand) (ho : Handover) (s : State) (j : Stand) :
    (pendHandover k ho s).seq j =
      if j = k then { (({ s.seq k with handover := some ho } : SeqRecord).enter .handover).evalDemand s.millStopExists (s.tNo k) with
        localReq := true } else s.seq j := by
  unfold pendHandover
  dsimp only
  rw [modSeq_seq, setStandState_seq, setStandState_seq, if_pos rfl]
  have hempty (i : Stand) : (emptySlot k (s.modSeq k fun q => { q with handover := some ho })).seq i =
      if i = k then { s.seq k with handover := some ho } else s.seq i := by
    rw [← modSeq_seq s k i fun q => { q with handover := some ho }]
    exact seq_congr (by simp) i
  rw [hempty, hempty, if_pos rfl]
  split
  · rfl
  · rfl

theorem passOk_pendHandover (k : Stand) (ho : Handover) {s : State} (hmade : HandoverMade s k ho) (h : PassOk s) :
    PassOk (pendHandover k ho s) := by
  refine passOk_change (k := k) (by simp [pendHandover]) (by simp [pendHandover]) (pendHandover_seq k ho s) (fun hk => ?_) h
  obtain ⟨hstate, -, hho, -, -⟩ := evalDemand_record_keeps
    (({ s.seq k with handover := some ho } : SeqRecord).enter .handover) s.millStopExists (s.tNo k)
  refine ⟨fun ht => ?_, fun _ he => ?_, fun hm hi => ?_, fun o st hh hp => ?_, fun _ _ => hstate⟩
  · rw [show _ = StandState.handover from hstate] at ht
    contradiction
  · exact nomatch hstate.symm.trans he
  · cases hmade with
    | toLocal n hcan =>
      unfold canGoLocal at hcan
      simp only [Bool.and_eq_true, Bool.or_eq_true, beq_iff_eq, Bool.not_eq_true'] at hcan
      obtain ⟨-, hidle | hout⟩ := hcan
      · exact absurd hidle hm
      · exact nomatch hout.symm.trans hi
    | toCoord n hlocal =>
      have haway := hk.home hm hi
      rw [hlocal] at haway
      contradiction
  · cases (hho.symm.trans hh : some ho = some o)
    cases hmade with
    | toLocal n hcan =>
      cases hp
      unfold canGoLocal at hcan
      cases hst : (s.seq k).state <;> simp [hst] at hcan ⊢
    | toCoord n hlocal => contradiction

theorem restored_seq (k j : Stand) (s : State) :
    ((restored k s).seq j).standing =
      if j = k then
        (if s.inSet k then StandState.setup else .out, (s.seq k).handover, (s.seq k).localReq,
          if s.inSet k then (if 0 < (s.record k).elim 0 (·.tEq) then some ((s.record k).elim 0 (·.tEq)) else none) else none)
      else (s.seq j).standing := by
  have hset : (s.modSeq k fun q => { q with fastOpen := false, nonOverlap := none }).inSet k = s.inSet k := rfl
  have hrec : (s.modSeq k fun q => { q with fastOpen := false, nonOverlap := none }).record k = s.record k := rfl
  unfold restored
  dsimp only
  rw [hset, hrec]
  cases s.inSet k with
  | true =>
    simp only [if_true]
    rw [modSeq_seq, setStandState_seq, setStandState_seq, if_pos rfl, modSeq_seq_self, modSeq_seq]
    split
    · simp [SeqRecord.standing, SeqRecord.enter]
    · rfl
  | false =>
    simp only [Bool.false_eq_true, if_false]
    rw [setStandState_seq, modSeq_seq_self, modSeq_seq]
    split
    · simp [SeqRecord.standing, SeqRecord.enter, equalizeRuns]
    · rfl

theorem restored_keeps (k : Stand) (s : State) :
    (restored k s).stk = s.stk ∧ (restored k s).sch = s.sch ∧ (restored k s).gce = s.gce ∧ (restored k s).flc = s.flc ∧
      (restored k s).tmx = s.tmx ∧ (restored k s).plu = s.plu ∧ (restored k s).hlk = s.hlk := by
  unfold restored
  dsimp only
  split <;> simp

theorem restoreOutcome_ok {k : Stand} {s : State} (h : restoreOutcome k s = .ok) :
    (s.seq k).state = .tripped ∧ s.stripPresent k = false ∧ s.openCover k = false := by
  unfold restoreOutcome at h
  split at h
  · contradiction
  split at h
  · contradiction
  split at h
  · contradiction
  split at h
  · contradiction
  next _ ht hs hc => exact ⟨by simpa using ht, by simpa using hs, by simpa using hc⟩

theorem passOk_restored (k : Stand) {s : State} (hok : restoreOutcome k s = .ok) (h : PassOk s) : PassOk (restored k s) := by
  obtain ⟨hstate, -, -⟩ := restoreOutcome_ok hok
  obtain ⟨hstk, hsch, -⟩ := restored_keeps k s
  rw [passOk_iff, hstk]
  intro j
  have hj := (passOk_iff s).mp h j
  have hst := restored_seq k j s
  rw [inSet_congr (s := s) (t := restored k s) (congrArg ScheduleStore.active hsch)]
  split at hst
  next hjk =>
    subst hjk
    have hho : (s.seq j).handover = none := hj.no_handover (by rw [hstate]; decide)
    refine (passFits_enter_home (q := { s.seq j with
      equalize := if s.inSet j then (if 0 < (s.record j).elim 0 (·.tEq) then some ((s.record j).elim 0 (·.tEq)) else none) else none })
      (st := if s.inSet j then .setup else .out) hho ?_).congr ?_
    · cases s.inSet j <;> simp
    · rw [hst]
      cases s.inSet j <;> rfl
  next => exact hj.congr hst

theorem passOk_countDown {s : State} (h : PassOk s) : PassOk (countDown s) := by
  rw [passOk_iff]
  intro k
  have hk := (passOk_iff s).mp h k
  have hseq : (countDown s).seq k = (s.seq k).countDown := vget_vtab _ k
  rw [hseq]
  refine ⟨hk.coil, hk.placed, hk.home, fun ho st hh hp => ?_, fun ho hh => ?_⟩
  · obtain ⟨old, hold, rfl⟩ := Option.map_eq_some_iff.mp hh
    exact hk.prior old st hold hp
  · obtain ⟨old, hold, rfl⟩ := Option.map_eq_some_iff.mp hh
    exact hk.pending old hold

theorem passOk_mill {m : MillState} {s : State} (hm : MillChange s m) (h : PassOk s) : PassOk (setMill m s) := by
  have hpass := (passOk_iff s).mp h
  refine passOk_setMill fun k => ?_
  have hk := hpass k
  cases hm with
  | tailout hmill =>
    rw [hmill] at hk
    exact ⟨fun ht => ⟨rfl, (hk.coil ht).2⟩, hk.placed, fun _ => hk.home (by decide), hk.prior, hk.pending⟩
  | arm harm =>
    unfold canArm at harm
    simp only [Bool.and_eq_true, beq_iff_eq] at harm
    obtain ⟨⟨⟨hmill, -⟩, hready⟩, -⟩ := harm
    rw [hmill] at hk
    refine hk.armed fun hset => ?_
    rw [List.all_eq_true] at hready
    have hst := hready k (by simpa [State.inSet] using hset)
    rw [eq_of_beq hst]
    rfl
  | disarm hmill =>
    rw [hmill] at hk
    refine hk.unthreaded ?_
    cases ht : (s.seq k).state.threaded with
    | false => rfl
    | true => exact nomatch (hk.coil ht).1

theorem untracked_passOk : Untracked fun _ s => PassOk s where
  scopes h := passOk_evalScopes h
  gap _ _ _ _ _ h := h
  gaps _ _ _ _ h := h
  inputs _ _ _ _ h := h
  settle _ _ _ _ h := h
  count h := passOk_countDown h
  configure _ _ _ h := h
  mark _ _ _ _ _ h := h
  reraise _ _ _ _ h := h
  create inTracker key _ _ h := passOk_createRecord inTracker key h
  remove r _ _ h := passOk_congr (by simp) (by simp) (removeRecord_standing r _) h
  empty hempty h := passOk_millEmpty hempty h
  mill hm h := passOk_mill hm h
  ready k s hstate h :=
    passOk_setStandState k .ready h (by rw [hstate]; decide) (fun h => nomatch h) (fun _ h => nomatch h) fun _ _ => rfl
  roll k s hstate h := passOk_stay k .roll h (by rw [hstate]; rfl) rfl
  thread k s hset hstate hthreads h := passOk_threaded k hset hstate hthreads h
  tail k s hstate h := by
    refine passOk_stay k .tail h ?_ rfl
    cases hst : (s.seq k).state <;> simp [hst, StandState.rolling, StandState.threaded] at hstate ⊢
  send k mode ref s _ _ h := passOk_congr (by simp) (by simp) (standing_congr (by simp)) h
  emptySlot _ _ _ h := h
  next {s} _ h := passOk_congr (by simp) (by simp) (standing_congr (by simp)) h
  leave k st s hend h := passOk_leave k st hend h
  pendHandover k ho s hmade h := passOk_pendHandover k ho hmade h
  restore k s hok h := passOk_restored k hok h
  overlap k b s _ h := passOk_change (s := s) (k := k) rfl rfl (fun j => modSeq_seq s k j _) (fun hk => hk.congr rfl) h
  equalized k b s h := passOk_change (s := s) (k := k) rfl rfl (fun j => modSeq_seq s k j _)
    (fun hk => ⟨hk.coil, hk.placed, hk.home, hk.prior, hk.pending⟩) h
  swap hmill h := passOk_swapBank hmill h
  reset hthreaded h := passOk_reset hthreaded h
  tracker _ _ _ hmill h := passOk_congr hmill rfl rfl h
  idle hthreaded h := passOk_setMill (((passOk_iff _).mp h).unthreaded hthreaded)
  strip _ _ _ _ h := h
  absent _ _ h := h

theorem passOk_of_blank {s : State} (hset : ∀ k, s.inSet k = false) (hst : ∀ k, (s.seq k).state = .out ∧ (s.seq k).handover = none) :
    PassOk s := by
  rw [passOk_iff]
  intro k
  obtain ⟨hstate, hho⟩ := hst k
  rw [hset]
  refine ⟨fun h => ?_, (fun h => nomatch h), (fun _ h => nomatch h), (fun _ _ h => nomatch hho.symm.trans h),
    fun _ h => nomatch hho.symm.trans h⟩
  rw [hstate] at h
  contradiction

/-- The sequencer record of every stand after reset: FAST_OPEN asserted, RESET_STOP being a MILL_STOP record (R136). -/
theorem reset_seq (k : Stand) : State.reset.seq k = { SeqRecord.cleared with fastOpen := true } := vget_replicate _ k

theorem passOk_reset_state : PassOk State.reset :=
  passOk_of_blank (fun _ => rfl) fun k => by
    rw [reset_seq]
    exact ⟨rfl, rfl⟩

/-- Settles O57: each stand's record against the mill state, upheld by every change; mill empty is where the mill state is
chosen by the stands, and the swap where the set is. -/
theorem stepKeepsPass : Obligations.StepKeepsPass := by
  intro s t hs hstep
  refine step_keeps (P := PassOk) (fun _ _ h => h) (fun r s _ => ?_) (fun straps s => ?_)
    (fun _ m h => untracked_passOk.tracked.after_move m h) hs hstep
  · refine passOk_of_blank (fun _ => rfl) fun k => ?_
    rw [show (holdReset r s).seq k = SeqRecord.cleared from vget_replicate _ k]
    exact ⟨rfl, rfl⟩
  · rw [release_eq]
    exact passOk_reset_state

end Sys2Proof.Machine
end

section
/-! PROOFS. The scopes at every event (R139, R141), and O54. -/

namespace Sys2Proof.Machine

/-- No persistence counter exceeds 8 (R141). -/
def CountsOk (s : State) : Prop := ∀ k, vget s.tmx.forceCnt k ≤ 8 ∧ vget s.tmx.gapCnt k ≤ 8

theorem scopesOk_counts {s : State} (h : ScopesOk s) : CountsOk s := h.2.2.2

theorem countsOk_congr {s t : State} (hf : t.tmx.forceCnt = s.tmx.forceCnt) (hg : t.tmx.gapCnt = s.tmx.gapCnt)
    (h : CountsOk s) : CountsOk t := fun k => by
  rw [hf, hg]
  exact h k

/-! ## Counters -/

theorem removeRecord_counts (r : TripRecord) (s : State) :
    (removeRecord r s).tmx.forceCnt = s.tmx.forceCnt ∧ (removeRecord r s).tmx.gapCnt = s.tmx.gapCnt := by
  rw [removeRecord_tmx]
  exact ⟨rfl, rfl⟩

theorem goneKey_counts (key : Key) (s : State) :
    (goneKey key s).tmx.forceCnt = s.tmx.forceCnt ∧ (goneKey key s).tmx.gapCnt = s.tmx.gapCnt := by
  obtain ⟨-, e⟩ | ⟨r, -, ⟨-, e⟩ | ⟨-, e⟩ | ⟨-, e⟩⟩ := goneKey_cases key s <;> rw [e]
  · exact ⟨rfl, rfl⟩
  · rw [tripNotice_tmx]
    exact ⟨rfl, rfl⟩
  · exact removeRecord_counts r s
  · exact ⟨rfl, rfl⟩

/-- The evaluation of the scopes clears the counters out of scope, and leaves the others (R141). -/
theorem evalScopes_counts (s : State) :
    (evalScopes s).tmx.forceCnt = (clearCounters s).tmx.forceCnt ∧ (evalScopes s).tmx.gapCnt = (clearCounters s).tmx.gapCnt := by
  have hgone (key : Key) (t : State) :
      ((goneOutOfScope key t).tmx.forceCnt, (goneOutOfScope key t).tmx.gapCnt) = (t.tmx.forceCnt, t.tmx.gapCnt) := by
    unfold goneOutOfScope
    split
    · rw [(goneKey_counts key t).1, (goneKey_counts key t).2]
    · rfl
  have h := foldl_keeps (fun t : State => (t.tmx.forceCnt, t.tmx.gapCnt)) _ (fun t key => hgone key t)
    ((clearCounters s).tmx.table.map (·.key)) (clearCounters s)
  exact ⟨congrArg Prod.fst h, congrArg Prod.snd h⟩

theorem clearCounters_force (k : Stand) (s : State) :
    vget (clearCounters s).tmx.forceCnt k = if scopeHolds s (.stand .forceHigh k) then vget s.tmx.forceCnt k else 0 :=
  vget_vtab _ k

theorem clearCounters_gap (k : Stand) (s : State) :
    vget (clearCounters s).tmx.gapCnt k = if scopeHolds s (.stand .gapWindow k) then vget s.tmx.gapCnt k else 0 :=
  vget_vtab _ k

theorem countsOk_clearCounters {s : State} (h : CountsOk s) : CountsOk (clearCounters s) := fun k => by
  obtain ⟨hforce, hgap⟩ := h k
  rw [clearCounters_force, clearCounters_gap]
  constructor <;> split <;> omega

theorem present_iff (s : State) (key : Key) : s.present key = true ↔ ∃ r, s.recordOf key = some r ∧ r.state ≠ .held := by
  unfold State.present
  cases s.recordOf key <;> simp

/-- A record that the gone of its key leaves is HELD (R155). -/
theorem gone_held {o : Option TripRecord} {r : TripRecord} (h : o.bind TripRecord.gone = some r) : r.state = .held := by
  obtain ⟨q, -, hq⟩ := Option.bind_eq_some_iff.mp h
  unfold TripRecord.gone at hq
  split at hq <;> cases hq
  · rfl
  next hheld => exact hheld

/-- The evaluation of the scopes leaves each present key in scope and each counter out of scope at 0 (R139, R141). -/
theorem scopesOk_evalScopes {s : State} (h : CountsOk s) : ScopesOk (evalScopes s) := by
  obtain ⟨hforce, hgap⟩ := evalScopes_counts s
  refine ⟨fun key hp => ?_, fun k hk => ?_, fun k hk => ?_, ?_⟩
  · rw [scopeHolds_evalScopes]
    cases hscope : scopeHolds s key with
    | true => rfl
    | false =>
      obtain ⟨r, hr, hstate⟩ := (present_iff _ _).mp hp
      rw [recordOf_evalScopes, if_pos hscope] at hr
      exact absurd (gone_held hr) hstate
  · rw [scopeHolds_evalScopes] at hk
    rw [hforce, clearCounters_force, hk, if_neg Bool.false_ne_true]
  · rw [scopeHolds_evalScopes] at hk
    rw [hgap, clearCounters_gap, hk, if_neg Bool.false_ne_true]
  · exact countsOk_congr hforce hgap (countsOk_clearCounters h)

/-! ## Changes that no scope reads -/

/-- What the scopes read of the state, the trip table and the counters, taken together. -/
theorem scopesOk_congr {s t : State} (hscope : ∀ key, scopeHolds s key = true → scopeHolds t key = true)
    (hcount : ∀ k, scopeHolds t (.stand .forceHigh k) = scopeHolds s (.stand .forceHigh k) ∧
      scopeHolds t (.stand .gapWindow k) = scopeHolds s (.stand .gapWindow k))
    (hpresent : ∀ key, t.present key = true → s.present key = true ∨ scopeHolds t key = true)
    (hf : t.tmx.forceCnt = s.tmx.forceCnt) (hg : t.tmx.gapCnt = s.tmx.gapCnt) (h : ScopesOk s) : ScopesOk t := by
  obtain ⟨hkeys, hforce, hgap, hcounts⟩ := h
  refine ⟨fun key hp => ?_, fun k hk => ?_, fun k hk => ?_, countsOk_congr hf hg hcounts⟩
  · obtain hp | hs := hpresent key hp
    · exact hscope key (hkeys key hp)
    · exact hs
  · rw [hf]
    exact hforce k ((hcount k).1 ▸ hk)
  · rw [hg]
    exact hgap k ((hcount k).2 ▸ hk)

/-- A change of the trip table that makes no key present but one in scope. -/
theorem scopesOk_table {s t : State} (hscope : ∀ key, scopeHolds t key = scopeHolds s key)
    (hpresent : ∀ key, t.present key = true → s.present key = true ∨ scopeHolds s key = true)
    (hf : t.tmx.forceCnt = s.tmx.forceCnt) (hg : t.tmx.gapCnt = s.tmx.gapCnt) (h : ScopesOk s) : ScopesOk t :=
  scopesOk_congr (fun key hk => (hscope key).trans hk) (fun _ => ⟨hscope _, hscope _⟩)
    (fun key hp => (hpresent key hp).imp_right fun hk => (hscope key).trans hk) hf hg h

/-- A change that neither the scopes read nor the trip table. -/
theorem scopesOk_view {s t : State} (hscope : ∀ key, scopeHolds t key = scopeHolds s key) (htmx : t.tmx = s.tmx) (h : ScopesOk s) :
    ScopesOk t :=
  scopesOk_table hscope (fun key hp => .inl (by rwa [present_congr (recordOf_congr (congrArg TripMatrix.table htmx) key)] at hp))
    (by rw [htmx]) (by rw [htmx]) h

theorem scopeHolds_gap (k : Stand) (f : GapRecord → GapRecord)
    (hf : ∀ g, (f g).windowRef = g.windowRef ∧ (f g).lastSent = g.lastSent) (s : State) (key : Key) :
    scopeHolds (s.modGap k f) key = scopeHolds s key := by
  refine scopeHolds_congr (s := s) (t := s.modGap k f) rfl (fun _ => rfl) (fun j => ?_) rfl rfl key
  rw [modGap_gap]
  split
  next hjk =>
    rw [hjk]
    exact hf _
  next => exact ⟨rfl, rfl⟩

theorem scopeHolds_gaps (f : Stand → GapRecord → GapRecord)
    (hf : ∀ k g, (f k g).windowRef = g.windowRef ∧ (f k g).lastSent = g.lastSent) (s : State) (key : Key) :
    scopeHolds (s.modGaps f) key = scopeHolds s key := by
  refine scopeHolds_congr (s := s) (t := s.modGaps f) rfl (fun _ => rfl) (fun j => ?_) rfl rfl key
  rw [modGaps_gap]
  exact hf j _

/-- A change of the sequencer records that leaves the stands' states. -/
theorem scopeHolds_seq (k : Stand) (f : SeqRecord → SeqRecord) (hf : ∀ q, (f q).state = q.state) (s : State) (key : Key) :
    scopeHolds (s.modSeq k f) key = scopeHolds s key := by
  refine scopeHolds_congr (s := s) (t := s.modSeq k f) rfl (fun j => ?_) (fun _ => ⟨rfl, rfl⟩) rfl rfl key
  rw [modSeq_seq]
  split
  next hjk =>
    rw [hjk]
    exact hf _
  next => rfl

theorem scopeHolds_countDown (s : State) (key : Key) : scopeHolds (countDown s) key = scopeHolds s key := by
  refine scopeHolds_congr (s := s) (t := countDown s) rfl (fun j => ?_) (fun j => ?_) rfl rfl key
  · rw [show (countDown s).seq j = (s.seq j).countDown from vget_vtab _ j]
    rfl
  · rw [show (countDown s).gap j = { s.gap j with timer := countTimer (s.gap j).timer } from vget_vtab _ j]
    exact ⟨rfl, rfl⟩

theorem scopeHolds_standing {s t : State} (hstk : t.stk = s.stk) (hst : t.standing = s.standing) (hgce : t.gce = s.gce)
    (hplu : t.plu = s.plu) (hsch : t.sch = s.sch) (key : Key) : scopeHolds t key = scopeHolds s key :=
  scopeHolds_congr (by rw [hstk]) (fun k => (standing_iff.mp (congrFun hst k)).1)
    (fun k => by rw [State.gap, State.gap, hgce]; exact ⟨rfl, rfl⟩) (by rw [hplu]) (by rw [hsch]) key

/-! ## Strip -/

theorem stripPresent_congr {s t : State} {k : Stand} (h : (t.presence k).state = .absent ↔ (s.presence k).state = .absent) :
    t.stripPresent k = s.stripPresent k := by
  unfold State.stripPresent
  simp [h]

/-- The strip is read by the scope of HEAD_OVERDUE alone, at stands of the active set (R146). -/
theorem scopeHolds_strip {s t : State} (hstk : t.stk = s.stk) (hssq : t.ssq = s.ssq) (hgce : t.gce = s.gce)
    (hactive : t.sch.active = s.sch.active) (hstrip : ∀ k, s.inSet k = true → t.stripPresent k = s.stripPresent k) (key : Key) :
    scopeHolds t key = scopeHolds s key := by
  have hset : t.activeSet = s.activeSet := by simp only [State.activeSet, State.millRec, hactive]
  have hin : ∀ k, t.inSet k = s.inSet k := fun k => by simp only [State.inSet, hset]
  have hfirst : ∀ k, t.isFirst k = s.isFirst k := fun k => by simp only [State.isFirst, State.firstActive, hset]
  have hprev : ∀ k, t.prevActive k = s.prevActive k := fun k => by simp only [State.prevActive, hset]
  have hseq := fun k => seq_congr hssq k
  have hgap : ∀ k, t.gap k = s.gap k := fun k => by rw [State.gap, State.gap, hgce]
  cases key with
  | stand c k =>
    cases c
    case headOverdue =>
      simp only [scopeHolds, hin, hfirst, hseq]
      cases hk : s.inSet k with
      | true => rw [hstrip k hk]
      | false => rfl
    all_goals simp only [scopeHolds, loopScope, hin, hfirst, hprev, hseq, hgap]
  | exitStale =>
    show t.stk.mill.running = s.stk.mill.running
    rw [hstk]
  | _ => rfl

theorem senseStrip_strip (k j : Stand) (s : State) :
    (senseStrip k s).stripPresent j =
      if j = k then s.stripPresent j || pinActive s.plu.pins (.hmd k) else s.stripPresent j := by
  have hpres : (senseStrip k s).presence j = if j = k then (s.presence k).sense (pinActive s.plu.pins (.hmd k)) else s.presence j :=
    modPresence_presence _ k j _
  unfold State.stripPresent
  rw [hpres]
  split
  next hjk =>
    subst hjk
    unfold Presence.sense
    cases pinActive s.plu.pins (.hmd j) <;> cases hp : (s.presence j).state <;> simp [hp]
  next => rfl

/-! ## The changes -/

theorem removeRecord_table (r : TripRecord) (key : Key) (s : State) (h : (removeRecord r s).present key = true) :
    s.present key = true := by
  obtain ⟨q, hq, hstate⟩ := (present_iff _ _).mp h
  rw [recordOf_congr (congrArg TripMatrix.table (removeRecord_tmx r s)), recordOf_dropRecord] at hq
  split at hq
  · contradiction
  · exact (present_iff _ _).mpr ⟨q, hq, hstate⟩

theorem present_mark {key key' : Key} {st : RecState} {s : State} (h : st = .held ∨ s.present key = true)
    (hp : (s.modRecord key fun r => { r with state := st }).present key' = true) : s.present key' = true := by
  obtain ⟨q, hq, hstate⟩ := (present_iff _ _).mp hp
  rw [recordOf_modRecord key key' (fun r => { r with state := st }) fun _ => rfl] at hq
  split at hq
  next hkey =>
    subst hkey
    obtain ⟨r, hr, rfl⟩ := Option.map_eq_some_iff.mp hq
    obtain rfl | h := h
    · exact absurd rfl hstate
    · exact h
  next => exact (present_iff _ _).mpr ⟨q, hq, hstate⟩

theorem present_reraise {key key' : Key} {s : State}
    (hp : (s.modRecord key fun r => { r with state := .raised, occ := satSucc 255 r.occ }).present key' = true) :
    s.present key' = true ∨ key' = key := by
  by_cases hkey : key' = key
  · exact .inr hkey
  · obtain ⟨q, hq, hstate⟩ := (present_iff _ _).mp hp
    rw [recordOf_modRecord key key' (fun r => { r with state := .raised, occ := satSucc 255 r.occ }) (fun _ => rfl), if_neg hkey] at hq
    exact .inl ((present_iff _ _).mpr ⟨q, hq, hstate⟩)

/-! ## The counters at every change -/

theorem countsOk_tmx {s t : State} (h : t.tmx = s.tmx) (hs : CountsOk s) : CountsOk t :=
  countsOk_congr (by rw [h]) (by rw [h]) hs

theorem countsOk_evalScopes {s : State} (h : CountsOk s) : CountsOk (evalScopes s) := scopesOk_counts (scopesOk_evalScopes h)

theorem scopesOk_setMill (m : MillState) {s : State} (h : CountsOk s) : ScopesOk (setMill m s) :=
  scopesOk_evalScopes (countsOk_tmx (by simp) h)

theorem scopesOk_swapBank (s : State) : ScopesOk (swapBank s) := by
  rw [swapBank_eq]
  have hplaced : CountsOk (eachStand placeAtSwap (swapStart s)) := by
    refine countsOk_tmx (s := swapStart s) (by simp) fun k => ?_
    have hzero : vget (swapStart s).tmx.forceCnt k = 0 ∧ vget (swapStart s).tmx.gapCnt k = 0 :=
      ⟨vget_replicate 0 k, vget_replicate 0 k⟩
    omega
  exact scopesOk_updateNotice _ _ (scopesOk_evalScopes hplaced)

theorem scopesOk_millEmpty {s : State} (h : CountsOk s) : ScopesOk (millEmpty s) := by
  have hemptied : CountsOk (emptied s) := by
    unfold emptied
    split
    · exact scopesOk_counts (scopesOk_swapBank s)
    · exact h
  have htails : CountsOk (eachStand tailToSetup (emptied s)) := countsOk_tmx (by simp) hemptied
  have hunmarked : CountsOk (unmarked s) := by
    unfold unmarked
    exact countsOk_tmx (by simp) (countsOk_evalScopes htails)
  rw [millEmpty_unfold]
  exact scopesOk_setMill _ hunmarked

theorem handCreation_tmx (r : TripRecord) (s : State) : (handCreation r s).tmx = (evalStopLine s).tmx := by
  unfold handCreation
  dsimp only
  split <;> simp

theorem scopesOk_createRecord (inTracker : Bool) (key : Key) {s : State} (h : CountsOk s) :
    ScopesOk (createRecord inTracker key s) := by
  have hhand : CountsOk (handCreation (newRecord key s) (s.withTmx { s.tmx with table := s.tmx.table ++ [newRecord key s] })) :=
    countsOk_congr (by rw [handCreation_tmx]; rfl) (by rw [handCreation_tmx]; rfl) h
  unfold createRecord
  refine scopesOk_evalScopes (countsOk_tmx (tripNotice_tmx key _) ?_)
  split
  · obtain ⟨-, e⟩ | ⟨-, e⟩ := millEmptyTest_cases
      (handCreation (newRecord key s) (s.withTmx { s.tmx with table := s.tmx.table ++ [newRecord key s] })) <;> rw [e]
    · exact scopesOk_counts (scopesOk_millEmpty hhand)
    · exact hhand
  · exact hhand

theorem countsOk_threaded (k : Stand) {s : State} (h : CountsOk s) : CountsOk (threaded k s) := by
  have hthread : CountsOk ((setStandState k .thread s).modGap k GapRecord.enterThread) := countsOk_tmx (by simp) h
  unfold threaded
  dsimp only
  split
  · exact scopesOk_counts (scopesOk_setMill _ hthread)
  · exact hthread

theorem scopesOk_reset (s : State) :
    ScopesOk (resetTracker (resetStands (resetCounters (resetGaps (resetLengths (resetSlots (resetReports s))))))) := by
  have hzero : CountsOk (resetCounters (resetGaps (resetLengths (resetSlots (resetReports s))))) := fun k => by
    have hcount : vget (resetCounters (resetGaps (resetLengths (resetSlots (resetReports s))))).tmx.forceCnt k = 0 ∧
        vget (resetCounters (resetGaps (resetLengths (resetSlots (resetReports s))))).tmx.gapCnt k = 0 :=
      ⟨vget_replicate 0 k, vget_replicate 0 k⟩
    omega
  have hreset := eachStand_inv CountsOk resetHandover (fun k t ht => by
    unfold resetHandover
    split
    · exact countsOk_tmx (by simp) ht
    · exact ht) _ hzero
  have hplace := eachStand_inv CountsOk placeAtReset (fun k t ht => by
    unfold placeAtReset
    split
    · exact ht
    · exact ht
    · exact ht
    · exact countsOk_tmx (by simp) ht) _ hreset
  have hdemand := countsOk_tmx (t := eachStand evalDemand _) (eachStand_evalDemand_keeps _).2.2.2.2.2.2.1 hplace
  have hnotice := eachStand_inv CountsOk standNotice (fun k t ht => countsOk_tmx (by simp) ht) _ hdemand
  exact scopesOk_setMill _ (countsOk_evalScopes hnotice)

/-! ## Every change -/

/-- The scopes as an event leaves them, and the counters before the trip matrix takes a change. -/
def Scoped : Bool → State → Prop
  | true, s => ScopesOk s
  | false, s => CountsOk s

theorem Scoped.view {s t : State} (hscope : ∀ key, scopeHolds t key = scopeHolds s key) (htmx : t.tmx = s.tmx) {b : Bool}
    (h : Scoped b s) : Scoped b t := by
  cases b with
  | true => exact scopesOk_view hscope htmx h
  | false => exact countsOk_tmx htmx h

theorem Scoped.table {s t : State} (hscope : ∀ key, scopeHolds t key = scopeHolds s key)
    (hpresent : ∀ key, t.present key = true → s.present key = true ∨ scopeHolds s key = true)
    (hf : t.tmx.forceCnt = s.tmx.forceCnt) (hg : t.tmx.gapCnt = s.tmx.gapCnt) {b : Bool} (h : Scoped b s) : Scoped b t := by
  cases b with
  | true => exact scopesOk_table hscope hpresent hf hg h
  | false => exact countsOk_congr hf hg h

/-- A change of blocks that no scope reads. -/
theorem Scoped.blocks {s t : State} (hstk : t.stk.mill = s.stk.mill) (hssq : t.ssq = s.ssq) (hgce : t.gce = s.gce)
    (hpres : t.plu.pres = s.plu.pres) (hactive : t.sch.active = s.sch.active) (htmx : t.tmx = s.tmx) {b : Bool}
    (h : Scoped b s) : Scoped b t :=
  h.view (scopeHolds_congr (by rw [hstk]) (fun k => by rw [seq_congr hssq])
    (fun k => by rw [State.gap, State.gap, hgce]; exact ⟨rfl, rfl⟩) hpres hactive) htmx

theorem countsOk_vset {v : Vector Nat 8} {k : Stand} {n : Nat} (hv : ∀ j, vget v j ≤ 8) (hn : n ≤ 8 ∨ n ≤ vget v k)
    (j : Stand) : vget (vset v k n) j ≤ 8 := by
  have hj := hv j
  have hk := hv k
  rw [vget_vset]
  split <;> omega

theorem scoped_inputs (p : PresenceUnit) {b : Bool} {s : State} (hp : SameStrip s p) (h : Scoped b s) : Scoped b (s.withPlu p) :=
  h.view (scopeHolds_strip (s := s) (t := s.withPlu p) rfl rfl rfl rfl fun k _ => stripPresent_congr (hp.absent k)) rfl

theorem untracked_scoped : Untracked Scoped where
  weaken h := scopesOk_counts h
  scopes h := scopesOk_evalScopes h
  host l _ _ h := by refine h.blocks ?_ ?_ ?_ ?_ ?_ ?_ <;> rfl
  line asm accept _ s h := by refine h.blocks ?_ ?_ ?_ ?_ ?_ ?_ <;> rfl
  gap k f hf _ s h := h.view (scopeHolds_gap k f hf s) rfl
  gaps f hf _ s h := h.view (scopeHolds_gaps f hf s) rfl
  chan c f _ s h := by refine h.blocks ?_ ?_ ?_ ?_ ?_ ?_ <;> rfl
  inputs p _ _ hp h := scoped_inputs p hp h
  settle pins b s _ h := by
    cases b with
    | true => exact countsOk_tmx (s := s) rfl h.2.2.2
    | false => exact countsOk_tmx (s := s) rfl h
  count {_ s} h := h.view (scopeHolds_countDown s) rfl
  configure body _ s h := by refine h.blocks ?_ ?_ ?_ ?_ ?_ ?_ <;> rfl
  actions rows _ s h := by refine h.blocks ?_ ?_ ?_ ?_ ?_ ?_ <;> rfl
  pend p counter _ s h := by refine h.blocks ?_ ?_ ?_ ?_ ?_ ?_ <;> rfl
  spend {_ s} h := by refine h.blocks ?_ ?_ ?_ ?_ ?_ ?_ <;> rfl
  countForce k n s hn h := fun j => ⟨countsOk_vset (fun i => (h i).1) hn j, (h j).2⟩
  countGap k n s hn h := fun j => ⟨(h j).1, countsOk_vset (fun i => (h i).2) hn j⟩
  mark key st _ s hst h := by
    refine h.table ?_ (fun key' hp => .inl (present_mark hst hp)) ?_ ?_
    · exact scopeHolds_congr rfl (fun _ => rfl) (fun _ => ⟨rfl, rfl⟩) rfl rfl
    · rfl
    · rfl
  reraise key _ s hscope h := by
    refine h.table ?_ (fun key' hp => (present_reraise hp).imp_right ?_) ?_ ?_
    · exact scopeHolds_congr rfl (fun _ => rfl) (fun _ => ⟨rfl, rfl⟩) rfl rfl
    · rintro rfl
      exact hscope
    · rfl
    · rfl
  create inTracker key _ _ h := scopesOk_createRecord inTracker key h
  remove r _ s h := h.table
    (scopeHolds_standing (by simp) (removeRecord_standing r s) (by simp) (by simp) (by simp))
    (fun key hp => .inl (removeRecord_table r key s hp)) (removeRecord_counts r s).1 (removeRecord_counts r s).2
  empty _ h := scopesOk_millEmpty h
  mill _ h := scopesOk_setMill _ h
  ready k s _ h := countsOk_tmx (by simp) h
  roll k s _ h := countsOk_tmx (by simp) h
  thread k s _ _ _ h := countsOk_threaded k h
  tail k s _ h := countsOk_tmx (by simp) h
  send k mode ref s _ _ h := countsOk_tmx (by simp) h
  emptySlot k _ s h := by refine h.blocks ?_ ?_ ?_ ?_ ?_ ?_ <;> rfl
  next {s} _ h := countsOk_tmx (by simp) h
  leave k st s _ h := countsOk_tmx (by simp) h
  pendHandover k ho s _ h := countsOk_tmx (by simp [pendHandover]) h
  restore k s _ h := countsOk_tmx (restored_keeps k s).2.2.2.2.1 h
  overlap k _ s _ h := h.view (scopeHolds_seq k (fun q => { q with nonOverlap := none, fastOpen := true }) (fun _ => rfl) s) rfl
  equalized k _ s h := h.view (scopeHolds_seq k (fun q => { q with equalize := none }) (fun _ => rfl) s) rfl
  swap {s} _ _ := scopesOk_swapBank s
  reset {s} _ _ := scopesOk_reset s
  tracker t _ s hmill h := h.blocks (t := s.withStk t) hmill rfl rfl rfl rfl rfl
  idle _ h := scopesOk_setMill _ h
  strip k b s hset h := by
    cases b with
    | false => exact countsOk_tmx (s := s) rfl h.2.2.2
    | true =>
      refine scopesOk_view (s := s) (scopeHolds_strip rfl rfl rfl rfl fun j hj => ?_) rfl h
      rw [senseStrip_strip, if_neg]
      rintro rfl
      exact nomatch (hset rfl).symm.trans hj
  absent k s h := by
    refine scopesOk_congr (s := s) (fun key hk => ?_) (fun _ => ⟨rfl, rfl⟩) (fun _ hp => .inl hp) rfl rfl h
    cases key with
    | stand c j =>
      cases c
      case headOverdue =>
        simp only [scopeHolds, Bool.and_eq_true, Bool.not_eq_true'] at hk ⊢
        obtain ⟨hset, hstrip⟩ := hk
        refine ⟨hset, ?_⟩
        unfold State.stripPresent at hstrip ⊢
        rw [modPresence_presence]
        split
        · rfl
        · exact hstrip
      all_goals exact hk
    | _ => exact hk

/-- After reset no key is present, and no sample is counted (R163). -/
theorem scopesOk_reset_state : ScopesOk State.reset := by
  refine ⟨fun key hp => ?_, fun k _ => vget_replicate 0 k, fun k _ => vget_replicate 0 k, fun k => ?_⟩
  · obtain ⟨r, hr, hstate⟩ := (present_iff _ _).mp hp
    have hmem : r ∈ [resetStopRecord] := recordOf_mem hr
    obtain rfl := List.mem_singleton.mp hmem
    exact absurd rfl hstate
  · rw [show vget State.reset.tmx.forceCnt k = 0 from vget_replicate 0 k,
      show vget State.reset.tmx.gapCnt k = 0 from vget_replicate 0 k]
    decide

/-- Settles O54: every change of a stand, of the mill or of a window reference ends with the evaluation of the scopes, which
re-establishes them; a raise is made in scope, and no other change makes a key present. -/
theorem stepKeepsScopes : Obligations.StepKeepsScopes := by
  intro s t hs hstep
  refine step_keeps (P := ScopesOk) (fun _ _ h => ?_) (fun r s _ => ?_) (fun straps s => ?_)
    (fun _ m h => untracked_scoped.tracked.after_move m h) hs hstep
  · exact Scoped.blocks (b := true) rfl rfl rfl rfl rfl rfl h
  · exact ⟨(fun _ h => nomatch h), fun k _ => vget_replicate 0 k, fun k _ => vget_replicate 0 k, fun k => by
      rw [show vget (holdReset r s).tmx.forceCnt k = 0 from vget_replicate 0 k,
        show vget (holdReset r s).tmx.gapCnt k = 0 from vget_replicate 0 k]
      decide⟩
  · rw [release_eq]
    exact Scoped.blocks (s := State.reset) (b := true) rfl rfl rfl rfl rfl rfl scopesOk_reset_state

end Sys2Proof.Machine
end

section
/-! PROOFS. The sequencer records and the setpoint slots at every event (R36 to R38, R114, R115, R125, R126), and O56. -/

namespace Sys2Proof.Machine

/-! ## One sequencer record -/

/-- The state that a handover record keeps for its stand (R114, R130). -/
def Handover.PriorFits (h : Handover) : Prop :=
  match h.dir with
  | .toLocal => h.prior = some .out ∨ h.prior = some .setup ∨ h.prior = some .ready ∨ h.prior = some .tripped
  | .toCoord => h.prior = none

/-- What holds of a sequencer record whatever the trip table holds. -/
structure SeqCore (q : SeqRecord) : Prop where
  pending : q.state = .handover ↔ q.handover ≠ none
  lamp : q.localReq = true ↔ q.state = .handover
  prior (h : Handover) : q.handover = some h → h.PriorFits
  equalize : q.equalize ≠ none → q.state = .setup ∨ q.state = .ready
  single : ¬(q.fastOpen = true ∧ q.nonOverlap ≠ none)

/-- `SeqOk` of one stand: its record against the MILL_STOP records and its FREEZE cover. -/
structure SeqFits (millStop freeze : Bool) (q : SeqRecord) : Prop where
  core : SeqCore q
  demand : (q.fastOpen || q.nonOverlap.isSome) = fastOpenDemand q.state millStop
  frozen : q.frozen = freeze

/-- Every stand's record fits the trip table. -/
def SeqAll (s : State) : Prop := ∀ k, SeqFits s.millStopExists (s.freezeCover k) (s.seq k)

theorem fastOpenDemand_iff (st : StandState) (millStop : Bool) :
    fastOpenDemand st millStop = true ↔
      st = .tripped ∨ (st = .out ∨ st = .local_ ∨ st = .handover) ∧ millStop = true := by
  cases st <;> simp [fastOpenDemand]

theorem millStopExists_iff (s : State) : s.millStopExists = true ↔ ∃ r ∈ s.tmx.table, r.action = .millStop := by
  simp [State.millStopExists]

theorem freezeCover_iff (s : State) (k : Stand) :
    s.freezeCover k = true ↔ ∃ r ∈ s.tmx.table, r.action = .freeze ∧ r.covers k = true := by
  simp [State.freezeCover]

theorem asserted_iff (q : SeqRecord) :
    (q.fastOpen || q.nonOverlap.isSome) = true ↔ q.fastOpen = true ∨ q.nonOverlap ≠ none := by
  rw [Bool.or_eq_true, Option.isSome_iff_ne_none]

theorem seqOk_iff (s : State) (k : Stand) : SeqOk s k ↔ SeqFits s.millStopExists (s.freezeCover k) (s.seq k) := by
  constructor
  · intro ⟨hpending, hlamp, hprior, hequalize, hdemand, hsingle, hfrozen⟩
    refine ⟨⟨hpending, hlamp, hprior, hequalize, hsingle⟩, ?_, ?_⟩
    · rw [Bool.eq_iff_iff, asserted_iff, fastOpenDemand_iff, millStopExists_iff]
      exact hdemand
    · rw [Bool.eq_iff_iff, freezeCover_iff]
      exact hfrozen
  · intro ⟨⟨hpending, hlamp, hprior, hequalize, hsingle⟩, hdemand, hfrozen⟩
    refine ⟨hpending, hlamp, hprior, hequalize, ?_, hsingle, ?_⟩
    · rw [← millStopExists_iff, ← fastOpenDemand_iff, ← hdemand]
      exact (asserted_iff _).symm
    · rw [hfrozen]
      exact freezeCover_iff s k

theorem SeqCore.no_handover {q : SeqRecord} (h : SeqCore q) (hstate : q.state ≠ .handover) :
    q.handover = none ∧ q.localReq = false := by
  constructor
  · exact Decidable.not_not.mp fun hne => hstate (h.pending.mpr hne)
  · cases hreq : q.localReq with
    | false => rfl
    | true => exact absurd (h.lamp.mp hreq) hstate

/-- A record without a handover that takes a state. -/
theorem seqCore_enter {q : SeqRecord} {st : StandState} (hho : q.handover = none) (hreq : q.localReq = false)
    (hst : st ≠ .handover) (hsingle : ¬(q.fastOpen = true ∧ q.nonOverlap ≠ none)) : SeqCore (q.enter st) where
  pending := ⟨fun h => absurd h hst, fun h => absurd hho h⟩
  lamp := ⟨(fun h => nomatch hreq.symm.trans h), fun h => absurd h hst⟩
  prior h hh := nomatch hho.symm.trans hh
  equalize h := by
    change (if equalizeRuns st then q.equalize else none) ≠ none at h
    change st = .setup ∨ st = .ready
    cases st <;> simp [equalizeRuns] at h ⊢
  single := hsingle

theorem single_evalDemand {q : SeqRecord} (millStop : Bool) (tNo : Nat) (h : ¬(q.fastOpen = true ∧ q.nonOverlap ≠ none)) :
    ¬((q.evalDemand millStop tNo).fastOpen = true ∧ (q.evalDemand millStop tNo).nonOverlap ≠ none) := by
  unfold SeqRecord.evalDemand
  dsimp only
  split
  · split
    · exact h
    next hwas =>
      rw [Bool.or_eq_true, not_or] at hwas
      split
      · rintro ⟨-, hne⟩
        exact hwas.2 (Option.isSome_iff_ne_none.mpr hne)
      · rintro ⟨hfast, -⟩
        exact hwas.1 hfast
  · rintro ⟨hfast, -⟩
    exact Bool.false_ne_true hfast

theorem seqCore_evalDemand {q : SeqRecord} (millStop : Bool) (tNo : Nat) (h : SeqCore q) : SeqCore (q.evalDemand millStop tNo) := by
  obtain ⟨hstate, -, hho, hequalize, hreq⟩ := evalDemand_record_keeps q millStop tNo
  obtain ⟨hpending, hlamp, hprior, hequal, hsingle⟩ := h
  exact ⟨by rwa [hstate, hho], by rwa [hstate, hreq], by rwa [hho], by rwa [hequalize, hstate],
    single_evalDemand millStop tNo hsingle⟩

/-- An evaluation of the demand makes FAST_OPEN fit it (R125). -/
theorem seqFits_evalDemand {q : SeqRecord} {millStop freeze : Bool} (tNo : Nat) (h : SeqCore q) (hfrozen : q.frozen = freeze) :
    SeqFits millStop freeze (q.evalDemand millStop tNo) where
  core := seqCore_evalDemand millStop tNo h
  demand := by rw [evalDemand_demand, (evalDemand_record_keeps q millStop tNo).1]
  frozen := by rw [(evalDemand_record_keeps q millStop tNo).2.1, hfrozen]

/-- A stand that is not in HANDOVER takes a state (R125, R126). -/
theorem seqFits_enter {q : SeqRecord} {millStop freeze : Bool} {st : StandState} (tNo : Nat) (h : SeqFits millStop freeze q)
    (hfrom : q.state ≠ .handover) (hst : st ≠ .handover) :
    SeqFits millStop freeze ((q.enter st).evalDemand millStop tNo) := by
  obtain ⟨hho, hreq⟩ := h.core.no_handover hfrom
  exact seqFits_evalDemand tNo (seqCore_enter hho hreq hst h.core.single) h.frozen

/-- A handover ends (R131). -/
theorem seqFits_released {q : SeqRecord} {millStop freeze : Bool} {st : StandState} (tNo : Nat) (h : SeqFits millStop freeze q)
    (hst : st ≠ .handover) : SeqFits millStop freeze ((q.released.enter st).evalDemand millStop tNo) :=
  seqFits_evalDemand tNo (seqCore_enter (q := q.released) rfl rfl hst h.core.single) h.frozen

theorem unconfirmedState_ne {q : SeqRecord} {ho : Handover} (h : SeqCore q) (hho : q.handover = some ho) (i cover : Bool) :
    unconfirmedState ho i cover ≠ .handover := by
  have hprior := h.prior ho hho
  unfold Handover.PriorFits at hprior
  unfold unconfirmedState
  cases hdir : ho.dir with
  | toCoord => simp
  | toLocal =>
    rw [hdir] at hprior
    obtain hp | hp | hp | hp := hprior <;> rw [hp] <;> cases i <;> cases cover <;> decide

theorem seqCore_opened {q : SeqRecord} (i millStop : Bool) (tNo : Nat) (h : SeqCore q) : SeqCore (q.opened i millStop tNo) := by
  unfold SeqRecord.opened
  split
  next hpass =>
    obtain ⟨hho, hreq⟩ := h.no_handover fun he => by rw [he] at hpass; contradiction
    exact seqCore_evalDemand _ _ (seqCore_enter hho hreq (by decide) h.single)
  next =>
    split
    next =>
      cases hh : q.handover with
      | none => exact h
      | some ho =>
        exact seqCore_evalDemand _ _ (seqCore_enter (q := q.released) rfl rfl (unconfirmedState_ne h hh i true) h.single)
    next => exact h

theorem seqFits_swapped {q : SeqRecord} {millStop freeze : Bool} (i cover : Bool) (tNo : Nat) (h : SeqFits millStop freeze q) :
    SeqFits millStop freeze (q.swapped i cover millStop tNo) := by
  unfold SeqRecord.swapped
  split
  next hstate =>
    refine ⟨⟨?_, h.core.lamp, fun ho hh => ?_, h.core.equalize, h.core.single⟩, h.demand, h.frozen⟩
    · refine h.core.pending.trans ?_
      simp
    · obtain ⟨old, hold, rfl⟩ := Option.map_eq_some_iff.mp hh
      have hprior := h.core.prior old hold
      unfold swapHandover
      split
      next hready =>
        obtain ⟨hdir, -⟩ := hready
        simp [Handover.PriorFits, hdir]
      next => exact hprior
  next hstate =>
    split
    · exact h
    · refine seqFits_enter tNo h hstate ?_
      cases i <;> cases cover <;> decide

theorem seqFits_countDown {q : SeqRecord} {millStop freeze : Bool} (h : SeqFits millStop freeze q) :
    SeqFits millStop freeze q.countDown := by
  obtain ⟨⟨hpending, hlamp, hprior, hequalize, hsingle⟩, hdemand, hfrozen⟩ := h
  refine ⟨⟨?_, hlamp, fun ho hh => ?_, ?_, ?_⟩, ?_, hfrozen⟩
  · refine hpending.trans ?_
    simp [SeqRecord.countDown]
  · obtain ⟨old, hold, rfl⟩ := Option.map_eq_some_iff.mp hh
    exact hprior old hold
  · intro hne
    refine hequalize ?_
    simpa [SeqRecord.countDown, countTimer] using hne
  · intro ⟨hfast, hne⟩
    refine hsingle ⟨hfast, ?_⟩
    simpa [SeqRecord.countDown, countTimer] using hne
  · refine Eq.trans ?_ hdemand
    simp [SeqRecord.countDown, countTimer]

/-! ## All records -/

theorem covers_congr {s t : State} (h : t.tmx.table = s.tmx.table) :
    t.millStopExists = s.millStopExists ∧ ∀ k, t.freezeCover k = s.freezeCover k := by
  constructor
  · rw [State.millStopExists, State.millStopExists, h]
  · intro k
    rw [State.freezeCover, State.freezeCover, h]

theorem SeqAll.congr {s t : State} (htable : t.tmx.table = s.tmx.table) (hssq : t.ssq = s.ssq) (h : SeqAll s) : SeqAll t := by
  obtain ⟨hstop, hfreeze⟩ := covers_congr htable
  intro k
  rw [hstop, hfreeze, seq_congr hssq]
  exact h k

theorem SeqAll.change {s t : State} {k : Stand} {q : SeqRecord} (htable : t.tmx.table = s.tmx.table)
    (hseq : ∀ j, t.seq j = if j = k then q else s.seq j)
    (hq : SeqFits s.millStopExists (s.freezeCover k) (s.seq k) → SeqFits s.millStopExists (s.freezeCover k) q) (h : SeqAll s) :
    SeqAll t := by
  obtain ⟨hstop, hfreeze⟩ := covers_congr htable
  intro j
  rw [hstop, hfreeze, hseq]
  split
  next hjk =>
    rw [hjk]
    exact hq (h k)
  next => exact h j

/-- A record's state and occurrences are no part of its covers (R115). -/
theorem covers_modRecord (key : Key) (f : TripRecord → TripRecord) (hf : ∀ r, (f r).action = r.action ∧ (f r).key = r.key) (s : State) :
    (s.modRecord key f).millStopExists = s.millStopExists ∧ ∀ k, (s.modRecord key f).freezeCover k = s.freezeCover k := by
  have hcovers (r : TripRecord) (k : Stand) : (f r).covers k = r.covers k := by
    unfold TripRecord.covers
    rw [(hf r).1, (hf r).2]
  constructor
  · show List.any (s.tmx.table.map fun r => if r.key == key then f r else r) _ = _
    rw [List.any_map]
    refine congrArg (fun p => List.any s.tmx.table p) (funext fun r => ?_)
    show ((if r.key == key then f r else r).action == .millStop) = _
    split
    · rw [(hf r).1]
    · rfl
  · intro k
    show List.any (s.tmx.table.map fun r => if r.key == key then f r else r) _ = _
    rw [List.any_map]
    refine congrArg (fun p => List.any s.tmx.table p) (funext fun r => ?_)
    show ((if r.key == key then f r else r).action == .freeze && (if r.key == key then f r else r).covers k) = _
    split
    · rw [(hf r).1, hcovers]
    · rfl

theorem seqAll_modRecord (key : Key) (f : TripRecord → TripRecord) (hf : ∀ r, (f r).action = r.action ∧ (f r).key = r.key)
    {s : State} (h : SeqAll s) : SeqAll (s.modRecord key f) := by
  obtain ⟨hstop, hfreeze⟩ := covers_modRecord key f hf s
  intro k
  rw [hstop, hfreeze]
  exact h k

/-- The evaluations of the frozen flags and of the demands make every record fit the trip table (R115, R125). -/
theorem seqAll_evaluated {s : State} (h : ∀ k, SeqCore (s.seq k)) : SeqAll (eachStand evalDemand (eachStand evalFrozen s)) := by
  obtain ⟨hstop, hfreeze⟩ := covers_congr (s := s) (t := eachStand evalDemand (eachStand evalFrozen s)) (by simp)
  obtain ⟨hstop', -⟩ := covers_congr (s := s) (t := eachStand evalFrozen s) (by simp)
  intro k
  rw [hstop, hfreeze, eachStand_evalDemand_seq, eachStand_evalFrozen_seq, hstop']
  have hk := h k
  exact seqFits_evalDemand _ ⟨hk.pending, hk.lamp, hk.prior, hk.equalize, hk.single⟩ rfl

theorem seqAll_removeRecord (r : TripRecord) {s : State} (h : SeqAll s) : SeqAll (removeRecord r s) := by
  have hseq : SeqAll (eachStand evalDemand (eachStand evalFrozen (dropRecord r s))) := seqAll_evaluated fun k => (h k).core
  exact hseq.congr (t := removeRecord r s) (by simp [removeRecord, dropRecord]) (by simp [removeRecord, dropRecord])

theorem seqAll_handCreation (r : TripRecord) {s : State} (h : ∀ k, SeqCore (s.seq k)) : SeqAll (handCreation r s) := by
  obtain ⟨hstop, hfreeze⟩ := covers_congr (s := s) (t := handCreation r s)
    (by rw [handCreation_tmx]; rfl)
  intro k
  rw [hstop, hfreeze, handCreation_seq]
  refine seqFits_evalDemand _ ?_ rfl
  have hk : SeqCore (if r.action.openClass && r.covers k then (s.seq k).opened (s.inSet k) s.millStopExists (s.tNo k)
      else s.seq k) := by
    split
    · exact seqCore_opened _ _ _ (h k)
    · exact h k
  exact ⟨hk.pending, hk.lamp, hk.prior, hk.equalize, hk.single⟩

end Sys2Proof.Machine
end

section
/-! PROOFS. The setpoint slots at every event, and O56. -/

namespace Sys2Proof.Machine

/-- `SlotsOk` but for the handover records (R36 to R38). -/
structure SlotsFit (s : State) : Prop where
  idle : s.flc.tx = none → ∀ k, vget s.flc.slots k = none
  owned (k : Stand) : vget s.sch.config.tags k = 0 ∨ s.record k = none → vget s.flc.slots k = none
  home (k : Stand) : (s.seq k).state.away = true → vget s.flc.slots k = none

/-- The sequencer records and the slots. -/
def Sequenced (s : State) : Prop := SeqAll s ∧ SlotsFit s

theorem away_iff_or (st : StandState) : st.away = true ↔ st = .local_ ∨ st = .handover := by cases st <;> decide

theorem sequenced_iff (s : State) : Sequenced s ↔ (∀ k, SeqOk s k) ∧ SlotsOk s := by
  constructor
  · intro ⟨hseq, hidle, howned, hhome⟩
    exact ⟨fun k => (seqOk_iff s k).mpr (hseq k), hidle, howned, fun k hst => hhome k ((away_iff_or _).mpr hst),
      fun k => (hseq k).core.pending.mpr⟩
  · rintro ⟨hseq, hidle, howned, hhome, -⟩
    exact ⟨fun k => (seqOk_iff s k).mp (hseq k), hidle, howned, fun k hst => hhome k ((away_iff_or _).mp hst)⟩

/-! ## The slots -/

/-- A change that leaves the line and the records, and moves a stand into LOCAL or HANDOVER with its slot empty alone. -/
theorem slotsFit_of {s t : State} (hflc : t.flc = s.flc) (htags : t.sch.config.tags = s.sch.config.tags)
    (hactive : t.sch.active = s.sch.active)
    (haway : ∀ k, (t.seq k).state.away = true → (s.seq k).state.away = true ∨ vget s.flc.slots k = none) (h : SlotsFit s) :
    SlotsFit t where
  idle hidle := by
    rw [hflc] at hidle ⊢
    exact h.idle hidle
  owned k hk := by
    have hrec : t.record k = s.record k := by rw [State.record, State.record, hactive]
    rw [htags, hrec] at hk
    rw [hflc]
    exact h.owned k hk
  home k hk := by
    rw [hflc]
    exact (haway k hk).elim (h.home k) id

theorem slotsFit_same {s t : State} (hflc : t.flc = s.flc) (hsch : t.sch = s.sch) (hssq : t.ssq = s.ssq) (h : SlotsFit s) :
    SlotsFit t :=
  slotsFit_of hflc (by rw [hsch]) (by rw [hsch]) (fun k hk => .inl (by rwa [seq_congr hssq] at hk)) h

/-- A change of the record of one stand. -/
theorem slotsFit_change {s t : State} {k : Stand} {q : SeqRecord} (hflc : t.flc = s.flc) (hsch : t.sch = s.sch)
    (hseq : ∀ j, t.seq j = if j = k then q else s.seq j)
    (hq : q.state.away = true → (s.seq k).state.away = true ∨ vget s.flc.slots k = none) (h : SlotsFit s) : SlotsFit t := by
  refine slotsFit_of hflc (by rw [hsch]) (by rw [hsch]) (fun j hj => ?_) h
  rw [hseq] at hj
  split at hj
  next hjk =>
    subst hjk
    exact hq hj
  next => exact .inl hj

theorem slotsFit_emptySlot (k : Stand) {s : State} (h : SlotsFit s) : SlotsFit (emptySlot k s) := by
  have hempty {j : Stand} (hj : vget s.flc.slots j = none) : vget (vset s.flc.slots k none) j = none := by
    rw [vget_vset]
    split
    · rfl
    · exact hj
  exact ⟨fun hidle j => hempty (h.idle hidle j), fun j hj => hempty (h.owned j hj), fun j hj => hempty (h.home j hj)⟩

theorem startSetpoint_flc (k : Stand) (p : Setpoint) (s : State) :
    (startSetpoint k p s).flc.slots = vset s.flc.slots k none ∧ (startSetpoint k p s).flc.tx ≠ none ∧
      (startSetpoint k p s).sch = s.sch ∧ (startSetpoint k p s).ssq = s.ssq := by
  unfold startSetpoint
  simp

theorem slotsFit_startSetpoint (k : Stand) (p : Setpoint) {s : State} (h : SlotsFit s) : SlotsFit (startSetpoint k p s) := by
  obtain ⟨hslots, hbusy, hsch, hssq⟩ := startSetpoint_flc k p s
  have hempty {j : Stand} (hj : vget s.flc.slots j = none) : vget (startSetpoint k p s).flc.slots j = none := by
    rw [hslots, vget_vset]
    split
    · rfl
    · exact hj
  refine ⟨fun hidle => absurd hidle hbusy, fun j hj => hempty (h.owned j ?_), fun j hj => hempty (h.home j ?_)⟩
  · rw [State.record, hsch] at hj
    exact hj
  · rwa [seq_congr hssq] at hj

/-- A setpoint is produced for a stand with a record that is not in LOCAL or HANDOVER (R36 to R38). -/
theorem slotsFit_produce (k : Stand) (mode : Mode) (ref : Int) {s : State} (hrecord : s.record k ≠ none)
    (hstate : (s.seq k).state.away = false) (h : SlotsFit s) : SlotsFit (produce k mode ref s) := by
  have href : SlotsFit (s.modGap k fun g => { g with sRef := ref }) := slotsFit_same (s := s) rfl rfl rfl h
  obtain ⟨-, e⟩ | ⟨-, -, e⟩ | ⟨htag, hbusy, e⟩ := produce_cases k mode ref s <;> rw [e]
  · exact slotsFit_emptySlot k href
  · exact slotsFit_startSetpoint k _ href
  · refine ⟨fun hidle => absurd hidle hbusy, fun j hj => ?_, fun j hj => ?_⟩
    · show vget (vset s.flc.slots k _) j = none
      rw [vget_vset]
      split
      next hjk =>
        subst hjk
        obtain hj | hj := hj
        · exact absurd hj htag
        · exact absurd hj hrecord
      next => exact h.owned j hj
    · show vget (vset s.flc.slots k _) j = none
      rw [vget_vset]
      split
      next hjk =>
        subst hjk
        exact nomatch hstate.symm.trans hj
      next => exact h.home j hj

theorem slotsFit_nextSetpoint {s : State} (h : SlotsFit s) : SlotsFit (nextSetpoint s) := by
  unfold nextSetpoint
  cases hp : pendingSlot s.flc with
  | some kp => exact slotsFit_startSetpoint kp.1 kp.2 h
  | none => exact ⟨fun _ => (pendingSlot_none _).mp hp, h.owned, h.home⟩

/-! ## States entered -/

theorem slotsFit_setStandState (k : Stand) (st : StandState) {s : State}
    (hst : st.away = true → (s.seq k).state.away = true ∨ vget s.flc.slots k = none) (h : SlotsFit s) :
    SlotsFit (setStandState k st s) :=
  slotsFit_change (by simp) (by simp) (fun j => setStandState_seq k j st s)
    (fun hq => hst (by rwa [(evalDemand_record_keeps _ _ _).1] at hq)) h

theorem slotsFit_tripStand (k : Stand) {s : State} (h : SlotsFit s) : SlotsFit (tripStand k s) := by
  have htripped : SlotsFit (s.modSeq k fun q => { q with state := .tripped, equalize := none }) :=
    slotsFit_change (s := s) rfl rfl (fun j => modSeq_seq s k j _) (fun hq => nomatch hq) h
  have hsent : SlotsFit (match s.record k with
      | some r => produce k .open_ r.sOpen (s.modSeq k fun q => { q with state := .tripped, equalize := none })
      | none => s.modSeq k fun q => { q with state := .tripped, equalize := none }) := by
    split
    next r hrecord =>
      refine slotsFit_produce k _ _ (fun hnone => nomatch hnone.symm.trans hrecord) ?_ htripped
      rw [modSeq_seq_self]
      rfl
    next => exact htripped
  have hlock {t : State} (ht : SlotsFit t) : SlotsFit (t.modGap k fun g => { g with lockCount := 0 }) :=
    slotsFit_same (s := t) rfl rfl rfl ht
  have heval {t : State} (ht : SlotsFit t) : SlotsFit (evalDemand k t) :=
    slotsFit_change (by simp) (by simp) (fun j => evalDemand_seq k j t)
      (fun hq => .inl (by rwa [(evalDemand_record_keeps _ _ _).1] at hq)) ht
  unfold tripStand
  dsimp only
  refine heval ?_
  split
  · exact hlock hsent
  · exact hsent

theorem slotsFit_enterState (k : Stand) (st : StandState) {s : State}
    (hst : st.away = true → (s.seq k).state.away = true ∨ vget s.flc.slots k = none) (h : SlotsFit s) :
    SlotsFit (enterState k st s) := by
  unfold enterState
  split
  · exact slotsFit_tripStand k h
  · exact slotsFit_setStandState k st hst h

theorem slotsFit_leaveHandover (k : Stand) (st : StandState) {s : State}
    (hst : st.away = true → (s.seq k).state.away = true ∨ vget s.flc.slots k = none) (h : SlotsFit s) :
    SlotsFit (leaveHandover k st s) := by
  have hreleased : SlotsFit (s.modSeq k fun q => { q with handover := none, localReq := false }) :=
    slotsFit_change (s := s) rfl rfl (fun j => modSeq_seq s k j _) (fun hq => .inl hq) h
  refine slotsFit_enterState k st (fun ha => ?_) hreleased
  rw [modSeq_seq_self]
  exact hst ha

theorem slotsFit_notice (b : NoticeBody) {s : State} (h : SlotsFit s) : SlotsFit (updateNotice b s) :=
  slotsFit_same (by simp) (by simp) (by simp) h

theorem slotsFit_standNotice (k : Stand) {s : State} (h : SlotsFit s) : SlotsFit (standNotice k s) := slotsFit_notice _ h

theorem slotsFit_standing {s t : State} (hflc : t.flc = s.flc) (hsch : t.sch = s.sch) (hst : t.standing = s.standing)
    (h : SlotsFit s) : SlotsFit t :=
  slotsFit_of hflc (by rw [hsch]) (by rw [hsch])
    (fun k hk => .inl (by rwa [(standing_iff.mp (congrFun hst k)).1] at hk)) h

theorem slotsFit_openCreationAt (k : Stand) {s : State} (h : SlotsFit s) : SlotsFit (openCreationAt k s) := by
  unfold openCreationAt
  split
  case h_6 hstate =>
    unfold abortHandover
    split
    next ho hh =>
      refine slotsFit_notice _ (slotsFit_standNotice k (slotsFit_leaveHandover k _ (fun _ => .inl ?_) h))
      rw [hstate]
      rfl
    next => exact h
  case h_7 | h_8 | h_9 => exact h
  all_goals exact slotsFit_standNotice k (slotsFit_tripStand k h)

theorem slotsFit_handCreation (r : TripRecord) {s : State} (hcore : ∀ k, SeqCore (s.seq k)) (h : SlotsFit s) :
    SlotsFit (handCreation r s) := by
  have hopen : SlotsFit (if r.action.openClass then
      eachStand (fun k s => if r.covers k then openCreationAt k s else s) (evalStopLine s) else evalStopLine s) ∧ True := by
    refine ⟨?_, trivial⟩
    split
    · refine (eachStand_inv (fun t => (∀ k, SeqCore (t.seq k)) ∧ SlotsFit t) _ (fun k t ht => ?_) (evalStopLine s)
        ⟨hcore, slotsFit_same (s := s) rfl rfl rfl h⟩).2
      obtain ⟨htcore, hslots⟩ := ht
      split
      · refine ⟨fun j => ?_, slotsFit_openCreationAt k hslots⟩
        rw [openCreationAt_seq]
        split
        · exact seqCore_opened _ _ _ (htcore k)
        · exact htcore j
      · exact ⟨htcore, hslots⟩
    · exact slotsFit_same (s := s) rfl rfl rfl h
  unfold handCreation
  dsimp only
  exact slotsFit_standing (by simp) (by simp) (eachStand_evalDemand_standing _)
    (slotsFit_standing (by simp) (by simp) (eachStand_evalFrozen_standing _) hopen.1)

/-! ## Both -/

theorem sequenced_congr {s t : State} (htable : t.tmx.table = s.tmx.table) (hssq : t.ssq = s.ssq) (hflc : t.flc = s.flc)
    (hsch : t.sch = s.sch) (h : Sequenced s) : Sequenced t :=
  ⟨h.1.congr htable hssq, slotsFit_same hflc hsch hssq h.2⟩

theorem sequenced_notice (b : NoticeBody) {s : State} (h : Sequenced s) : Sequenced (updateNotice b s) :=
  sequenced_congr (by simp) (by simp) (by simp) (by simp) h

theorem sequenced_removeRecord (r : TripRecord) {s : State} (h : Sequenced s) : Sequenced (removeRecord r s) :=
  ⟨seqAll_removeRecord r h.1, slotsFit_standing (by simp) (by simp) (removeRecord_standing r s) h.2⟩

theorem sequenced_tripNotice (key : Key) {s : State} (h : Sequenced s) : Sequenced (tripNotice key s) :=
  sequenced_congr (by simp) (by simp) (by simp) (by simp) h

theorem sequenced_modRecord (key : Key) (f : TripRecord → TripRecord) (hf : ∀ r, (f r).action = r.action ∧ (f r).key = r.key)
    {s : State} (h : Sequenced s) : Sequenced (s.modRecord key f) :=
  ⟨seqAll_modRecord key f hf h.1, slotsFit_same (s := s) rfl rfl rfl h.2⟩

theorem sequenced_goneKey (key : Key) {s : State} (h : Sequenced s) : Sequenced (goneKey key s) := by
  obtain ⟨-, e⟩ | ⟨r, -, ⟨-, e⟩ | ⟨-, e⟩ | ⟨-, e⟩⟩ := goneKey_cases key s <;> rw [e]
  · exact h
  · exact sequenced_tripNotice key (sequenced_modRecord key (fun r => { r with state := .held }) (fun _ => ⟨rfl, rfl⟩) h)
  · exact sequenced_removeRecord r h
  · exact h

theorem sequenced_evalScopes {s : State} (h : Sequenced s) : Sequenced (evalScopes s) := by
  refine foldl_inv _ (fun key t ht => ?_) _ (sequenced_congr (s := s) (t := clearCounters s) rfl rfl rfl rfl h)
  unfold goneOutOfScope
  split
  · exact sequenced_goneKey key ht
  · exact ht

theorem sequenced_enterState (k : Stand) (st : StandState) {s : State} (hfrom : (s.seq k).state ≠ .handover)
    (hst : st.away = false) (h : Sequenced s) : Sequenced (enterState k st s) := by
  refine ⟨h.1.change (k := k) (by simp) (fun j => enterState_seq k j st s) fun hk => seqFits_enter _ hk hfrom ?_,
    slotsFit_enterState k st (fun ha => nomatch hst.symm.trans ha) h.2⟩
  rintro rfl
  contradiction

theorem sequenced_setStandState (k : Stand) (st : StandState) {s : State} (hfrom : (s.seq k).state ≠ .handover)
    (hst : st.away = false) (h : Sequenced s) : Sequenced (setStandState k st s) := by
  refine ⟨h.1.change (k := k) (by simp) (fun j => setStandState_seq k j st s) fun hk => seqFits_enter _ hk hfrom ?_,
    slotsFit_setStandState k st (fun ha => nomatch hst.symm.trans ha) h.2⟩
  rintro rfl
  contradiction

theorem sequenced_leave (k : Stand) (st : StandState) {s : State} (hend : HandoverEnd s k st) (h : Sequenced s) :
    Sequenced (leaveHandover k st s) := by
  have hcore := (h.1 k).core
  have haway : (s.seq k).state.away = true := by
    have hpending {ho : Handover} (hh : (s.seq k).handover = some ho) : (s.seq k).state = .handover :=
      hcore.pending.mpr (by simp [hh])
    cases hend with
    | unconfirmed ho cover hh => rw [hpending hh]; rfl
    | granted ho hh => rw [hpending hh]; rfl
    | completed hstate =>
      obtain hl | ⟨ho, hh⟩ := hstate
      · rw [hl]; rfl
      · rw [hpending hh]; rfl
  refine ⟨h.1.change (k := k) (by simp) (fun j => leaveHandover_seq k j st s) fun hk => seqFits_released _ hk ?_,
    slotsFit_leaveHandover k st (fun _ => .inl haway) h.2⟩
  cases hend with
  | unconfirmed ho cover hh => exact unconfirmedState_ne hcore hh _ _
  | granted ho hh => decide
  | completed hstate =>
    unfold coordState
    cases s.inSet k <;> cases s.openCover k <;> decide

/-! ## Swap, mill empty and creations -/

theorem swapSlot_none {record : Option StandRecord} {slot : Option Setpoint} (h : record = none ∨ slot = none) :
    swapSlot record slot = none := by
  obtain rfl | rfl := h
  · rfl
  · cases record <;> rfl

theorem sequenced_swapStart {s : State} (h : Sequenced s) : Sequenced (swapStart s) := by
  obtain ⟨hseq, hslots⟩ := h
  have hslot (k : Stand) : vget (swapStart s).flc.slots k = swapSlot ((swapStart s).record k) (vget s.flc.slots k) :=
    vget_vtab _ k
  refine ⟨hseq.congr (t := swapStart s) rfl rfl, fun hidle k => ?_, fun k hk => ?_, fun k hk => ?_⟩
  · rw [hslot]
    exact swapSlot_none (.inr (hslots.idle hidle k))
  · rw [hslot]
    obtain htag | hrec := hk
    · exact swapSlot_none (.inr (hslots.owned k (.inl htag)))
    · exact swapSlot_none (.inl hrec)
  · rw [hslot]
    exact swapSlot_none (.inr (hslots.home k hk))

theorem sequenced_placeAtSwap (k : Stand) {s : State} (h : Sequenced s) : Sequenced (placeAtSwap k s) := by
  refine ⟨h.1.change (k := k) (by simp) (fun j => placeAtSwap_seq k j s) fun hk => seqFits_swapped _ _ _ hk, ?_⟩
  have hplace : (placement (s.inSet k) (s.openCover k)).away = false := by
    cases s.inSet k <;> cases s.openCover k <;> decide
  unfold placeAtSwap
  split
  · exact slotsFit_change (s := s) (k := k) rfl rfl (fun j => modSeq_seq s k j _) (fun hq => .inl hq) h.2
  · exact h.2
  · exact h.2
  · dsimp only
    split
    · exact h.2
    · exact slotsFit_standNotice k (slotsFit_enterState k _ (fun ha => nomatch hplace.symm.trans ha) h.2)

theorem sequenced_swapBank {s : State} (h : Sequenced s) : Sequenced (swapBank s) := by
  rw [swapBank_eq]
  exact sequenced_notice _ (sequenced_evalScopes
    (eachStand_inv Sequenced _ (fun k _ ht => sequenced_placeAtSwap k ht) _ (sequenced_swapStart h)))

theorem sequenced_setMill (m : MillState) {s : State} (h : Sequenced s) : Sequenced (setMill m s) :=
  sequenced_evalScopes (sequenced_notice _ (sequenced_congr (s := s) rfl rfl rfl rfl h))

theorem sequenced_millEmpty {s : State} (h : Sequenced s) : Sequenced (millEmpty s) := by
  have hemptied : Sequenced (emptied s) := by
    unfold emptied
    split
    · exact sequenced_swapBank h
    · exact h
  have htails : Sequenced (eachStand tailToSetup (emptied s)) := by
    refine eachStand_inv Sequenced _ (fun k t ht => ?_) _ hemptied
    unfold tailToSetup
    split
    next hstate => exact sequenced_notice _ (sequenced_setStandState k .setup (by rw [hstate]; decide) rfl ht)
    next => exact ht
  have hunmarked : Sequenced (unmarked s) := by
    unfold unmarked
    exact sequenced_congr (by simp) (by simp) (by simp) (by simp) (sequenced_evalScopes htails)
  rw [millEmpty_unfold]
  exact sequenced_setMill _ hunmarked

theorem sequenced_createRecord (inTracker : Bool) (key : Key) {s : State} (h : Sequenced s) :
    Sequenced (createRecord inTracker key s) := by
  have hcore : ∀ k, SeqCore ((s.withTmx { s.tmx with table := s.tmx.table ++ [newRecord key s] }).seq k) := fun k => (h.1 k).core
  have hhand : Sequenced (handCreation (newRecord key s) (s.withTmx { s.tmx with table := s.tmx.table ++ [newRecord key s] })) :=
    ⟨seqAll_handCreation _ hcore, slotsFit_handCreation _ hcore (slotsFit_same (s := s) rfl rfl rfl h.2)⟩
  unfold createRecord
  refine sequenced_evalScopes (sequenced_tripNotice key ?_)
  split
  · obtain ⟨-, e⟩ | ⟨-, e⟩ := millEmptyTest_cases
      (handCreation (newRecord key s) (s.withTmx { s.tmx with table := s.tmx.table ++ [newRecord key s] })) <;> rw [e]
    · exact sequenced_millEmpty hhand
    · exact hhand
  · exact hhand

/-! ## The changes -/

theorem sequenced_threaded (k : Stand) {s : State} (hstate : (s.seq k).state = .ready) (h : Sequenced s) :
    Sequenced (threaded k s) := by
  have hthread := sequenced_setStandState k .thread (by rw [hstate]; decide) rfl h
  have hgap : Sequenced ((setStandState k .thread s).modGap k GapRecord.enterThread) :=
    sequenced_congr (s := setStandState k .thread s) rfl rfl rfl rfl hthread
  unfold threaded
  dsimp only
  split
  · refine sequenced_setMill _ (sequenced_congr ?_ ?_ ?_ ?_ hgap) <;> rfl
  · exact hgap

theorem sequenced_configure (body : List Byte) {s : State} (h : Sequenced s) :
    Sequenced ((s.withSch { s.sch with config := configured body s.sch.config }).withFlc { s.flc with
      slots := vtab fun k => if vget (configured body s.sch.config).tags k = 0 then none else vget s.flc.slots k }) := by
  obtain ⟨hseq, hslots⟩ := h
  have hempty {k : Stand} (hk : vget s.flc.slots k = none) :
      vget (vtab fun k => if vget (configured body s.sch.config).tags k = 0 then none else vget s.flc.slots k) k = none := by
    rw [vget_vtab]
    split
    · rfl
    · exact hk
  refine ⟨hseq.congr rfl rfl, fun hidle k => hempty (hslots.idle hidle k), fun k hk => ?_, fun k hk => hempty (hslots.home k hk)⟩
  obtain htag | hrec := hk
  · refine (vget_vtab _ k).trans ?_
    exact if_pos htag
  · exact hempty (hslots.owned k (.inr hrec))

theorem sequenced_pendHandover (k : Stand) (ho : Handover) {s : State} (hmade : HandoverMade s k ho) (h : Sequenced s) :
    Sequenced (pendHandover k ho s) := by
  have hprior : ho.PriorFits := by
    cases hmade with
    | toLocal n hcan =>
      unfold canGoLocal at hcan
      unfold Handover.PriorFits
      cases hst : (s.seq k).state <;> simp [hst] at hcan ⊢
    | toCoord n hstate => rfl
  constructor
  · refine h.1.change (k := k) (by simp [pendHandover]) (pendHandover_seq k ho s) fun hk => ?_
    obtain ⟨hstate, hfrozen, hho, hequalize, -⟩ := evalDemand_record_keeps
      (({ s.seq k with handover := some ho } : SeqRecord).enter .handover) s.millStopExists (s.tNo k)
    have hdemand := evalDemand_demand (({ s.seq k with handover := some ho } : SeqRecord).enter .handover) s.millStopExists (s.tNo k)
    refine ⟨⟨⟨fun _ => ?_, fun _ => hstate⟩, ⟨fun _ => hstate, fun _ => rfl⟩, fun o hh => ?_, fun hne => ?_, ?_⟩, ?_, ?_⟩
    · show _ ≠ none
      rw [show _ = some ho from hho]
      simp
    · cases (hho.symm.trans hh : some ho = some o)
      exact hprior
    · exact absurd hequalize hne
    · exact single_evalDemand _ _ hk.core.single
    · exact hdemand.trans (by rw [show _ = StandState.handover from hstate]; rfl)
    · exact hfrozen.trans hk.frozen
  · have hnone : vget (emptySlot k (s.modSeq k fun q => { q with handover := some ho })).flc.slots k = none := by
      show vget (vset s.flc.slots k none) k = none
      rw [vget_vset, if_pos rfl]
    have hempty : SlotsFit (emptySlot k (s.modSeq k fun q => { q with handover := some ho })) :=
      slotsFit_emptySlot k (slotsFit_change (s := s) (k := k) rfl rfl (fun j => modSeq_seq s k j _) (fun hq => .inl hq) h.2)
    have hpend := slotsFit_setStandState k .handover (fun _ => .inr hnone) hempty
    exact slotsFit_change (s := setStandState k .handover (emptySlot k (s.modSeq k fun q => { q with handover := some ho })))
      (k := k) rfl rfl (fun j => modSeq_seq _ k j _) (fun hq => .inl hq) hpend

theorem slotsFit_restored (k : Stand) {s : State} (h : SlotsFit s) : SlotsFit (restored k s) := by
  obtain ⟨-, hsch, -, hflc, -⟩ := restored_keeps k s
  refine slotsFit_of hflc (by rw [hsch]) (by rw [hsch]) (fun j hj => ?_) h
  have hrestored := restored_seq k j s
  split at hrestored
  next =>
    rw [show ((restored k s).seq j).state = _ from congrArg (·.1) hrestored] at hj
    cases hset : s.inSet k <;> simp [hset] at hj <;> exact nomatch hj
  next => exact .inl (by rwa [show ((restored k s).seq j).state = _ from congrArg (·.1) hrestored] at hj)

theorem sequenced_restored (k : Stand) {s : State} (hok : restoreOutcome k s = .ok) (h : Sequenced s) :
    Sequenced (restored k s) := by
  refine ⟨?_, slotsFit_restored k h.2⟩
  obtain ⟨hstate, -⟩ := restoreOutcome_ok hok
  have hcovers := covers_congr (s := s) (t := restored k s) (by rw [(restored_keeps k s).2.2.2.2.1])
  intro j
  rw [hcovers.1, hcovers.2]
  by_cases hjk : j = k
  · subst hjk
    have hj := h.1 j
    obtain ⟨hho, hreq⟩ := hj.core.no_handover (by rw [hstate]; decide)
    have hfits (st : StandState) (hst : st ≠ .handover) :
        SeqFits s.millStopExists (s.freezeCover j)
          (({ s.seq j with fastOpen := false, nonOverlap := none } : SeqRecord).enter st |>.evalDemand s.millStopExists (s.tNo j)) :=
      seqFits_evalDemand _ (seqCore_enter (q := { s.seq j with fastOpen := false, nonOverlap := none }) hho hreq hst
        (fun hboth => nomatch hboth.1)) hj.frozen
    unfold restored
    dsimp only
    split
    · rw [modSeq_seq_self, setStandState_seq, if_pos rfl, modSeq_seq_self]
      obtain ⟨⟨hpending, hlamp, hprior, -, hsingle⟩, hdemand, hfrozen⟩ := hfits .setup (by decide)
      exact ⟨⟨hpending, hlamp, hprior, fun _ => .inl (evalDemand_record_keeps _ _ _).1, hsingle⟩, hdemand, hfrozen⟩
    · rw [setStandState_seq, if_pos rfl, modSeq_seq_self]
      exact hfits .out (by decide)
  · have hsame : (restored k s).seq j = s.seq j := by
      unfold restored
      dsimp only
      split
      · rw [modSeq_seq, if_neg hjk, setStandState_seq, if_neg hjk, modSeq_seq, if_neg hjk]
      · rw [setStandState_seq, if_neg hjk, modSeq_seq, if_neg hjk]
    rw [hsame]
    exact h.1 j

theorem sequenced_resetHandover (k : Stand) {s : State} (h : Sequenced s) : Sequenced (resetHandover k s) := by
  unfold resetHandover
  split
  next ho hh => exact sequenced_notice _ (sequenced_leave k _ (.unconfirmed ho (s.openCover k) hh) h)
  next => exact h

theorem sequenced_placeAtReset (k : Stand) {s : State} (h : Sequenced s) : Sequenced (placeAtReset k s) := by
  have hplace : (placement (s.inSet k) (s.openCover k)).away = false := by
    cases s.inSet k <;> cases s.openCover k <;> decide
  unfold placeAtReset
  split
  case h_4 hlocal htripped hhandover =>
    unfold placeIfChanged
    split
    · exact h
    · exact sequenced_enterState k _ (by simpa using hhandover) hplace h
  all_goals exact h

theorem sequenced_evalDemand (k : Stand) {s : State} (h : Sequenced s) : Sequenced (evalDemand k s) :=
  ⟨h.1.change (k := k) (by simp) (fun j => evalDemand_seq k j s) fun hk => seqFits_evalDemand _ hk.core hk.frozen,
    slotsFit_change (by simp) (by simp) (fun j => evalDemand_seq k j s)
      (fun hq => .inl (by rwa [(evalDemand_record_keeps _ _ _).1] at hq)) h.2⟩

theorem sequenced_resetStands {s : State} (h : Sequenced s) : Sequenced (resetStands s) := by
  have hhandover := eachStand_inv Sequenced resetHandover (fun k _ ht => sequenced_resetHandover k ht) s h
  have hplace := eachStand_inv Sequenced placeAtReset (fun k _ ht => sequenced_placeAtReset k ht) _ hhandover
  have hdemand := eachStand_inv Sequenced evalDemand (fun k _ ht => sequenced_evalDemand k ht) _ hplace
  exact sequenced_evalScopes (eachStand_inv Sequenced standNotice (fun k _ ht => sequenced_notice _ ht) _ hdemand)

theorem sequenced_reset {s : State} (h : Sequenced s) :
    Sequenced (resetTracker (resetStands (resetCounters (resetGaps (resetLengths (resetSlots (resetReports s))))))) := by
  have hslots : Sequenced (resetSlots (resetReports s)) :=
    ⟨h.1.congr (t := resetSlots (resetReports s)) rfl rfl, fun _ k => vget_replicate _ k, fun k _ => vget_replicate _ k,
      fun k _ => vget_replicate _ k⟩
  have hstart : Sequenced (resetCounters (resetGaps (resetLengths (resetSlots (resetReports s))))) :=
    sequenced_congr (s := resetSlots (resetReports s)) rfl rfl rfl rfl hslots
  have hstands := sequenced_resetStands hstart
  exact sequenced_setMill _ (sequenced_congr (s := resetStands _) rfl rfl rfl rfl hstands)

theorem sequenced_modSeq (k : Stand) (f : SeqRecord → SeqRecord) {s : State} (hstate : (f (s.seq k)).state = (s.seq k).state)
    (hf : SeqFits s.millStopExists (s.freezeCover k) (s.seq k) → SeqFits s.millStopExists (s.freezeCover k) (f (s.seq k)))
    (h : Sequenced s) : Sequenced (s.modSeq k f) :=
  ⟨h.1.change (s := s) (t := s.modSeq k f) (k := k) rfl (fun j => modSeq_seq s k j f) hf,
    slotsFit_change (s := s) (t := s.modSeq k f) (k := k) rfl rfl (fun j => modSeq_seq s k j f)
      (fun hq => .inl (by rwa [hstate] at hq)) h.2⟩

theorem untracked_sequenced : Untracked fun _ s => Sequenced s where
  scopes h := sequenced_evalScopes h
  gap _ _ _ _ _ h := by refine sequenced_congr ?_ ?_ ?_ ?_ h <;> rfl
  gaps _ _ _ _ h := by refine sequenced_congr ?_ ?_ ?_ ?_ h <;> rfl
  inputs _ _ _ _ h := by refine sequenced_congr ?_ ?_ ?_ ?_ h <;> rfl
  settle _ _ _ _ h := by refine sequenced_congr ?_ ?_ ?_ ?_ h <;> rfl
  host _ _ _ h := by refine sequenced_congr ?_ ?_ ?_ ?_ h <;> rfl
  chan _ _ _ _ h := by refine sequenced_congr ?_ ?_ ?_ ?_ h <;> rfl
  spend h := by refine sequenced_congr ?_ ?_ ?_ ?_ h <;> rfl
  countForce _ _ _ _ h := by refine sequenced_congr ?_ ?_ ?_ ?_ h <;> rfl
  countGap _ _ _ _ h := by refine sequenced_congr ?_ ?_ ?_ ?_ h <;> rfl
  line _ _ _ _ h := ⟨h.1.congr rfl rfl, h.2.1, h.2.2, h.2.3⟩
  actions _ _ _ h := ⟨h.1.congr rfl rfl, h.2.1, h.2.2, h.2.3⟩
  pend _ _ _ _ h := ⟨h.1.congr rfl rfl, h.2.1, h.2.2, h.2.3⟩
  count {_ s} h := by
    have hseq (k : Stand) : (countDown s).seq k = (s.seq k).countDown := vget_vtab _ k
    refine ⟨fun k => ?_, slotsFit_of (s := s) (t := countDown s) rfl rfl rfl (fun k hk => .inl ?_) h.2⟩
    · rw [hseq]
      exact seqFits_countDown (h.1 k)
    · rwa [hseq] at hk
  configure body _ _ h := sequenced_configure body h
  mark key st _ _ _ h := sequenced_modRecord key (fun r => { r with state := st }) (fun _ => ⟨rfl, rfl⟩) h
  reraise key _ _ _ h :=
    sequenced_modRecord key (fun r => { r with state := .raised, occ := satSucc 255 r.occ }) (fun _ => ⟨rfl, rfl⟩) h
  create inTracker key _ _ h := sequenced_createRecord inTracker key h
  remove r _ _ h := sequenced_removeRecord r h
  empty _ h := sequenced_millEmpty h
  mill _ h := sequenced_setMill _ h
  ready k s hstate h := sequenced_setStandState k .ready (by rw [hstate]; decide) rfl h
  roll k s hstate h := sequenced_setStandState k .roll (by rw [hstate]; decide) rfl h
  thread k s _ hstate _ h := sequenced_threaded k hstate h
  tail k s hstate h := by
    refine sequenced_setStandState k .tail (fun e => ?_) rfl h
    rw [e] at hstate
    contradiction
  send k mode ref s hrecord hstate h :=
    ⟨h.1.congr (by simp) (by simp), slotsFit_produce k mode ref hrecord hstate h.2⟩
  emptySlot k _ s h := ⟨h.1.congr (t := emptySlot k s) rfl rfl, slotsFit_emptySlot k h.2⟩
  next {s} _ h := ⟨h.1.congr (by simp) (by simp), slotsFit_nextSetpoint h.2⟩
  leave k st s hend h := sequenced_leave k st hend h
  pendHandover k ho s hmade h := sequenced_pendHandover k ho hmade h
  restore k s hok h := sequenced_restored k hok h
  overlap k b s hdue h := sequenced_modSeq k _ rfl (fun hk => ⟨⟨hk.core.pending, hk.core.lamp, hk.core.prior, hk.core.equalize,
    fun hboth => hboth.2 rfl⟩, by rw [← hk.demand, hdue]; simp, hk.frozen⟩) h
  equalized k b s h := sequenced_modSeq k _ rfl (fun hk => ⟨⟨hk.core.pending, hk.core.lamp, hk.core.prior,
    fun hne => absurd rfl hne, hk.core.single⟩, hk.demand, hk.frozen⟩) h
  swap _ h := sequenced_swapBank h
  reset _ h := sequenced_reset h
  tracker _ _ _ _ h := by refine sequenced_congr ?_ ?_ ?_ ?_ h <;> rfl
  idle _ h := sequenced_setMill _ h
  strip _ _ _ _ h := by refine sequenced_congr ?_ ?_ ?_ ?_ h <;> rfl
  absent _ _ h := by refine sequenced_congr ?_ ?_ ?_ ?_ h <;> rfl

theorem slotsFit_of_empty {s : State} (h : ∀ k, vget s.flc.slots k = none) : SlotsFit s :=
  ⟨fun _ => h, fun k _ => h k, fun k _ => h k⟩

/-- Without a trip record every stand OUT fits, FAST_OPEN negated. -/
theorem seqFits_cleared : SeqFits false false SeqRecord.cleared := by
  refine ⟨⟨?_, ?_, (fun _ hh => nomatch hh), fun hne => absurd rfl hne, fun hboth => nomatch hboth.1⟩, rfl, rfl⟩ <;>
    simp [SeqRecord.cleared]

theorem sequenced_reset_state : Sequenced State.reset := by
  refine ⟨fun k => ?_, slotsFit_of_empty fun k => vget_replicate _ k⟩
  have hstop : State.reset.millStopExists = true := rfl
  have hfreeze : State.reset.freezeCover k = false := rfl
  rw [hstop, hfreeze, reset_seq]
  refine ⟨⟨?_, ?_, (fun _ hh => nomatch hh), fun hne => absurd rfl hne, fun hboth => hboth.2 rfl⟩, rfl, rfl⟩ <;>
    simp [SeqRecord.cleared]

/-- Settles O56: the records of the sequencer fit the trip table and the slots the records and the line, upheld by every
change; each change of a state is followed by the evaluation of FAST_OPEN's demand, each change of the table by both
evaluations. -/
theorem stepKeepsSequencer : Obligations.StepKeepsSequencer := by
  intro s t hseq hslots hstep
  rw [← sequenced_iff]
  refine step_keeps (P := Sequenced) (fun _ _ h => ?_) (fun r s _ => ?_) (fun straps s => ?_)
    (fun _ m h => untracked_sequenced.tracked.after_move m h) ((sequenced_iff s).mpr ⟨hseq, hslots⟩) hstep
  · refine sequenced_congr ?_ ?_ ?_ ?_ h <;> rfl
  · refine ⟨fun k => ?_, slotsFit_of_empty fun k => vget_replicate _ k⟩
    rw [show (holdReset r s).seq k = SeqRecord.cleared from vget_replicate _ k]
    exact seqFits_cleared
  · rw [release_eq]
    exact sequenced_congr (s := State.reset) rfl rfl rfl rfl sequenced_reset_state

end Sys2Proof.Machine
end

section
/-! PROOFS. What the tracker holds: the count of its records under a change of one bite or span, and a record on its way between
two places (R60 to R64, R73). -/

namespace Sys2Proof.Machine

/-! ## What an event inside the tracker leaves to it -/

/-- A creation inside a tracker event leaves the test for mill empty to the event's end (log 12). -/
theorem createRecord_inTracker (key : Key) (s : State) :
    (createRecord true key s).stk = s.stk ∧ (createRecord true key s).sch = s.sch ∧ (createRecord true key s).plu = s.plu := by
  simp [createRecord]

theorem raiseKey_inTracker (key : Key) (s : State) :
    (raiseKey true key s).stk = s.stk ∧ (raiseKey true key s).sch = s.sch ∧ (raiseKey true key s).plu = s.plu := by
  unfold raiseKey
  split
  · exact createRecord_inTracker key s
  · split <;> simp

theorem takeExitStale_inTracker (fresh : Bool) (s : State) :
    (takeExitStale fresh s).stk = s.stk ∧ (takeExitStale fresh s).sch = s.sch ∧ (takeExitStale fresh s).plu = s.plu := by
  unfold takeExitStale
  split
  · simp
  · split
    · exact raiseKey_inTracker .exitStale s
    · simp

theorem takeCount_inTracker (key : Key) (beyond : Bool) (s : State) :
    (takeCount key beyond s).stk = s.stk ∧ (takeCount key beyond s).sch = s.sch ∧ (takeCount key beyond s).plu = s.plu := by
  unfold takeCount
  split
  · split
    · exact raiseKey_inTracker key s
    · simp
  · simp

theorem handCount_inTracker (k : Stand) (n : Nat) (s : State) :
    (handCount k n s).stk = s.stk ∧ (handCount k n s).sch = s.sch ∧ (handCount k n s).plu = s.plu := by
  unfold handCount
  split
  · simp [takeCount_inTracker]
  · simp

/-- The counts handed to the trip matrix move no record (R63). -/
theorem handCounts_inTracker (before s : State) :
    (handCounts before s).stk = s.stk ∧ (handCounts before s).sch = s.sch ∧ (handCounts before s).plu = s.plu := by
  have hview := foldl_keeps (fun t : State => (t.stk, t.sch, t.plu))
    (fun t k => handCount k (s.span (spanInto k)).length t)
    (fun t k => by simp [handCount_inTracker]) (s.downstream.filter fun k => spanTouched before s k) s
  exact ⟨congrArg (·.1) hview, congrArg (·.2.1) hview, congrArg (·.2.2) hview⟩

/-! ## The count of the records held -/

/-- The records held in the bite of a stand and in the span of its number. -/
def Tracker.heldAt (t : Tracker) (k : Stand) : Nat := (vget t.bites k).isSome.toNat + (vget t.spans k).length

theorem length_filter_eq_sum {α : Type} (p : α → Bool) (l : List α) : (l.filter p).length = (l.map fun x => (p x).toNat).sum := by
  induction l with
  | nil => rfl
  | cons x l ih => cases hx : p x <;> simp [hx, ih, Nat.add_comm]

theorem sum_map_add {α : Type} (f g : α → Nat) (l : List α) : (l.map fun x => f x + g x).sum = (l.map f).sum + (l.map g).sum := by
  induction l with
  | nil => rfl
  | cons x l ih =>
    simp only [List.map_cons, List.sum_cons, ih]
    omega

theorem heldCount_eq_sum (t : Tracker) : t.heldCount = (allStands.map t.heldAt).sum := by
  unfold Tracker.heldCount Tracker.heldAt
  rw [length_filter_eq_sum, sum_map_add]

theorem sum_map_change {α : Type} {f g : α → Nat} {k : α} (h : ∀ j, j ≠ k → g j = f j) {l : List α} (hnodup : l.Nodup)
    (hk : k ∈ l) : (l.map g).sum + f k = (l.map f).sum + g k := by
  induction l with
  | nil => exact absurd hk List.not_mem_nil
  | cons x l ih =>
    obtain ⟨hx, hl⟩ := List.nodup_cons.mp hnodup
    simp only [List.map_cons, List.sum_cons]
    obtain rfl | hk := List.mem_cons.mp hk
    · have hsame : l.map g = l.map f := List.map_congr_left fun j hj => h j fun e => hx (e ▸ hj)
      rw [hsame]
      omega
    · have hl := ih hl hk
      have hxk : g x = f x := h x fun e => hx (e ▸ hk)
      omega

/-- A change of the records held at one number changes the count by that difference. -/
theorem heldCount_change {t u : Tracker} (k : Stand) (h : ∀ j, j ≠ k → u.heldAt j = t.heldAt j) :
    u.heldCount + t.heldAt k = t.heldCount + u.heldAt k := by
  rw [heldCount_eq_sum, heldCount_eq_sum]
  exact sum_map_change h allStands_nodup (mem_allStands k)

theorem heldCount_congr {t u : Tracker} (hbites : u.bites = t.bites) (hspans : u.spans = t.spans) : u.heldCount = t.heldCount := by
  unfold Tracker.heldCount
  rw [hbites, hspans]

theorem heldCount_setBite (t : Tracker) (k : Stand) (b : Option Segment) :
    ({ t with bites := vset t.bites k b } : Tracker).heldCount + (vget t.bites k).isSome.toNat = t.heldCount + b.isSome.toNat := by
  have h := heldCount_change (t := t) (u := { t with bites := vset t.bites k b }) k fun j hj => by
    simp [Tracker.heldAt, vget_vset, hj]
  simp only [Tracker.heldAt, vget_vset_self] at h
  omega

theorem heldCount_setSpan (t : Tracker) (j : SpanId) (l : List Segment) :
    ({ t with spans := vset t.spans j l } : Tracker).heldCount + (vget t.spans j).length = t.heldCount + l.length := by
  have h := heldCount_change (t := t) (u := { t with spans := vset t.spans j l }) j fun i hi => by
    simp [Tracker.heldAt, vget_vset, hi]
  simp only [Tracker.heldAt, vget_vset_self] at h
  omega

theorem heldCount_eq_zero (t : Tracker) : t.heldCount = 0 ↔ ∀ k, vget t.bites k = none ∧ vget t.spans k = [] := by
  rw [heldCount_eq_sum, List.sum_eq_zero_iff]
  constructor
  · intro h k
    have hk := h (t.heldAt k) (List.mem_map.mpr ⟨k, mem_allStands k, rfl⟩)
    unfold Tracker.heldAt at hk
    cases hb : vget t.bites k <;> simp_all
  · intro h n hn
    obtain ⟨k, -, rfl⟩ := List.mem_map.mp hn
    obtain ⟨hb, hs⟩ := h k
    simp [Tracker.heldAt, hb, hs]

theorem noSegments_iff (t : Tracker) : t.noSegments = true ↔ t.heldCount = 0 := by
  rw [heldCount_eq_zero]
  unfold Tracker.noSegments
  rw [Bool.and_eq_true, List.all_eq_true, List.all_eq_true]
  constructor
  · intro ⟨hb, hs⟩ k
    exact ⟨by simpa using hb k (mem_allStands k), by simpa using hs k (mem_allStands k)⟩
  · intro h
    exact ⟨fun k _ => by simp [h k], fun k _ => by simp [h k]⟩

/-! ## The balance with records on their way -/

/-- The coil counters with `n` records on their way between two places (R60, R61). -/
structure Tracker.Balanced (n : Nat) (t : Tracker) : Prop where
  sum : t.allocated < 65535 → t.allocated = t.heldCount + n + t.retired
  allocated : t.allocated ≤ 65535
  retired : t.retired ≤ 65535

theorem Tracker.Balanced.congr {n : Nat} {t u : Tracker} (ha : u.allocated = t.allocated) (hr : u.retired = t.retired)
    (hheld : u.heldCount = t.heldCount) (h : t.Balanced n) : u.Balanced n := by
  obtain ⟨hsum, halloc, hret⟩ := h
  exact ⟨by rwa [ha, hheld, hr], by rwa [ha], by rwa [hr]⟩

/-- A record taken out of, or put into, the places. -/
theorem Tracker.Balanced.moved {m n : Nat} {t u : Tracker} (ha : u.allocated = t.allocated) (hr : u.retired = t.retired)
    (hheld : u.heldCount + n = t.heldCount + m) (h : t.Balanced m) : u.Balanced n := by
  obtain ⟨hsum, halloc, hret⟩ := h
  refine ⟨fun hlt => ?_, by rwa [ha], by rwa [hr]⟩
  rw [ha] at hlt
  rw [ha, hr, hheld]
  exact hsum hlt

/-- A coil under way, with `n` records on their way between two places, and those in bites at stands with strip. -/
structure Moving (strip : Stand → Bool) (n : Nat) (s : State) : Prop where
  balanced : s.stk.Balanced n
  running : s.stk.mill.running = true
  placed (k : Stand) : vget s.stk.bites k ≠ none → s.inSet k = true ∧ strip k = true
  unsettled : s.plu.settled = false → (∀ k, s.stripPresent k = false) ∧ ∀ i, (s.filter i).due = false

theorem running_eq_false_iff (m : MillState) : m.running = false ↔ m = .idle ∨ m = .armed := by cases m <;> decide

theorem balanceOk_iff (s : State) :
    BalanceOk s ↔ s.stk.Balanced 0 ∧ (s.stk.mill.running = false → s.stk.heldCount = 0) ∧
      (∀ k, vget s.stk.bites k ≠ none → s.inSet k = true ∧ s.stripPresent k = true) ∧
      (s.plu.settled = false → (∀ k, s.stripPresent k = false) ∧ ∀ i, (s.filter i).due = false) := by
  rw [running_eq_false_iff]
  constructor
  · intro ⟨hsum, halloc, hret, hidle, hplaced, hfresh⟩
    exact ⟨⟨hsum, halloc, hret⟩, hidle, hplaced, hfresh⟩
  · intro ⟨⟨hsum, halloc, hret⟩, hidle, hplaced, hfresh⟩
    exact ⟨hsum, halloc, hret, hidle, hplaced, hfresh⟩

theorem Moving.balanceOk {strip : Stand → Bool} {s : State} (h : Moving strip 0 s)
    (hstrip : ∀ k, vget s.stk.bites k ≠ none → strip k = true → s.stripPresent k = true) : BalanceOk s :=
  (balanceOk_iff s).mpr ⟨h.balanced, (fun hr => nomatch hr.symm.trans h.running),
    fun k hk => ⟨(h.placed k hk).1, hstrip k hk (h.placed k hk).2⟩, h.unsettled⟩

theorem BalanceOk.moving {s : State} (h : BalanceOk s) (hrunning : s.stk.mill.running = true) : Moving s.stripPresent 0 s := by
  obtain ⟨hbalanced, -, hplaced, hfresh⟩ := (balanceOk_iff s).mp h
  exact ⟨hbalanced, hrunning, hplaced, hfresh⟩

variable {strip : Stand → Bool}

/-- A change of the tracker that leaves a coil under way. -/
theorem Moving.change {m n : Nat} {s t : State} (hsch : t.sch = s.sch) (hplu : t.plu = s.plu)
    (hmill : t.stk.mill.running = s.stk.mill.running) (hbalanced : s.stk.Balanced m → t.stk.Balanced n)
    (hbites : ∀ k, vget t.stk.bites k ≠ none → vget s.stk.bites k ≠ none ∨ s.inSet k = true ∧ strip k = true)
    (h : Moving strip m s) : Moving strip n t := by
  have hset (k : Stand) : t.inSet k = s.inSet k := by simp [State.inSet, State.activeSet, State.millRec, hsch]
  have hstrip (k : Stand) : t.stripPresent k = s.stripPresent k := by rw [State.stripPresent, State.presence, hplu]; rfl
  have hfilter (i : FilterId) : t.filter i = s.filter i := by cases i <;> simp [State.filter, hplu]
  refine ⟨hbalanced h.balanced, hmill.trans h.running, fun k hk => ?_, fun hs => ?_⟩
  · rw [hset]
    exact (hbites k hk).elim (h.placed k) id
  · rw [hplu] at hs
    simp only [hstrip, hfilter]
    exact h.unsettled hs

theorem Moving.congr {n : Nat} {s t : State} (hsch : t.sch = s.sch) (hplu : t.plu = s.plu) (hmill : t.stk.mill = s.stk.mill)
    (hbites : t.stk.bites = s.stk.bites) (hspans : t.stk.spans = s.stk.spans) (ha : t.stk.allocated = s.stk.allocated)
    (hr : t.stk.retired = s.stk.retired) (h : Moving strip n s) : Moving strip n t :=
  h.change hsch hplu (by rw [hmill]) (fun hb => hb.congr ha hr (heldCount_congr hbites hspans)) fun k hk => .inl (by rwa [← hbites])

/-- A retirement takes a record on its way (R60, R64). -/
theorem moving_retire (g : Segment) {n : Nat} {s : State} (h : Moving strip (n + 1) s) : Moving strip n (retire g s) := by
  refine h.change (by simp) (by simp) (by simp) (fun hb => ?_) fun k hk => .inl (by simpa using hk)
  obtain ⟨hsum, halloc, hret⟩ := hb
  have hcount : (retire g s).stk.retired = satSucc 65535 s.stk.retired := by simp [retire]
  have hheld : (retire g s).stk.heldCount = s.stk.heldCount := heldCount_congr (by simp) (by simp)
  have halloc' : (retire g s).stk.allocated = s.stk.allocated := by simp
  rw [satSucc_eq _ _ hret] at hcount
  exact ⟨fun hlt => by omega, by omega, by omega⟩

theorem moving_setSpan (j : SpanId) (l : List Segment) {m n : Nat} {s : State} (hlen : l.length + n = (s.span j).length + m)
    (h : Moving strip m s) : Moving strip n (s.setSpan j l) := by
  refine Moving.change (s := s) rfl rfl rfl (Tracker.Balanced.moved (t := s.stk) rfl rfl ?_) (fun k hk => .inl hk) h
  have hheld : (s.setSpan j l).stk.heldCount + (s.span j).length = s.stk.heldCount + l.length := heldCount_setSpan s.stk j l
  omega

theorem moving_biteOut (k : Stand) {g : Segment} {n : Nat} {s : State} (hbite : vget s.stk.bites k = some g) (h : Moving strip n s) :
    Moving strip (n + 1) (s.setBite k none) := by
  have hheld := heldCount_setBite s.stk k none
  rw [hbite] at hheld
  refine Moving.change (s := s) rfl rfl rfl (Tracker.Balanced.moved (t := s.stk) rfl rfl ?_) (fun j hj => .inl ?_) h
  · have hheld : (s.setBite k none).stk.heldCount + 1 = s.stk.heldCount + 0 := hheld
    omega
  · rw [setBite_bites] at hj
    split at hj
    · exact absurd rfl hj
    · exact hj

theorem moving_biteIn (k : Stand) (g : Segment) {n : Nat} {s : State} (hbite : vget s.stk.bites k = none)
    (hset : s.inSet k = true) (hstrip : strip k = true) (h : Moving strip (n + 1) s) : Moving strip n (s.setBite k (some g)) := by
  have hheld : (s.setBite k (some g)).stk.heldCount + _ = s.stk.heldCount + 1 := heldCount_setBite s.stk k (some g)
  rw [hbite] at hheld
  refine Moving.change (s := s) rfl rfl rfl (Tracker.Balanced.moved (t := s.stk) rfl rfl ?_) (fun j hj => ?_) h
  · simp only [Option.isSome_none, Bool.toNat_false] at hheld
    omega
  · rw [setBite_bites] at hj
    split at hj
    next hjk => exact .inr (by rw [hjk]; exact ⟨hset, hstrip⟩)
    next => exact .inl hj

theorem moving_allocate (k : Stand) {n : Nat} {s : State} (hbite : vget s.stk.bites k = none) (hset : s.inSet k = true)
    (hstrip : strip k = true) (h : Moving strip n s) : Moving strip n (allocate k s) := by
  refine h.change (by simp) (by simp) (by simp) (fun hb => ?_) fun j hj => ?_
  · obtain ⟨hsum, halloc, hret⟩ := hb
    have hcount : (allocate k s).stk.allocated = satSucc 65535 s.stk.allocated := rfl
    have hret' : (allocate k s).stk.retired = s.stk.retired := rfl
    obtain ⟨g, hg⟩ : ∃ g, (allocate k s).stk.bites = vset s.stk.bites k (some g) := ⟨_, rfl⟩
    have hheld := heldCount_setBite s.stk k (some g)
    have hsame : (allocate k s).stk.heldCount = ({ s.stk with bites := vset s.stk.bites k (some g) } : Tracker).heldCount :=
      heldCount_congr hg rfl
    rw [hbite, ← hsame] at hheld
    simp only [Option.isSome_none, Option.isSome_some, Bool.toNat_false, Bool.toNat_true] at hheld
    rw [satSucc_eq _ _ halloc] at hcount
    exact ⟨fun hlt => by omega, by omega, by omega⟩
  · obtain ⟨g, hg⟩ : ∃ g, (allocate k s).stk.bites = vset s.stk.bites k (some g) := ⟨_, rfl⟩
    rw [hg, vget_vset] at hj
    split at hj
    next hjk => exact .inr (by rw [hjk]; exact ⟨hset, hstrip⟩)
    next => exact .inl hj

end Sys2Proof.Machine
end

section
/-! PROOFS. The balance of the coil counters at every event (R60, R61, R79), and O58. -/

namespace Sys2Proof.Machine

/-! ## Movements of records -/

variable {strip : Stand → Bool}

theorem moving_offerMonitor (meas : Option Nat) {n : Nat} {s : State} (h : Moving strip n s) : Moving strip n (offerMonitor meas s) :=
  h.congr (by simp) (by simp) (by simp) (by simp) (by simp) (by simp) (by simp)

theorem moving_takeExitStale (fresh : Bool) {n : Nat} {s : State} (h : Moving strip n s) : Moving strip n (takeExitStale fresh s) := by
  obtain ⟨hstk, hsch, hplu⟩ := takeExitStale_inTracker fresh s
  exact h.congr hsch hplu (by rw [hstk]) (by rw [hstk]) (by rw [hstk]) (by rw [hstk]) (by rw [hstk])

theorem moving_popExit {n : Nat} {s : State} (h : Moving strip n s) : Moving strip n (popExit s) := by
  unfold popExit
  split
  next g rest hspan =>
    exact moving_retire _ (moving_offerMonitor _ (moving_takeExitStale _ (moving_setSpan exitSpan rest (by simp [hspan]; omega) h)))
  next => exact h

theorem moving_pushSpan (j : SpanId) (g : Segment) {n : Nat} {s : State} (h : Moving strip (n + 1) s) : Moving strip n (pushSpan j g s) := by
  have hroom : Moving strip (n + 1) (if Config.spanPlaces ≤ (s.span j).length then
      match s.span j with
      | old :: rest => retire old.asLost (s.setSpan j rest)
      | [] => s
    else s) := by
    split
    · split
      next old rest hspan => exact moving_retire _ (moving_setSpan j rest (by simp [hspan]; omega) h)
      next => exact h
    · exact h
  exact moving_setSpan j _ (by simp; omega) hroom

theorem moving_pushOut (k : Stand) (g : Segment) {n : Nat} {s : State} (h : Moving strip (n + 1) s) : Moving strip n (pushOut k g s) := by
  unfold pushOut
  split
  · split
    · exact moving_retire _ h
    · exact moving_pushSpan _ g h
  · dsimp only
    split
    · exact moving_popExit (moving_pushSpan _ g h)
    · exact moving_pushSpan _ g h

theorem moving_pushBite (k : Stand) {n : Nat} {s : State} (h : Moving strip n s) : Moving strip n (pushBite k s) := by
  unfold pushBite
  split
  next g hbite => exact moving_pushOut k _ (moving_biteOut k hbite h)
  next => exact h

theorem popExit_bites (s : State) : (popExit s).stk.bites = s.stk.bites := by
  unfold popExit
  split
  · simp [arrive, takeExitStale_inTracker, State.setSpan]
  · rfl

theorem pushOut_bites (k : Stand) (g : Segment) (s : State) : (pushOut k g s).stk.bites = s.stk.bites := by
  unfold pushOut
  split
  · split <;> simp
  · dsimp only
    split <;> simp [popExit_bites]

theorem popExit_sch (s : State) : (popExit s).sch = s.sch := by
  unfold popExit
  split
  · simp [arrive, takeExitStale_inTracker]
  · rfl

theorem pushBite_sch (k : Stand) (s : State) : (pushBite k s).sch = s.sch := by
  unfold pushBite
  split
  · unfold pushOut
    split
    · split <;> simp
    · dsimp only
      split <;> simp [popExit_sch]
  · rfl

theorem pushBite_inSet (k j : Stand) (s : State) : (pushBite k s).inSet j = s.inSet j := by
  simp [State.inSet, State.activeSet, State.millRec, pushBite_sch]

/-- A push leaves the bite empty (R73). -/
theorem pushBite_bite (k j : Stand) (s : State) :
    vget (pushBite k s).stk.bites j = if j = k then none else vget s.stk.bites j := by
  unfold pushBite
  split
  next => rw [pushOut_bites, setBite_bites]
  next hbite =>
    split
    next hjk => rw [hjk, hbite]
    next => rfl

theorem moving_takeIntoBite (k : Stand) {n : Nat} {s : State} (hbite : vget s.stk.bites k = none) (hset : s.inSet k = true)
    (hstrip : strip k = true) (h : Moving strip n s) : Moving strip n (takeIntoBite k s) := by
  unfold takeIntoBite
  split
  next g rest hspan =>
    exact moving_biteIn k g (s := s.setSpan (spanInto k) rest) hbite hset hstrip
      (moving_setSpan _ rest (by simp [hspan]; omega) h)
  next => exact h

theorem moving_refill (k : Stand) {n : Nat} {s : State} (hbite : vget s.stk.bites k = none) (hset : s.inSet k = true)
    (hstrip : strip k = true) (h : Moving strip n s) : Moving strip n (refill k s) := by
  unfold refill
  split
  · split
    · exact h
    · exact moving_allocate k hbite hset hstrip h
  · exact moving_takeIntoBite k hbite hset hstrip h

theorem moving_discardAll (l : List Segment) {n : Nat} {s : State} (h : Moving strip (n + l.length) s) :
    Moving strip n (l.foldl (fun t g => retire g.asDiscarded t) s) := by
  induction l generalizing s with
  | nil => exact h
  | cons g l ih => exact ih (moving_retire _ h)

theorem moving_discardSpan (j : SpanId) {n : Nat} {s : State} (h : Moving strip n s) : Moving strip n (discardSpan j s) :=
  moving_discardAll _ (moving_setSpan j [] (by simp; omega) h)

theorem moving_discardBite (k : Stand) {n : Nat} {s : State} (h : Moving strip n s) : Moving strip n (discardBite k s) := by
  unfold discardBite
  split
  next g hbite => exact moving_retire _ (moving_biteOut k hbite h)
  next => exact h

/-! ## Changes that move no record -/

/-- A change that leaves the records where they are, and the mill state too unless nothing is held. -/
theorem balanceOk_of {s t : State} (hbites : t.stk.bites = s.stk.bites) (hspans : t.stk.spans = s.stk.spans)
    (ha : t.stk.allocated = s.stk.allocated) (hr : t.stk.retired = s.stk.retired)
    (hmill : s.stk.heldCount = 0 ∨ t.stk.mill.running = s.stk.mill.running)
    (hset : s.stk.heldCount = 0 ∨ t.sch.active = s.sch.active)
    (hstrip : ∀ k, vget s.stk.bites k ≠ none → s.stripPresent k = true → t.stripPresent k = true)
    (hfresh : t.plu.settled = false → s.plu.settled = false ∧ (∀ k, t.stripPresent k = false) ∧ ∀ i, (t.filter i).due = false)
    (h : BalanceOk s) : BalanceOk t := by
  obtain ⟨hbalanced, hidle, hplaced, -⟩ := (balanceOk_iff s).mp h
  have hheld : t.stk.heldCount = s.stk.heldCount := heldCount_congr hbites hspans
  refine (balanceOk_iff t).mpr ⟨hbalanced.congr ha hr hheld, fun hm => ?_, fun k hk => ?_, fun hs => (hfresh hs).2⟩
  · rw [hheld]
    obtain h0 | e := hmill
    · exact h0
    · exact hidle (e ▸ hm)
  · rw [hbites] at hk
    obtain ⟨hkset, hkstrip⟩ := hplaced k hk
    refine ⟨?_, hstrip k hk hkstrip⟩
    obtain h0 | e := hset
    · exact absurd ((heldCount_eq_zero _).mp h0 k).1 hk
    · rw [← hkset]
      simp [State.inSet, State.activeSet, State.millRec, e]

/-- A change that leaves strip and inputs, and the mill state and the active bank too unless nothing is held. -/
theorem balanceOk_view {s t : State} (hbites : t.stk.bites = s.stk.bites) (hspans : t.stk.spans = s.stk.spans)
    (ha : t.stk.allocated = s.stk.allocated) (hr : t.stk.retired = s.stk.retired)
    (hmill : s.stk.heldCount = 0 ∨ t.stk.mill.running = s.stk.mill.running)
    (hset : s.stk.heldCount = 0 ∨ t.sch.active = s.sch.active) (hpres : t.plu.pres = s.plu.pres)
    (hsettled : t.plu.settled = s.plu.settled) (hdue : ∀ i, (t.filter i).due = true → (s.filter i).due = true)
    (h : BalanceOk s) : BalanceOk t := by
  have hstrip (k : Stand) : t.stripPresent k = s.stripPresent k := by rw [State.stripPresent, State.presence, hpres]; rfl
  refine balanceOk_of hbites hspans ha hr hmill hset (fun k _ hk => (hstrip k).trans hk) (fun hs => ?_) h
  obtain ⟨-, -, -, hfresh⟩ := (balanceOk_iff s).mp h
  rw [hsettled] at hs
  obtain ⟨hno, hidle⟩ := hfresh hs
  refine ⟨hs, fun k => (hstrip k).trans (hno k), fun i => ?_⟩
  cases hi : (t.filter i).due with
  | false => rfl
  | true => exact nomatch (hidle i).symm.trans (hdue i hi)

theorem filter_congr {s t : State} (hhmd : t.plu.hmd = s.plu.hmd) (hstop : t.plu.stop = s.plu.stop)
    (hpanel : t.plu.panel = s.plu.panel) (i : FilterId) : t.filter i = s.filter i := by
  cases i <;> simp [State.filter, hhmd, hstop, hpanel]

/-- A change outside the tracker, the active bank and the inputs. -/
theorem balanceOk_same {s t : State} (hstk : t.stk = s.stk) (hactive : t.sch.active = s.sch.active) (hplu : t.plu = s.plu)
    (h : BalanceOk s) : BalanceOk t :=
  balanceOk_view (by rw [hstk]) (by rw [hstk]) (by rw [hstk]) (by rw [hstk]) (.inr (by rw [hstk])) (.inr hactive) (by rw [hplu])
    (by rw [hplu]) (fun i hi => by rwa [filter_congr (s := s) (t := t) (by rw [hplu]) (by rw [hplu]) (by rw [hplu])] at hi) h

theorem balanceOk_setMill (m : MillState) {s : State} (hm : s.stk.heldCount = 0 ∨ m.running = s.stk.mill.running)
    (h : BalanceOk s) : BalanceOk (setMill m s) :=
  balanceOk_view (by simp) (by simp) (by simp) (by simp) (hm.imp_right fun e => by rw [setMill_mill, e])
    (.inr (by simp)) (by simp) (by simp)
    (fun i hi => by rwa [filter_congr (s := s) (t := setMill m s) (by simp) (by simp) (by simp)] at hi) h

theorem balanceOk_evalScopes {s : State} (h : BalanceOk s) : BalanceOk (evalScopes s) :=
  balanceOk_same (by simp) (by simp) (by simp) h

theorem balanceOk_tripNotice (key : Key) {s : State} (h : BalanceOk s) : BalanceOk (tripNotice key s) :=
  balanceOk_same (by simp) (by simp) (by simp) h

/-- With nothing held a change of the bank is a change of nothing that the balance reads. -/
theorem balanceOk_empty {s t : State} (hheld : s.stk.heldCount = 0) (hbites : t.stk.bites = s.stk.bites)
    (hspans : t.stk.spans = s.stk.spans) (ha : t.stk.allocated = s.stk.allocated) (hr : t.stk.retired = s.stk.retired)
    (hpres : t.plu.pres = s.plu.pres) (hsettled : t.plu.settled = s.plu.settled) (hhmd : t.plu.hmd = s.plu.hmd)
    (hstop : t.plu.stop = s.plu.stop) (hpanel : t.plu.panel = s.plu.panel) (h : BalanceOk s) : BalanceOk t :=
  balanceOk_view hbites hspans ha hr (.inl hheld) (.inl hheld) hpres hsettled
    (fun i hi => by rwa [filter_congr hhmd hstop hpanel] at hi) h

theorem balanceOk_millEmpty {s : State} (hempty : s.millIsEmpty = true) (h : BalanceOk s) : BalanceOk (millEmpty s) := by
  unfold State.millIsEmpty at hempty
  rw [Bool.and_eq_true, Bool.and_eq_true, noSegments_iff] at hempty
  exact balanceOk_empty hempty.1.2 (by simp) (by simp) (by simp) (by simp) (by simp) (by simp) (by simp) (by simp) (by simp) h

theorem balanceOk_swapBank {s : State} (hmill : s.stk.mill = .idle) (h : BalanceOk s) : BalanceOk (swapBank s) := by
  obtain ⟨-, hidle, -⟩ := (balanceOk_iff s).mp h
  exact balanceOk_empty (hidle (by rw [hmill]; rfl)) (by simp) (by simp) (by simp) (by simp) (by simp) (by simp) (by simp)
    (by simp) (by simp) h

theorem balanceOk_createRecord (inTracker : Bool) (key : Key) {s : State} (h : BalanceOk s) :
    BalanceOk (createRecord inTracker key s) := by
  have hhand : BalanceOk (handCreation (newRecord key s) (s.withTmx { s.tmx with table := s.tmx.table ++ [newRecord key s] })) :=
    balanceOk_same (by simp) (by simp) (by simp) h
  unfold createRecord
  refine balanceOk_evalScopes (balanceOk_tripNotice key ?_)
  split
  · obtain ⟨hempty, e⟩ | ⟨-, e⟩ := millEmptyTest_cases
      (handCreation (newRecord key s) (s.withTmx { s.tmx with table := s.tmx.table ++ [newRecord key s] })) <;> rw [e]
    · exact balanceOk_millEmpty hempty hhand
    · exact hhand
  · exact hhand

/-- The first head starts a coil with nothing held (R68). -/
theorem balanceOk_startCoil {s : State} (hmill : s.stk.mill = .armed) (h : BalanceOk s) : BalanceOk (startCoil s) := by
  obtain ⟨-, hidle, -, hfresh⟩ := (balanceOk_iff s).mp h
  have hheld : s.stk.heldCount = 0 := hidle (by rw [hmill]; rfl)
  refine balanceOk_setMill .rolling (.inl hheld) ((balanceOk_iff _).mpr ⟨⟨fun _ => ?_, Nat.zero_le _, Nat.zero_le _⟩,
    fun _ => hheld, fun k hk => absurd ((heldCount_eq_zero _).mp hheld k).1 hk, hfresh⟩)
  exact hheld.symm

theorem balanceOk_threaded (k : Stand) {s : State} (h : BalanceOk s) : BalanceOk (threaded k s) := by
  have hgap : BalanceOk ((setStandState k .thread s).modGap k GapRecord.enterThread) :=
    balanceOk_same (by simp) (by simp) (by simp) h
  unfold threaded
  dsimp only
  split
  next hfirst =>
    rw [Bool.and_eq_true, beq_iff_eq] at hfirst
    exact balanceOk_startCoil hfirst.2 hgap
  next => exact hgap

theorem resetStands_keeps (s : State) :
    (resetStands s).plu = s.plu ∧ (resetStands s).stk = s.stk ∧ (resetStands s).sch = s.sch := by
  have hhandover := eachStand_keeps (fun t : State => (t.plu, t.stk, t.sch)) resetHandover (fun k t => by
    unfold resetHandover
    split <;> simp) s
  have hplace := eachStand_keeps (fun t : State => (t.plu, t.stk, t.sch)) placeAtReset (fun k t => by
    unfold placeAtReset
    split <;> simp) (eachStand resetHandover s)
  have h := hplace.trans hhandover
  refine ⟨?_, ?_, ?_⟩
  · exact Eq.trans (by simp [resetStands]) (congrArg (·.1) h)
  · exact Eq.trans (by simp [resetStands]) (congrArg (·.2.1) h)
  · exact Eq.trans (by simp [resetStands]) (congrArg (·.2.2) h)

/-- After a soft reset nothing is held and the counters are 0 (R85). -/
theorem balanceOk_reset {s : State} (h : BalanceOk s) :
    BalanceOk (resetTracker (resetStands (resetCounters (resetGaps (resetLengths (resetSlots (resetReports s))))))) := by
  obtain ⟨hplu, hstk, hsch⟩ := resetStands_keeps (resetCounters (resetGaps (resetLengths (resetSlots (resetReports s)))))
  obtain ⟨-, -, -, hfresh⟩ := (balanceOk_iff s).mp h
  have hheld (t : Tracker) : t.softReset.heldCount = 0 :=
    (heldCount_eq_zero _).mpr fun k => ⟨vget_replicate _ k, vget_replicate _ k⟩
  have hstrip (k : Stand) : (resetLengths s).stripPresent k = s.stripPresent k :=
    stripPresent_congr (by simp [State.presence, resetLengths, clearMeasurers])
  generalize hu : resetCounters (resetGaps (resetLengths (resetSlots (resetReports s)))) = u at hplu hstk hsch ⊢
  have huplu : u.plu = (resetLengths s).plu := by rw [← hu]; rfl
  unfold resetTracker
  refine balanceOk_setMill .idle (.inl (hheld _)) ((balanceOk_iff _).mpr ⟨⟨fun _ => (hheld (resetStands u).stk).symm, Nat.zero_le _, Nat.zero_le _⟩,
    fun _ => hheld _, fun k hk => absurd ((heldCount_eq_zero _).mp (hheld _) k).1 hk, fun hs => ?_⟩)
  have hwith : ((resetStands u).withStk (resetStands u).stk.softReset).plu = u.plu := hplu
  have hunsettled : s.plu.settled = false := by
    rw [hwith, huplu] at hs
    exact hs
  obtain ⟨hno, hidle⟩ := hfresh hunsettled
  refine ⟨fun k => ?_, fun i => ?_⟩
  · rw [← hno k, ← hstrip k, State.stripPresent, State.presence, hwith, huplu]
    rfl
  · rw [← hidle i]
    refine congrArg Filter.due (filter_congr ?_ ?_ ?_ i) <;> rw [hwith, huplu] <;> rfl

end Sys2Proof.Machine
end

section
/-! PROOFS. The balance of the coil counters upheld by every change, and O58. -/

namespace Sys2Proof.Machine

/-- Two upheld statements are upheld together. -/
theorem Upheld.and {P Q : Bool → State → Prop} (p : Upheld P) (q : Upheld Q) : Upheld fun b s => P b s ∧ Q b s where
  weaken h := ⟨p.weaken h.1, q.weaken h.2⟩
  scopes h := ⟨p.scopes h.1, q.scopes h.2⟩
  host l _ _ h := ⟨p.host l h.1, q.host l h.2⟩
  line asm accept _ _ h := ⟨p.line asm accept h.1, q.line asm accept h.2⟩
  gap k f hf _ _ h := ⟨p.gap k f hf h.1, q.gap k f hf h.2⟩
  gaps f hf _ _ h := ⟨p.gaps f hf h.1, q.gaps f hf h.2⟩
  chan c f _ _ h := ⟨p.chan c f h.1, q.chan c f h.2⟩
  inputs u _ _ hu h := ⟨p.inputs u hu h.1, q.inputs u hu h.2⟩
  settle pins _ _ hs h := ⟨p.settle pins hs h.1, q.settle pins hs h.2⟩
  count h := ⟨p.count h.1, q.count h.2⟩
  configure body _ _ h := ⟨p.configure body h.1, q.configure body h.2⟩
  actions rows _ _ h := ⟨p.actions rows h.1, q.actions rows h.2⟩
  pend b n _ _ h := ⟨p.pend b n h.1, q.pend b n h.2⟩
  spend h := ⟨p.spend h.1, q.spend h.2⟩
  countForce k n _ hn h := ⟨p.countForce k n hn h.1, q.countForce k n hn h.2⟩
  countGap k n _ hn h := ⟨p.countGap k n hn h.1, q.countGap k n hn h.2⟩
  mark key st _ _ hst h := ⟨p.mark key st hst h.1, q.mark key st hst h.2⟩
  reraise key _ _ hs h := ⟨p.reraise key hs h.1, q.reraise key hs h.2⟩
  create inTracker key _ hnew h := ⟨p.create inTracker key hnew h.1, q.create inTracker key hnew h.2⟩
  remove r _ _ h := ⟨p.remove r h.1, q.remove r h.2⟩
  empty he h := ⟨p.empty he h.1, q.empty he h.2⟩
  mill hm h := ⟨p.mill hm h.1, q.mill hm h.2⟩
  ready k _ hs h := ⟨p.ready k hs h.1, q.ready k hs h.2⟩
  roll k _ hs h := ⟨p.roll k hs h.1, q.roll k hs h.2⟩
  thread k _ hset hs ht h := ⟨p.thread k hset hs ht h.1, q.thread k hset hs ht h.2⟩
  tail k _ hs h := ⟨p.tail k hs h.1, q.tail k hs h.2⟩
  send k mode ref _ hr hs h := ⟨p.send k mode ref hr hs h.1, q.send k mode ref hr hs h.2⟩
  emptySlot k _ _ h := ⟨p.emptySlot k h.1, q.emptySlot k h.2⟩
  next hb h := ⟨p.next hb h.1, q.next hb h.2⟩
  leave k st _ he h := ⟨p.leave k st he h.1, q.leave k st he h.2⟩
  pendHandover k ho _ hm h := ⟨p.pendHandover k ho hm h.1, q.pendHandover k ho hm h.2⟩
  restore k _ hok h := ⟨p.restore k hok h.1, q.restore k hok h.2⟩
  overlap k _ _ hd h := ⟨p.overlap k hd h.1, q.overlap k hd h.2⟩
  equalized k _ _ h := ⟨p.equalized k h.1, q.equalized k h.2⟩
  swap hm h := ⟨p.swap hm h.1, q.swap hm h.2⟩
  reset ht h := ⟨p.reset ht h.1, q.reset ht h.2⟩

theorem balanceOk_inputs (p : PresenceUnit) {s : State} (hp : SameStrip s p) (h : BalanceOk s) : BalanceOk (s.withPlu p) := by
  have hstrip (k : Stand) : (s.withPlu p).stripPresent k = s.stripPresent k := stripPresent_congr (hp.absent k)
  obtain ⟨-, -, -, hfresh⟩ := (balanceOk_iff s).mp h
  refine balanceOk_of (s := s) rfl rfl rfl rfl (.inr rfl) (.inr rfl) (fun k _ hk => (hstrip k).trans hk) (fun hs => ?_) h
  have hsettled : s.plu.settled = false := hp.settled ▸ hs
  obtain ⟨hno, hidle⟩ := hfresh hsettled
  refine ⟨hsettled, fun k => (hstrip k).trans (hno k), fun i => ?_⟩
  cases hi : ((s.withPlu p).filter i).due with
  | false => rfl
  | true =>
    obtain hdue | hs' := hp.due i hi
    · exact nomatch (hidle i).symm.trans hdue
    · exact nomatch hsettled.symm.trans hs'

/-- Strip found at the first tick: nothing was held before it (R54, R55). -/
theorem balanceOk_settleInputs (pins : InputPins) {s : State} (hs : s.plu.settled = false) (h : BalanceOk s) :
    BalanceOk (settleInputs pins s) := by
  obtain ⟨-, -, -, hfresh⟩ := (balanceOk_iff s).mp h
  obtain ⟨hno, -⟩ := hfresh hs
  exact balanceOk_of (s := s) rfl rfl rfl rfl (.inr rfl) (.inr rfl) (fun k _ hk => nomatch (hno k).symm.trans hk) (fun hs => nomatch hs) h

theorem upheld_balanceOk : Upheld fun _ s => BalanceOk s where
  scopes h := balanceOk_evalScopes h
  gap _ _ _ _ _ h := h
  gaps _ _ _ _ h := h
  inputs p _ _ hp h := balanceOk_inputs p hp h
  settle pins _ _ hs h := balanceOk_settleInputs pins hs h
  count h := h
  configure _ _ _ h := h
  mark _ _ _ _ _ h := h
  reraise _ _ _ _ h := h
  create inTracker key _ _ h := balanceOk_createRecord inTracker key h
  remove r _ _ h := balanceOk_same (by simp) (by simp) (by simp) h
  empty he h := balanceOk_millEmpty he h
  mill hm h := by
    obtain ⟨-, hidle, -⟩ := (balanceOk_iff _).mp h
    refine balanceOk_setMill _ ?_ h
    cases hm with
    | tailout hmill => exact .inr (by rw [hmill]; rfl)
    | arm harm =>
      unfold canArm at harm
      rw [Bool.and_eq_true] at harm
      refine .inl (hidle ?_)
      simp_all [MillState.running]
    | disarm hmill => exact .inr (by rw [hmill]; rfl)
  ready _ _ _ h := balanceOk_same (by simp) (by simp) (by simp) h
  roll _ _ _ h := balanceOk_same (by simp) (by simp) (by simp) h
  thread k _ _ _ _ h := balanceOk_threaded k h
  tail _ _ _ h := balanceOk_same (by simp) (by simp) (by simp) h
  send _ _ _ _ _ _ h := balanceOk_same (by simp) (by simp) (by simp) h
  emptySlot _ _ _ h := h
  next _ h := balanceOk_same (by simp) (by simp) (by simp) h
  leave _ _ _ _ h := balanceOk_same (by simp) (by simp) (by simp) h
  pendHandover _ _ _ _ h := balanceOk_same (by simp [pendHandover]) (by simp [pendHandover]) (by simp [pendHandover]) h
  restore k s _ h := by
    obtain ⟨hstk, hsch, -, -, -, hplu, -⟩ := restored_keeps k s
    exact balanceOk_same hstk (by rw [hsch]) hplu h
  overlap _ _ _ _ h := h
  equalized _ _ _ h := h
  swap hm h := balanceOk_swapBank hm h
  reset _ h := balanceOk_reset h

theorem balanceOk_endTracker (before : State) {s : State} (h : BalanceOk s) : BalanceOk (endTracker before s) :=
  upheld_balanceOk.after_endTracker before (s := s) h

/-! ## The strip -/

theorem upheld_bite (k : Stand) : Upheld fun _ s => vget s.stk.bites k = none where
  scopes h := by simpa using h
  gap _ _ _ _ _ h := h
  gaps _ _ _ _ h := h
  inputs _ _ _ _ h := h
  settle _ _ _ _ h := h
  count h := h
  configure _ _ _ h := h
  mark _ _ _ _ _ h := h
  reraise _ _ _ _ h := h
  create _ _ _ _ h := by simpa using h
  remove _ _ _ h := by simpa using h
  empty _ h := by simpa using h
  mill _ h := by simpa using h
  ready _ _ _ h := by simpa using h
  roll _ _ _ h := by simpa using h
  thread j s _ _ _ h := by
    unfold threaded
    dsimp only
    split <;> simpa [startCoil] using h
  tail _ _ _ h := by simpa using h
  send _ _ _ _ _ _ h := by simpa using h
  emptySlot _ _ _ h := h
  next _ h := by simpa using h
  leave _ _ _ _ h := by simpa using h
  pendHandover _ _ _ _ h := by simpa [pendHandover] using h
  restore j s _ h := by rwa [(restored_keeps j s).1]
  overlap _ _ _ _ h := h
  equalized _ _ _ h := h
  swap _ h := by simpa using h
  reset _ _ := by
    unfold resetTracker
    rw [(setMill_keeps _ _).2.2.2.2.2.1]
    exact vget_replicate _ k

/-- A head leaves the place of its stand empty until the tracker takes it (R69). -/
theorem balanceOk_headEvent (k : Stand) {s : State} (hdue : (s.filter (.hmd k)).due = true)
    (hon : pinActive s.plu.pins (.hmd k) = true) (habsent : (s.presence k).state = .absent) (hpass : PassOk s)
    (h : BalanceOk s) : BalanceOk (headEvent k (senseStrip k s)) := by
  obtain ⟨-, -, hplaced, hfresh⟩ := (balanceOk_iff s).mp h
  have hbite : vget s.stk.bites k = none := by
    refine Decidable.not_not.mp fun hne => ?_
    have hstrip := (hplaced k hne).2
    simp [State.stripPresent, habsent] at hstrip
  have hpresence (j : Stand) : (senseStrip k s).presence j = if j = k then (s.presence k).sense true else s.presence j := by
    have e : (senseStrip k s).presence j = if j = k then (s.presence k).sense (pinActive s.plu.pins (.hmd k)) else s.presence j :=
      modPresence_presence _ k j _
    rw [e, hon]
  have hsense : BalanceOk (senseStrip k s) := by
    refine balanceOk_of (s := s) rfl rfl rfl rfl (.inr rfl) (.inr rfl) (fun j _ hj => ?_) (fun hs => ?_) h
    · unfold State.stripPresent at hj ⊢
      rw [hpresence]
      split
      · simp [Presence.sense, habsent]
      · exact hj
    · exact nomatch ((hfresh hs).2 _).symm.trans hdue
  have hseq : PassOk (seqHead k (senseStrip k s)) ∧ BalanceOk (seqHead k (senseStrip k s)) ∧
      vget (seqHead k (senseStrip k s)).stk.bites k = none := by
    by_cases hset : (senseStrip k s).inSet k = true
    · exact ⟨untracked_passOk.after_seqHead k hset hpass, upheld_balanceOk.after_seqHead k hset hsense,
        (upheld_bite k).after_seqHead k hset hbite⟩
    · have e : seqHead k (senseStrip k s) = senseStrip k s := if_neg hset
      rw [e]
      exact ⟨hpass, hsense, hbite⟩
  have hstrip : (seqHead k (senseStrip k s)).stripPresent k = true := by
    have hpres : (seqHead k (senseStrip k s)).presence k = (senseStrip k s).presence k := by simp [State.presence]
    simp [State.stripPresent, hpres, hpresence, Presence.sense, habsent]
  obtain ⟨hpass', hbal, hbite'⟩ := hseq
  unfold headEvent
  generalize seqHead k (senseStrip k s) = u at hpass' hbal hbite' hstrip
  refine balanceOk_same (s := trackHead k u) (by simp) (by simp) (by simp) ?_
  unfold trackHead
  split
  next hthread =>
    rw [Bool.and_eq_true, beq_iff_eq] at hthread
    obtain ⟨hset, hstate⟩ := hthread
    have hrunning := (((passOk_iff u).mp hpass' k).coil (by rw [hstate]; rfl)).1
    unfold threadEntry
    refine balanceOk_endTracker u ?_
    generalize hv : u.withStk { u.stk with tailMarks := vset u.stk.tailMarks k false } = v
    have hmark : Moving v.stripPresent 0 v := by
      rw [← hv]
      exact (hbal.moving hrunning).congr (s := u) rfl rfl rfl rfl rfl rfl rfl
    have hempty : vget v.stk.bites k = none := hv ▸ hbite'
    have hvset : v.inSet k = true := hv ▸ hset
    have hvstrip : v.stripPresent k = true := hv ▸ hstrip
    split
    · exact (moving_allocate k hempty hvset hvstrip hmark).balanceOk fun j _ hj => hj
    · refine (moving_takeIntoBite k hempty hvset hvstrip hmark).balanceOk fun j _ hj => ?_
      rwa [stripPresent_congr (s := v) (by simp [State.presence])]
  next => exact hbal

theorem balanceOk_trackAdvance (k : Stand) {s : State} (h : BalanceOk s) : BalanceOk (trackAdvance k s) := by
  unfold trackAdvance
  split
  · exact h
  next hin =>
    rw [Bool.not_eq_true', Bool.not_eq_false, Bool.and_eq_true] at hin
    obtain ⟨hset, hrunning⟩ := hin
    have hmoving := h.moving hrunning
    split
    · exact balanceOk_endTracker s ((moving_popExit hmoving).balanceOk fun j _ hj => by
        rwa [stripPresent_congr (s := s) (by simp [State.presence])])
    · split
      next hmoves =>
        rw [Bool.and_eq_true] at hmoves
        refine balanceOk_endTracker s ((moving_refill k ?_ ?_ hmoves.1 (moving_pushBite k hmoving)).balanceOk fun j _ hj => ?_)
        · rw [pushBite_bite, if_pos rfl]
        · rw [pushBite_inSet, hset]
        · rwa [stripPresent_congr (s := s) (by simp [State.presence])]
      next => exact h

/-! ## Tails -/

/-- What a tail finds: the balance, or a coil under way whose record at `k` has lost its strip (R51, R75). -/
def TailFits (k : Stand) (s : State) : Prop :=
  BalanceOk s ∨ s.inSet k = true ∧ s.stk.mill.running = true ∧
    ∃ strip, Moving strip 0 s ∧ ∀ j, j ≠ k → strip j = true → s.stripPresent j = true

theorem giveTail_bite (k : Stand) (s : State) : vget (giveTail k s).stk.bites k = none := by
  have hpush := pushBite_bite k k s
  rw [if_pos rfl] at hpush
  unfold giveTail
  dsimp only
  split
  · exact hpush
  · refine Eq.trans ?_ hpush
    exact congrArg (fun b => vget b k) (foldl_keeps (fun t => t.stk.bites) _ (fun t g => by simp) _ _)

theorem moving_giveTail (k : Stand) {strip : Stand → Bool} {s : State} (h : Moving strip 0 s) : Moving strip 0 (giveTail k s) := by
  have hgive : Moving strip 0 (if (pushBite k s).isFirst k then pushBite k s else discardSpan (spanInto k) (pushBite k s)) := by
    split
    · exact moving_pushBite k h
    · exact moving_discardSpan _ (moving_pushBite k h)
  refine hgive.congr ?_ ?_ ?_ ?_ ?_ ?_ ?_ <;> rfl

theorem balanceOk_trackTail (k : Stand) {s : State} (h : TailFits k s) : BalanceOk (trackTail k s) := by
  rw [trackTail_eq]
  split
  next hin =>
    rw [Bool.and_eq_true] at hin
    obtain ⟨strip, hmoving, hstrip⟩ : ∃ strip, Moving strip 0 s ∧ ∀ j, j ≠ k → strip j = true → s.stripPresent j = true := by
      obtain hbal | ⟨-, -, hmoving⟩ := h
      · exact ⟨_, hbal.moving hin.2, fun _ _ hj => hj⟩
      · exact hmoving
    have hgive : BalanceOk (giveTail k s) := (moving_giveTail k hmoving).balanceOk fun j hj hs => by
      have hjk : j ≠ k := fun e => hj (e ▸ giveTail_bite k s)
      rw [stripPresent_congr (s := s) (t := giveTail k s) ?_]
      · exact hstrip j hjk hs
      · unfold giveTail
        dsimp only
        split <;> simp [State.presence]
    refine balanceOk_endTracker s ?_
    unfold tailMill
    split
    next hmill =>
      rw [Bool.and_eq_true, beq_iff_eq] at hmill
      exact balanceOk_setMill .tailout (.inr (by rw [hmill.2]; rfl)) hgive
    next => exact hgive
  next hout =>
    obtain hbal | ⟨hset, hrunning, -⟩ := h
    · exact hbal
    · exact absurd (by rw [hset, hrunning]; rfl) hout

theorem tailFits_same {k : Stand} {s t : State} (hstk : t.stk = s.stk) (hactive : t.sch = s.sch) (hplu : t.plu = s.plu)
    (h : TailFits k s) : TailFits k t := by
  obtain hbal | ⟨hset, hrunning, strip, hmoving, hstrip⟩ := h
  · exact .inl (balanceOk_same hstk (by rw [hactive]) hplu hbal)
  · refine .inr ⟨?_, by rwa [hstk], strip, hmoving.congr hactive hplu (by rw [hstk]) (by rw [hstk]) (by rw [hstk]) (by rw [hstk])
      (by rw [hstk]), fun j hjk hj => ?_⟩
    · rw [← hset]
      simp [State.inSet, State.activeSet, State.millRec, hactive]
    · rw [stripPresent_congr (s := s) (by rw [State.presence, hplu]; rfl)]
      exact hstrip j hjk hj

theorem tailFits_seqTail (k : Stand) {s : State} (h : TailFits k s) : TailFits k (seqTail k s) := by
  unfold seqTail
  dsimp only
  split
  · generalize hv : evalScopes (standNotice k ((setStandState k .tail s).modGap k fun g => { g with lockCount := 0 })) = v
    have hfits : TailFits k v := tailFits_same (by simp [← hv]) (by simp [← hv]) (by simp [← hv]) h
    split
    · obtain ⟨hempty, e⟩ | ⟨-, e⟩ := millEmptyTest_cases v <;> rw [e]
      · refine .inl (balanceOk_millEmpty hempty ?_)
        obtain hbal | ⟨-, -, strip, hmoving, -⟩ := hfits
        · exact hbal
        · unfold State.millIsEmpty at hempty
          rw [Bool.and_eq_true, Bool.and_eq_true, noSegments_iff] at hempty
          exact hmoving.balanceOk fun j hj _ => absurd ((heldCount_eq_zero _).mp hempty.1.2 j).1 hj
      · exact hfits
    · exact hfits
  · exact h

/-- A tail takes the record of its stand away with the strip (R51, R75). -/
theorem balanceOk_tailConfirmed (k : Stand) {s : State} (hstate : (s.presence k).state = .dropout) (h : BalanceOk s) :
    BalanceOk (tailConfirmed k s) := by
  obtain ⟨hbalanced, hidle, hplaced, hfresh⟩ := (balanceOk_iff s).mp h
  have hsettled : s.plu.settled = true := by
    cases hs : s.plu.settled with
    | true => rfl
    | false =>
      have hno := (hfresh hs).1 k
      simp [State.stripPresent, hstate] at hno
  have hother (j : Stand) (hjk : j ≠ k) :
      (s.modPresence k fun _ => { state := .absent, measurer := 0 }).stripPresent j = s.stripPresent j :=
    stripPresent_congr (by rw [modPresence_presence, if_neg hjk])
  have hfits : TailFits k (s.modPresence k fun _ => { state := .absent, measurer := 0 }) := by
    by_cases hbite : vget s.stk.bites k = none
    · refine .inl (balanceOk_of (s := s) rfl rfl rfl rfl (.inr rfl) (.inr rfl) (fun j hj hs => ?_)
        (fun hs => nomatch hsettled.symm.trans hs) h)
      rwa [hother j fun e => hj (e ▸ hbite)]
    · have hrunning : s.stk.mill.running = true := by
        cases hm : s.stk.mill.running with
        | true => rfl
        | false => exact absurd ((heldCount_eq_zero _).mp (hidle hm) k).1 hbite
      exact .inr ⟨(hplaced k hbite).1, hrunning, s.stripPresent, ⟨hbalanced, hrunning, hplaced,
        fun hs => nomatch hsettled.symm.trans hs⟩, fun j hjk hj => (hother j hjk).trans hj⟩
  unfold tailConfirmed
  exact balanceOk_same (by simp) (by simp) (by simp) (balanceOk_trackTail k (tailFits_seqTail k hfits))

/-! ## CLEAR_MILL -/

theorem discardBite_bites (k j : Stand) (s : State) :
    vget (discardBite k s).stk.bites j = if j = k then none else vget s.stk.bites j := by
  unfold discardBite
  split
  next => rw [retire_keeps _ _ |>.2.2.2.2.2.1, setBite_bites]
  next hbite =>
    split
    next hjk => rw [hjk, hbite]
    next => rfl

theorem discardSpan_spans (i j : SpanId) (s : State) : (discardSpan i s).span j = if j = i then [] else s.span j := by
  have e : (discardSpan i s).stk.spans = (s.setSpan i []).stk.spans := foldl_keeps (fun t => t.stk.spans) _ (fun t g => by simp) _ _
  rw [← setSpan_span, State.span, e]
  rfl

theorem discardSpan_bites (i : SpanId) (s : State) : (discardSpan i s).stk.bites = s.stk.bites :=
  foldl_keeps (fun t => t.stk.bites) _ (fun t g => by simp) _ _

theorem discardSpans_span (l : List SpanId) (j : SpanId) (s : State) :
    (l.foldl (fun t j => discardSpan j t) s).span j = if j ∈ l then [] else s.span j := by
  induction l generalizing s with
  | nil => simp
  | cons i l ih =>
    rw [List.foldl_cons, ih, discardSpan_spans]
    by_cases hj : j ∈ l <;> by_cases hi : j = i <;> simp [hj, hi]

theorem discardBites_bites (l : List Stand) (j : Stand) (s : State) :
    vget (l.foldl (fun t k => discardBite k t) s).stk.bites j = if j ∈ l then none else vget s.stk.bites j := by
  induction l generalizing s with
  | nil => simp
  | cons i l ih =>
    rw [List.foldl_cons, ih, discardBite_bites]
    by_cases hj : j ∈ l <;> by_cases hi : j = i <;> simp [hj, hi]

/-- Nothing is held once every bite and every span is discarded (R81). -/
theorem discardRecords_held (s : State) : (discardRecords s).stk.heldCount = 0 := by
  have hbites (k : Stand) : vget (eachStand discardBite s).stk.bites k = none := by
    unfold eachStand
    rw [discardBites_bites, if_pos (mem_allStands k)]
  unfold discardRecords
  generalize eachStand discardBite s = u at hbites
  refine (heldCount_eq_zero _).mpr fun k => ⟨?_, ?_⟩
  · rw [foldl_keeps (fun t => t.stk.bites) _ (fun t j => discardSpan_bites j t)]
    exact hbites k
  · have hspan := discardSpans_span allStands k u
    rwa [if_pos (mem_allStands k)] at hspan

theorem balanceOk_clearStrip {s : State} (h : BalanceOk s) : BalanceOk (clearStrip s) :=
  balanceOk_inputs _ (clearMeasurers_sameStrip s) h

theorem balanceOk_clearMill {s : State} (hclear : canClearMill s = true) (h : BalanceOk s) : BalanceOk (clearMill s) := by
  unfold canClearMill at hclear
  rw [Bool.and_eq_true] at hclear
  have hmoving : Moving s.stripPresent 0 (discardRecords s) := by
    have hbites := eachStand_inv (Moving s.stripPresent 0) discardBite (fun k _ ht => moving_discardBite k ht) s
      (h.moving hclear.1)
    unfold discardRecords
    exact foldl_inv _ (fun j _ ht => moving_discardSpan j ht) _ hbites
  have hdiscard : BalanceOk (discardRecords s) := hmoving.balanceOk fun j hj _ =>
    absurd ((heldCount_eq_zero _).mp (discardRecords_held s) j).1 hj
  have hheld := discardRecords_held s
  rw [clearMill_eq]
  generalize discardRecords s = u at hdiscard hheld
  exact balanceOk_endTracker s (balanceOk_setMill .idle (.inl hheld) (balanceOk_clearStrip hdiscard))

/-! ## O58 -/

theorem tracked_balance : Tracked fun _ s => PassOk s ∧ BalanceOk s where
  toUpheld := untracked_passOk.toUpheld.and upheld_balanceOk
  head k _ hdue hon habsent h :=
    ⟨untracked_passOk.tracked.head k hdue hon habsent h.1, balanceOk_headEvent k hdue hon habsent h.1 h.2⟩
  advance k _ h := ⟨untracked_passOk.tracked.advance k h.1, balanceOk_trackAdvance k h.2⟩
  tailEnd k _ hstate h := ⟨untracked_passOk.tracked.tailEnd k hstate h.1, balanceOk_tailConfirmed k hstate h.2⟩
  clearMill hclear h := ⟨untracked_passOk.tracked.clearMill hclear h.1, balanceOk_clearMill hclear h.2⟩

/-- Nothing held, and no strip before the first tick. -/
theorem balanceOk_of_blank {s : State} (hstk : s.stk = { Tracker.cleared with nextSeg := s.stk.nextSeg, lastAlloc := s.stk.lastAlloc })
    (hstrip : ∀ k, s.stripPresent k = false) (hdue : ∀ i, (s.filter i).due = false) : BalanceOk s := by
  have hheld : s.stk.heldCount = 0 := by
    rw [hstk]
    exact (heldCount_eq_zero _).mpr fun k => ⟨vget_replicate _ k, vget_replicate _ k⟩
  have ha : s.stk.allocated = 0 := by rw [hstk]; rfl
  have hr : s.stk.retired = 0 := by rw [hstk]; rfl
  exact (balanceOk_iff s).mpr ⟨⟨fun _ => by omega, by omega, by omega⟩, fun _ => hheld,
    fun k hk => absurd ((heldCount_eq_zero _).mp hheld k).1 hk, fun _ => ⟨hstrip, hdue⟩⟩

theorem balanceOk_reset_state : BalanceOk State.reset := by
  refine balanceOk_of_blank rfl (fun k => ?_) fun i => ?_
  · have e : State.reset.presence k = { state := .absent, measurer := 0 } := vget_replicate _ k
    simp [State.stripPresent, e]
  · cases i <;> exact congrArg Filter.due (vget_replicate _ _)

/-- Settles O58: a record is counted where it is held, on its way from one place to the next, or retired; the coil counters are
cleared with nothing held alone. -/
theorem stepKeepsBalance : Obligations.StepKeepsBalance := by
  intro s t hpass hbal hstep
  refine (step_keeps (P := fun s => PassOk s ∧ BalanceOk s) (fun _ _ h => h) (fun r s _ => ?_) (fun straps s => ?_)
    (fun _ m h => tracked_balance.after_move m h) ⟨hpass, hbal⟩ hstep).2
  · refine ⟨passOk_of_blank (fun _ => rfl) fun k => ?_, balanceOk_of_blank rfl (fun k => ?_) fun i => ?_⟩
    · rw [show (holdReset r s).seq k = SeqRecord.cleared from vget_replicate _ k]
      exact ⟨rfl, rfl⟩
    · have e : (holdReset r s).presence k = { state := .absent, measurer := 0 } := vget_replicate _ k
      simp [State.stripPresent, e]
    · cases i <;> exact congrArg Filter.due (vget_replicate _ _)
  · rw [release_eq]
    exact ⟨passOk_reset_state, balanceOk_reset_state⟩

end Sys2Proof.Machine
end

section
/-! PROOFS. The state after reset: its values, block by block, and every invariant, and O4. -/

namespace Sys2Proof.Machine

/-- Every invariant holds of the state after reset. -/
theorem reset_invariants :
    HeldOk State.reset ∧ TableOk State.reset ∧ ScopesOk State.reset ∧ QueueOk State.reset ∧ LineOk State.reset ∧
      (∀ k, SeqOk State.reset k) ∧ PassOk State.reset ∧ BalanceOk State.reset ∧ CapacityOk State.reset ∧ SlotsOk State.reset ∧
      BanksOk State.reset ∧ (∀ k, GapOk State.reset k) ∧ PresenceOk State.reset ∧ (∀ c, ChannelOk State.reset c) ∧
      AssemblersOk State.reset ∧ ConfigOk State.reset := by
  obtain ⟨htable, hrun⟩ := tableOk_reset
  obtain ⟨hqueue, hline⟩ := hostLine_reset
  obtain ⟨hseq, hslots⟩ := (sequenced_iff _).mp sequenced_reset_state
  obtain ⟨hbanks, hgaps⟩ := banksHold_cleared State.reset rfl rfl
  obtain ⟨hpresence, hchannels, hassemblers, hconfig, hcapacity⟩ := inputsOk_cleared State.reset rfl rfl rfl rfl rfl rfl rfl
  exact ⟨(fun h => nomatch hrun.symm.trans h), htable, scopesOk_reset_state, hqueue, hline, hseq, passOk_reset_state,
    balanceOk_reset_state, hcapacity, hslots, hbanks, hgaps, hpresence, hchannels, hassemblers, hconfig⟩

/-- The banks after reset hold no record (R1). -/
theorem bankNone_blank (b : Bank) (h : b = Bank.none) : b.mill = none ∧ ∀ k, vget b.stands k = none := by
  subst h
  exact ⟨rfl, fun k => vget_replicate _ k⟩

/-- Settles O4: each block holds its power-on values, every vector the same one in each place. -/
theorem resetState : Obligations.ResetState := by
  refine ⟨?_, ?_, ?_, ?_, ?_, ?_, ?_, ?_, ?_, rfl, by decide +kernel, rfl, rfl, reset_invariants⟩
  · refine ⟨rfl, rfl, rfl, rfl, rfl, fun b hb => bankNone_blank b (hb.elim id id), rfl, rfl, fun k => vget_replicate _ k,
      fun c => vget_replicate _ c, rfl⟩
  · exact ⟨fun n => vget_replicate _ n, rfl, rfl, fun k => vget_replicate _ k, fun k => vget_replicate _ k⟩
  · exact fun c => vget_replicate _ c
  · refine ⟨rfl, fun i => ?_, fun k => vget_replicate _ k, fun k => vget_replicate _ k⟩
    cases i <;> exact vget_replicate _ _
  · exact ⟨rfl, rfl, rfl, rfl, rfl, rfl, fun k => vget_replicate _ k, fun j => vget_replicate _ j, rfl,
      fun k => vget_replicate _ k, rfl⟩
  · exact fun k => vget_replicate _ k
  · exact reset_seq
  · exact ⟨rfl, rfl, fun k => ⟨vget_replicate _ k, vget_replicate _ k⟩⟩
  · exact ⟨rfl, rfl, rfl, rfl, fun i => vget_replicate _ i, fun i => vget_replicate _ i⟩

end Sys2Proof.Machine
end

section
/-! PROOFS. What an event leaves behind its end, the notices it enters, and the timers and the field-out line: O23, O27, O28. -/

namespace Sys2Proof.Machine

/-! ## Notices -/

/-- The queue holds the content, where its kind is enabled (R179, R181). -/
def Noticed (b : NoticeBody) (s : State) : Prop :=
  kindEnabled s.hlk.mask b.source = true → ∃ n ∈ s.hlk.queue, n.body = b

theorem Noticed.congr {b : NoticeBody} {s t : State} (hmask : t.hlk.mask = s.hlk.mask) (hqueue : t.hlk.queue = s.hlk.queue)
    (h : Noticed b s) : Noticed b t := by
  unfold Noticed
  rw [hmask, hqueue]
  exact h

/-- A content that gathers nothing is in the queue after its update (R179). -/
theorem noticed_updateNotice (b : NoticeBody) (s : State) (hgather : ∀ old, coalesce old b = b) : Noticed b (updateNotice b s) := by
  intro hkind
  obtain ⟨-, e⟩ | ⟨hoff, e⟩ := updateNotice_cases b s <;> rw [e] at hkind ⊢
  · change ∃ n ∈ enterNotice s.hlk.queue b, n.body = b
    unfold enterNotice
    split
    next hany =>
      obtain ⟨n, hn, hs⟩ := List.any_eq_true.mp hany
      exact ⟨_, List.mem_map_of_mem hn, by rw [if_pos hs, hgather]⟩
    next => exact ⟨_, List.mem_append_right _ (List.mem_singleton_self _), rfl⟩
  · exact nomatch hoff.symm.trans hkind

theorem noticed_other {b : NoticeBody} (c : NoticeBody) {s : State} (hne : b.source ≠ c.source) (h : Noticed b s) :
    Noticed b (updateNotice c s) := by
  intro hkind
  obtain ⟨-, e⟩ | ⟨-, e⟩ := updateNotice_cases c s <;> rw [e] at hkind ⊢
  · obtain ⟨n, hn, hb⟩ := h hkind
    exact ⟨n, (enterNotice_other _ _ n (by rwa [hb])).mpr hn, hb⟩
  · exact h hkind

/-- The content is of a kind that the trip matrix and the states do not update (R180). -/
def NoticeBody.lasting (b : NoticeBody) : Prop := (∀ key, b.source ≠ .trip key) ∧ ∀ k, b.source ≠ .standState k

theorem noticed_tripNotice {b : NoticeBody} (hb : b.lasting) (key : Key) {s : State} (h : Noticed b s) :
    Noticed b (tripNotice key s) := by
  unfold tripNotice
  split
  · exact noticed_other _ (hb.1 _) h
  · exact h

theorem noticed_standNotice {b : NoticeBody} (hb : b.lasting) (k : Stand) {s : State} (h : Noticed b s) :
    Noticed b (standNotice k s) := noticed_other _ (hb.2 k) h

theorem noticed_evalFrozen {b : NoticeBody} (hb : b.lasting) (k : Stand) {s : State} (h : Noticed b s) :
    Noticed b (evalFrozen k s) := by
  unfold evalFrozen
  split
  · exact h
  · exact noticed_standNotice hb k (h.congr rfl rfl)

theorem noticed_removeRecord {b : NoticeBody} (hb : b.lasting) (r : TripRecord) {s : State} (h : Noticed b s) :
    Noticed b (removeRecord r s) := by
  have hfrozen := eachStand_inv (Noticed b) evalFrozen (fun k _ ht => noticed_evalFrozen hb k ht) (dropRecord r s)
    (h.congr (s := s) rfl rfl)
  have hdemand := eachStand_inv (Noticed b) evalDemand (fun k t ht => ht.congr (by simp) (by simp)) _ hfrozen
  exact noticed_other _ (hb.1 _) hdemand

theorem noticed_goneKey {b : NoticeBody} (hb : b.lasting) (key : Key) {s : State} (h : Noticed b s) :
    Noticed b (goneKey key s) := by
  obtain ⟨-, e⟩ | ⟨r, -, ⟨-, e⟩ | ⟨-, e⟩ | ⟨-, e⟩⟩ := goneKey_cases key s <;> rw [e]
  · exact h
  · refine noticed_tripNotice hb key (h.congr ?_ ?_) <;> rfl
  · exact noticed_removeRecord hb r h
  · exact h

theorem noticed_evalScopes {b : NoticeBody} (hb : b.lasting) {s : State} (h : Noticed b s) : Noticed b (evalScopes s) := by
  refine foldl_inv _ (fun key t ht => ?_) _ (h.congr (t := clearCounters s) rfl rfl)
  unfold goneOutOfScope
  split
  · exact noticed_goneKey hb key ht
  · exact ht

/-- Behind a frame in transmission the queue keeps what it holds to the event's end (R174). -/
theorem noticed_endEvent {b : NoticeBody} {s : State} (hbusy : s.hlk.tx ≠ none) (hkind : kindEnabled s.hlk.mask b.source = true)
    (h : Noticed b s) : ∃ n ∈ (endEvent s).hlk.queue, n.body = b := by
  rw [endEvent_busy s hbusy]
  exact h hkind

/-- The end of an event that held no request leaves of the host link all but slot, frame and queue (R174). -/
theorem endEvent_link {s t : State} (hline : LineOk s) (htx : t.hlk.tx = s.hlk.tx) (hheld : t.hlk.held = s.hlk.held) :
    ∃ slot tx queue, endEvent t = t.withHlk { t.hlk with slot := slot, tx := tx, queue := queue } := by
  by_cases hidle : s.hlk.tx = none
  · exact ⟨_, _, _, endEvent_of_not_held t (hheld.trans (not_held_of_idle s hline hidle))⟩
  · exact ⟨t.hlk.slot, t.hlk.tx, t.hlk.queue, endEvent_busy t (htx ▸ hidle)⟩

/-! ## Stream timers -/

namespace Settled

/-- Settles O28: the timer reloaded and the notice entered; behind a frame in transmission it waits in the queue. -/
theorem streamExpiry : Obligations.StreamExpiry := by
  intro i s ⟨hrun, hline⟩
  have hexec : exec (.streamTimerExpiry i) s = .next (Machine.streamExpiry i s) := event_of_not_inReset (Machine.streamExpiry i) s hrun
  refine ⟨fun hidle => hexec.trans (congrArg _ (if_neg hidle)), fun hdue => ?_⟩
  obtain ⟨slot, tx, queue, hend⟩ := endEvent_link (t := expireStream i s) hline (by simp [expireStream]) (by simp [expireStream])
  have hstreams : (expireStream i s).hlk.streams =
      vset s.hlk.streams i { vget s.hlk.streams i with timer := some (vget s.hlk.streams i).period } := by simp [expireStream]
  refine ⟨endEvent (expireStream i s), hexec.trans (congrArg _ (if_pos hdue)), ?_, ?_, ?_, ?_, ?_, fun hbusy hkind => ?_⟩
  · rw [hend]
    exact hstreams
  · rw [hend]; simp [expireStream]
  · rw [hend]; simp [expireStream]
  · rw [hend]; simp [expireStream]
  · rw [hend]; simp [expireStream]
  · refine noticed_endEvent (by simpa [expireStream] using hbusy) (by simpa [expireStream, NoticeBody.source] using hkind) ?_
    exact noticed_updateNotice _ _ fun old => by cases old <;> rfl

end Settled

/-! ## Handover timers -/

theorem endHandover_noticed (k : Stand) (dir : Direction) (st : StandState) (result : HandoverResult) (s : State) :
    Noticed (.handoverDone k dir result) (endHandover k dir st result s) :=
  noticed_updateNotice _ _ fun old => by cases old <;> rfl

theorem handoverDone_lasting (k : Stand) (dir : Direction) (result : HandoverResult) :
    (NoticeBody.handoverDone k dir result).lasting := ⟨fun _ => nofun, fun _ => nofun⟩

/-- The end of a handover leaves the state that it enters, without handover and lamp (R131). -/
theorem endHandover_standing (k j : Stand) (dir : Direction) (st : StandState) (result : HandoverResult) (s : State) :
    ((endHandover k dir st result s).seq j).state = (if j = k then st else (s.seq j).state) ∧
      ((endHandover k dir st result s).seq k).handover = none ∧ ((endHandover k dir st result s).seq k).localReq = false := by
  rw [endHandover_seq, endHandover_seq, if_pos rfl]
  obtain ⟨hstate, -, hho, -, hreq⟩ := evalDemand_record_keeps ((s.seq k).released.enter st) s.millStopExists (s.tNo k)
  refine ⟨?_, hho, hreq⟩
  split
  · exact hstate
  · rfl

namespace Settled

/-- Settles O27: the expired handover leaves its stand by the table of R132. -/
theorem handoverExpiry : Obligations.HandoverExpiry := by
  intro k s ⟨hrun, hline⟩
  have hexec : exec (.handoverTimerExpiry k) s = .next (Machine.handoverExpiry k s) :=
    event_of_not_inReset (Machine.handoverExpiry k) s hrun
  unfold Machine.handoverExpiry at hexec
  refine ⟨fun hnone => ?_, fun h hh => ?_⟩
  · rw [hnone] at hexec
    exact hexec
  rw [hh] at hexec
  refine ⟨fun hleft => hexec.trans (congrArg _ (if_neg hleft)), fun hdue => ?_⟩
  obtain ⟨l, hend, -⟩ := endEvent_after (t := expireHandover k h s) hline (by simp [expireHandover]) (by simp [expireHandover])
  have hseq : (endEvent (expireHandover k h s)).seq k = (expireHandover k h s).seq k := by rw [hend]; rfl
  obtain ⟨hstate, hho, hreq, -⟩ := standing_iff.mp (congrFun (evalScopes_standing
    (endHandover k h.dir (unconfirmedState h (s.inSet k) (s.openCover k)) .deniedTimeout s)) k)
  obtain ⟨hst, hnone, hlow⟩ := endHandover_standing k k h.dir (unconfirmedState h (s.inSet k) (s.openCover k)) .deniedTimeout s
  rw [if_pos rfl] at hst
  refine ⟨endEvent (expireHandover k h s), hexec.trans (congrArg _ (if_pos hdue)), ?_, ?_, fun hdir => ?_,
    fun p hdir hprior hp => ?_, fun hbusy hkind => ?_⟩
  · rw [hseq]
    exact hho.trans hnone
  · rw [hseq]
    exact hreq.trans hlow
  · rw [hseq]
    refine (hstate.trans hst).trans ?_
    simp [unconfirmedState, hdir]
  · rw [hseq]
    refine (hstate.trans hst).trans ?_
    obtain rfl | rfl | rfl | rfl := hp <;> simp only [unconfirmedState, hdir, hprior, Option.getD_some, returnState] <;>
      cases s.inSet k <;> cases s.openCover k <;> rfl
  · refine noticed_endEvent (by simpa [expireHandover] using hbusy)
      (by simpa [expireHandover, NoticeBody.source] using hkind) ?_
    exact noticed_evalScopes (handoverDone_lasting _ _ _) (endHandover_noticed _ _ _ _ _)

end Settled

/-! ## Field-out -/

/-- The slot that the line takes is the lowest full one (R38). -/
theorem pendingSlot_lowest {f : FieldLine} {k : Stand} {p : Setpoint} (hslot : vget f.slots k = some p)
    (hlow : ∀ j, j < k → vget f.slots j = none) : pendingSlot f = some (k, p) := by
  have hsome : pendingSlot f ≠ none := fun hnone => nomatch ((pendingSlot_none f).mp hnone k).symm.trans hslot
  obtain ⟨⟨j, q⟩, hjq⟩ := Option.ne_none_iff_exists'.mp hsome
  obtain ⟨before, i, after, hsplit, hi, hbefore⟩ := List.findSome?_eq_some_iff.mp hjq
  have hij : i = j := by
    obtain ⟨q', -, e⟩ := Option.map_eq_some_iff.mp hi
    exact congrArg Prod.fst e
  subst hij
  have hsorted : List.Pairwise (· < ·) allStands := by decide
  have hk : k ∈ before ++ i :: after := hsplit ▸ mem_allStands k
  rw [hsplit] at hsorted
  have hki : k = i := by
    obtain hk | hk := List.mem_append.mp hk
    · have hnone := hbefore k hk
      rw [hslot] at hnone
      contradiction
    · obtain hk | hk := List.mem_cons.mp hk
      · exact hk
      · have hlt := List.rel_of_pairwise_cons (List.pairwise_append.mp hsorted).2.1 hk
        exact nomatch (hlow i hlt).symm.trans (pendingSlot_some hjq)
  subst hki
  rw [hjq, Option.some.inj (hslot.symm.trans (pendingSlot_some hjq))]

/-- Settles O23: the lowest full slot is the one that `pendingSlot` finds, and the scopes leave the line alone. -/
theorem fieldOutTakesLowestSlot : Obligations.FieldOutTakesLowestSlot := by
  intro s ⟨hrun, hline⟩
  have hexec : exec .fieldOutTxEnd s = .next (match s.flc.tx with
      | some _ => endEvent (evalScopes (nextSetpoint s))
      | none => s) :=
    event_of_not_inReset (fun s => match s.flc.tx with
      | some _ => endEvent (evalScopes (nextSetpoint s))
      | none => s) s hrun
  obtain ⟨l, hend, -⟩ := endEvent_after (t := evalScopes (nextSetpoint s)) hline (by simp) (by simp)
  have hbusy (h : s.flc.tx ≠ none) : exec .fieldOutTxEnd s = .next (endEvent (evalScopes (nextSetpoint s))) := by
    obtain ⟨f, hf⟩ := Option.ne_none_iff_exists'.mp h
    rw [hf] at hexec
    exact hexec
  have hflc : (endEvent (evalScopes (nextSetpoint s))).flc = (nextSetpoint s).flc := by rw [hend]; simp
  have hgce : (endEvent (evalScopes (nextSetpoint s))).gce = (nextSetpoint s).gce := by rw [hend]; simp
  refine ⟨fun hidle => ?_, fun htx hempty => ?_, fun k p htx hslot hlow => ?_⟩
  · rw [hidle] at hexec
    exact hexec
  · have hnext : nextSetpoint s = s.withFlc { s.flc with tx := none } := by
      rw [nextSetpoint, (pendingSlot_none s.flc).mpr hempty]
    exact ⟨_, hbusy htx, by rw [hflc, hnext]; rfl, by rw [hgce, hnext]; rfl⟩
  · have hnext : nextSetpoint s = startSetpoint k p s := by
      rw [nextSetpoint, pendingSlot_lowest hslot hlow]
    have hgap (j : Stand) : (endEvent (evalScopes (nextSetpoint s))).gap j = (startSetpoint k p s).gap j := by
      rw [State.gap, hgce, hnext]
      rfl
    refine ⟨_, hbusy htx, by rw [hflc, hnext]; rfl, ?_, fun j hj => ?_⟩
    · rw [hgap]
      exact modGap_gap_self _ k _
    · rw [hgap]
      exact (modGap_gap _ k j _).trans (if_neg hj)

end Sys2Proof.Machine
end

section
/-! PROOFS. A record through an event: it stays, or goes with its scope; and what a creation leaves (R139, R154, R155, R157). -/

namespace Sys2Proof.Machine

/-! ## Records that age -/

/-- The condition of the key has a scope (R140, R142 to R149). -/
def Key.hasScope : Key → Bool
  | .resetStop | .hostStop | .stopInput _ | .stand .driveFault _ | .stand .unready _ => false
  | _ => true

theorem Key.hasScope_of_scope {key : Key} {s : State} (h : scopeHolds s key = false) : key.hasScope = true := by
  cases key with
  | stand c k => cases c <;> first | rfl | contradiction
  | exitStale => rfl
  | _ => contradiction

/-- A key's record stands as it did, or its condition is gone with its scope (R139, R155). -/
def Aged (key : Key) (s t : State) : Prop :=
  t.recordOf key = s.recordOf key ∨ key.hasScope = true ∧ t.recordOf key = (s.recordOf key).bind TripRecord.gone

theorem Aged.refl (key : Key) (s : State) : Aged key s s := .inl rfl

theorem Aged.trans {key : Key} {s t u : State} (h : Aged key s t) (g : Aged key t u) : Aged key s u := by
  unfold Aged at h g ⊢
  obtain e | ⟨hhasScope, e⟩ := h <;> obtain e' | ⟨hhasScope', e'⟩ := g <;> rw [e', e]
  · exact .inl rfl
  · exact .inr ⟨hhasScope', rfl⟩
  · exact .inr ⟨hhasScope, rfl⟩
  · exact .inr ⟨hhasScope, gone_gone _⟩

theorem Aged.gone {key : Key} {s t : State} (h : Aged key s t) :
    (t.recordOf key).bind TripRecord.gone = (s.recordOf key).bind TripRecord.gone := by
  obtain e | ⟨-, e⟩ := h <;> rw [e]
  exact gone_gone _

/-- A record of a condition without a scope stands (R140). -/
theorem Aged.unscoped {key : Key} {s t : State} (h : Aged key s t) (hkey : key.hasScope = false) :
    t.recordOf key = s.recordOf key := by
  obtain e | ⟨hhasScope, -⟩ := h
  · exact e
  · exact nomatch hkey.symm.trans hhasScope

/-- A key without a record gets none, and an absent key stays absent. -/
theorem Aged.absent {key : Key} {s t : State} (h : Aged key s t) (hs : s.present key = false) :
    t.recordOf key = s.recordOf key := by
  obtain e | ⟨-, e⟩ := h
  · exact e
  · rw [e, gone_of_not_present hs]

theorem aged_of_table {key : Key} {s t : State} (h : t.tmx.table = s.tmx.table) : Aged key s t := .inl (recordOf_congr h key)

theorem aged_evalScopes (key : Key) (s : State) : Aged key s (evalScopes s) := by
  unfold Aged
  rw [recordOf_evalScopes]
  split
  next hscope => exact .inr ⟨Key.hasScope_of_scope hscope, rfl⟩
  next => exact .inl rfl

theorem aged_setMill (key : Key) (m : MillState) (s : State) : Aged key s (setMill m s) :=
  Aged.trans (aged_of_table (by simp)) (aged_evalScopes key _)

theorem aged_swapBank (key : Key) (s : State) : Aged key s (swapBank s) := by
  rw [swapBank_eq]
  have hplace := eachStand_keeps (fun t => t.tmx.table) placeAtSwap (fun k t => by simp) (swapStart s)
  exact (aged_of_table (t := eachStand placeAtSwap (swapStart s)) hplace).trans
    ((aged_evalScopes key _).trans (aged_of_table (by simp)))

theorem aged_emptied (key : Key) (s : State) : Aged key s (emptied s) := by
  unfold emptied
  split
  · exact aged_swapBank key s
  · exact .refl key s

theorem aged_millEmpty (key : Key) (s : State) : Aged key s (millEmpty s) := by
  have htails := eachStand_keeps (fun t => t.tmx.table) tailToSetup (fun k t => by simp) (emptied s)
  have hunmarked : Aged key s (unmarked s) := by
    unfold unmarked
    exact (aged_emptied key s).trans ((aged_of_table (t := eachStand tailToSetup (emptied s)) htails).trans
      ((aged_evalScopes key _).trans (aged_of_table (by simp))))
  rw [millEmpty_unfold]
  exact hunmarked.trans (aged_setMill key _ _)

theorem aged_millEmptyTest (key : Key) (s : State) : Aged key s (millEmptyTest s) := by
  obtain ⟨-, e⟩ | ⟨-, e⟩ := millEmptyTest_cases s <;> rw [e]
  · exact aged_millEmpty key s
  · exact .refl key s

/-! ## Stands that stay TRIPPED -/

/-- Where a swap leaves a stand: LOCAL, HANDOVER and TRIPPED are kept, any other stand is placed (R16). -/
def swapState (inSet cover : Bool) (st : StandState) : StandState :=
  if st = .local_ ∨ st = .handover ∨ st = .tripped then st else placement inSet cover

theorem swapped_state (q : SeqRecord) (inSet cover millStop : Bool) (tNo : Nat) :
    (q.swapped inSet cover millStop tNo).state = swapState inSet cover q.state := by
  unfold SeqRecord.swapped swapState
  split
  next h => simp [h]
  next h =>
    split
    next hkept =>
      obtain hl | ht | hp := hkept
      · simp [hl]
      · simp [ht]
      · rw [← hp]
        simp
    next hkept =>
      have hfree : ¬(q.state = .local_ ∨ q.state = .handover ∨ q.state = .tripped) :=
        fun hs => hs.elim (fun e => hkept (.inl e)) fun hs => hs.elim h fun e => hkept (.inr (.inl e))
      rw [if_neg hfree]
      exact (evalDemand_record_keeps _ _ _).1

theorem swapBank_state (k : Stand) (s : State) :
    ((swapBank s).seq k).state = swapState ((swapBank s).inSet k) (s.openCover k) (s.seq k).state := by
  have hst := congrArg (·.1) (swapBank_standing k s)
  have hset : (swapBank s).inSet k = (swapStart s).inSet k := by
    simp [State.inSet, State.activeSet, State.millRec, swapStart]
  rw [hset]
  exact Eq.trans hst (swapped_state _ _ _ _ _)

/-- Where mill empty leaves a stand (R80). -/
theorem millEmpty_state (k : Stand) (s : State) :
    ((millEmpty s).seq k).state =
      if ((emptied s).seq k).state = .tail then .setup else ((emptied s).seq k).state := by
  refine Eq.trans (congrArg (·.1) (millEmpty_standing k s)) ?_
  split <;> rfl

theorem tripped_emptied (k : Stand) {s : State} (h : (s.seq k).state = .tripped) : ((emptied s).seq k).state = .tripped := by
  unfold emptied
  split
  · rw [swapBank_state, h]
    rfl
  · exact h

theorem tripped_millEmptyTest (k : Stand) {s : State} (h : (s.seq k).state = .tripped) :
    ((millEmptyTest s).seq k).state = .tripped := by
  obtain ⟨-, e⟩ | ⟨-, e⟩ := millEmptyTest_cases s <;> rw [e]
  · rw [millEmpty_state, tripped_emptied k h]
    rfl
  · exact h

/-! ## Creations -/

/-- The trip matrix as a creation hands its record on, before the test for mill empty (R157). -/
def handed (key : Key) (s : State) : State :=
  handCreation (newRecord key s) (s.withTmx { s.tmx with table := s.tmx.table ++ [newRecord key s] })

/-- A creation's record handed on, and the test for mill empty where that is not left to the event's end (R79). -/
def handedTest (inTracker : Bool) (key : Key) (s : State) : State :=
  if !inTracker && leftRolling (s.withTmx { s.tmx with table := s.tmx.table ++ [newRecord key s] }) (handed key s) then
    millEmptyTest (handed key s)
  else handed key s

theorem createRecord_eq (inTracker : Bool) (key : Key) (s : State) :
    createRecord inTracker key s = evalScopes (tripNotice key (handedTest inTracker key s)) := rfl

theorem handed_recordOf (key key' : Key) {s : State} (hnew : s.recordOf key = none) :
    (handed key s).recordOf key' = if key' = key then some (newRecord key s) else s.recordOf key' := by
  rw [← recordOf_addRecord key key' s hnew]
  exact recordOf_congr (by rw [handed, handCreation_tmx]; rfl) key'

theorem aged_handedTest (inTracker : Bool) (key key' : Key) (s : State) : Aged key' (handed key s) (handedTest inTracker key s) := by
  unfold handedTest
  split
  · exact aged_millEmptyTest key' _
  · exact .refl key' _

theorem aged_created (inTracker : Bool) (key key' : Key) (s : State) : Aged key' (handed key s) (createRecord inTracker key s) :=
  (aged_handedTest inTracker key key' s).trans
    ((aged_of_table (congrArg TripMatrix.table (tripNotice_tmx key _))).trans (aged_evalScopes key' _))

/-- A creation leaves its record, RAISED or HELD (R154, R155). -/
theorem createRecord_record (inTracker : Bool) (key : Key) {s : State} (hnew : s.recordOf key = none) :
    (createRecord inTracker key s).recordOf key = some (newRecord key s) ∨ key.hasScope = true ∧
      (createRecord inTracker key s).recordOf key = some { newRecord key s with state := .held } := by
  have haged := aged_created inTracker key key s
  unfold Aged at haged
  rw [handed_recordOf key key hnew, if_pos rfl] at haged
  exact haged

/-- A creation makes other records gone at most. -/
theorem createRecord_other (inTracker : Bool) {key key' : Key} {s : State} (hnew : s.recordOf key = none) (hne : key' ≠ key) :
    Aged key' s (createRecord inTracker key s) := by
  have haged := aged_created inTracker key key' s
  unfold Aged at haged ⊢
  rwa [handed_recordOf key key' hnew, if_neg hne] at haged

/-- Out of its scope a new record is HELD (R139, R155). -/
theorem createRecord_held (inTracker : Bool) (key : Key) {s : State} (hnew : s.recordOf key = none)
    (hscope : scopeHolds (createRecord inTracker key s) key = false) :
    (createRecord inTracker key s).recordOf key = some { newRecord key s with state := .held } := by
  rw [createRecord_eq, scopeHolds_evalScopes] at hscope
  have hrec : Aged key (handed key s) (tripNotice key (handedTest inTracker key s)) :=
    (aged_handedTest inTracker key key s).trans (aged_of_table (by simp))
  rw [createRecord_eq, recordOf_evalScopes, if_pos hscope]
  unfold Aged at hrec
  rw [handed_recordOf key key hnew, if_pos rfl] at hrec
  obtain e | ⟨-, e⟩ := hrec <;> rw [e] <;> rfl

/-- A record whose action opens no stand is handed on without a change of state. -/
theorem handed_state (key : Key) {s : State} (hlow : (newRecord key s).action.openClass = false) (k : Stand) :
    ((handed key s).seq k).state = (s.seq k).state := by
  unfold handed
  rw [handCreation_seq, hlow]
  exact (evalDemand_record_keeps _ _ _).1

theorem handedTest_low (inTracker : Bool) (key : Key) {s : State} (hlow : (newRecord key s).action.openClass = false) :
    handedTest inTracker key s = handed key s := by
  unfold handedTest
  rw [if_neg]
  rw [Bool.and_eq_true, not_and]
  intro _
  unfold leftRolling
  rw [Bool.not_eq_true, List.any_eq_false]
  intro k _
  rw [handed_state key hlow k]
  have e : (s.withTmx { s.tmx with table := s.tmx.table ++ [newRecord key s] }).seq k = s.seq k := rfl
  rw [e]
  simp

/-- A creation whose action opens no stand moves none (R115). -/
theorem createRecord_low_state (inTracker : Bool) (key : Key) {s : State} (hlow : (newRecord key s).action.openClass = false)
    (k : Stand) : ((createRecord inTracker key s).seq k).state = (s.seq k).state := by
  rw [createRecord_eq, handedTest_low inTracker key hlow, evalScopes_state, tripNotice_seq, handed_state key hlow]

/-- A creation whose action opens no stand leaves a record in scope RAISED. -/
theorem createRecord_low_record (inTracker : Bool) (key : Key) {s : State} (hnew : s.recordOf key = none)
    (hlow : (newRecord key s).action.openClass = false) (hscope : scopeHolds (createRecord inTracker key s) key = true) :
    (createRecord inTracker key s).recordOf key = some (newRecord key s) := by
  rw [createRecord_eq, handedTest_low inTracker key hlow] at hscope ⊢
  rw [scopeHolds_evalScopes] at hscope
  rw [recordOf_evalScopes, hscope, if_neg (by decide), recordOf_congr (s := handed key s) (by simp), handed_recordOf key key hnew,
    if_pos rfl]

/-- A creation opens a stand of the pass that its record covers (R122). -/
theorem createRecord_trips (inTracker : Bool) (key : Key) {s : State} (k : Stand)
    (hopen : (newRecord key s).action.openClass = true) (hcovers : (newRecord key s).covers k = true)
    (hpass : (s.seq k).state.inPass = true) : ((createRecord inTracker key s).seq k).state = .tripped := by
  have htripped : ((handed key s).seq k).state = .tripped := by
    unfold handed
    rw [handCreation_seq, hopen, hcovers]
    refine (evalDemand_record_keeps _ _ _).1.trans ?_
    show ((s.seq k).opened _ _ _).state = .tripped
    unfold SeqRecord.opened
    rw [if_pos hpass]
    exact (evalDemand_record_keeps _ _ _).1
  rw [createRecord_eq, evalScopes_state, tripNotice_seq]
  unfold handedTest
  split
  · exact tripped_millEmptyTest k htripped
  · exact htripped

/-! ## Raising a key -/

/-- The raise of a key re-raises a HELD record, and leaves one that is present (R154). -/
def reraised (r : TripRecord) : TripRecord :=
  if r.state = .held then { r with state := .raised, occ := satSucc 255 r.occ } else r

theorem raiseKey_of_record (inTracker : Bool) {key : Key} {s : State} {r : TripRecord} (h : s.recordOf key = some r) :
    (raiseKey inTracker key s).ssq = s.ssq ∧ (raiseKey inTracker key s).stk = s.stk ∧ (raiseKey inTracker key s).gce = s.gce ∧
      (raiseKey inTracker key s).sch = s.sch ∧
      ∀ key', (raiseKey inTracker key s).recordOf key' = if key' = key then some (reraised r) else s.recordOf key' := by
  have hself (key' : Key) (q : TripRecord) (hq : reraised r = q) (hs : s.recordOf key = some q) :
      s.recordOf key' = if key' = key then some (reraised r) else s.recordOf key' := by
    split
    next e => rw [e, hs, hq]
    next => rfl
  unfold raiseKey
  rw [h]
  dsimp only
  split
  next hstate =>
    refine ⟨by simp, by simp, by simp, by simp, fun key' => ?_⟩
    rw [recordOf_congr (congrArg TripMatrix.table (tripNotice_tmx key _)),
      recordOf_modRecord key key' (fun r => { r with state := .raised, occ := satSucc 255 r.occ }) (fun _ => rfl)]
    split
    next e =>
      rw [e, h, reraised, if_pos hstate]
      rfl
    next => rfl
  next hstate => exact ⟨rfl, rfl, rfl, rfl, fun key' => hself key' r (if_neg (by rw [hstate]; decide)) h⟩
  next hstate => exact ⟨rfl, rfl, rfl, rfl, fun key' => hself key' r (if_neg (by rw [hstate]; decide)) h⟩

theorem raiseKey_of_none (inTracker : Bool) {key : Key} {s : State} (h : s.recordOf key = none) :
    raiseKey inTracker key s = createRecord inTracker key s := by
  unfold raiseKey
  rw [h]

/-- A raise makes other keys gone at most. -/
theorem raiseKey_other (inTracker : Bool) {key key' : Key} (hne : key' ≠ key) (s : State) : Aged key' s (raiseKey inTracker key s) := by
  cases h : s.recordOf key with
  | none =>
    rw [raiseKey_of_none inTracker h]
    exact createRecord_other inTracker h hne
  | some r =>
    refine .inl ?_
    rw [(raiseKey_of_record inTracker h).2.2.2.2, if_neg hne]

theorem goneKey_other {key key' : Key} (hne : key' ≠ key) (s : State) : Aged key' s (goneKey key s) := by
  refine .inl ?_
  rw [recordOf_goneKey, if_neg hne]

/-- A raised key of a condition without a scope is present (R140). -/
theorem raiseKey_present (inTracker : Bool) {key : Key} (hkey : key.hasScope = false) (s : State) :
    (raiseKey inTracker key s).present key = true := by
  rw [present_iff]
  cases h : s.recordOf key with
  | none =>
    rw [raiseKey_of_none inTracker h]
    obtain e | ⟨hhasScope, -⟩ := createRecord_record inTracker key h
    · exact ⟨_, e, (fun hs => nomatch hs)⟩
    · exact nomatch hkey.symm.trans hhasScope
  | some r =>
    rw [(raiseKey_of_record inTracker h).2.2.2.2, if_pos rfl]
    refine ⟨_, rfl, ?_⟩
    unfold reraised
    split
    · exact (fun hs => nomatch hs)
    · assumption

theorem goneKey_present (key : Key) (s : State) : (goneKey key s).present key = false := by
  rw [present_eq_false]
  intro r hr
  rw [recordOf_goneKey, if_pos rfl] at hr
  exact gone_held hr

end Sys2Proof.Machine
end

section
/-! PROOFS. Samples and lapses of the channels at the trip matrix and the sequencer: O20, O21, O22. -/

namespace Sys2Proof.Machine

/-! ## SAMPLE_STALE -/

theorem threaded_iff_or (st : StandState) : st.threaded = true ↔ st = .thread ∨ st = .roll ∨ st = .tail := by cases st <;> decide

theorem openClass_false_iff (a : Action) : a.openClass = false ↔ a = .note ∨ a = .freeze := by cases a <;> decide

theorem covers_stand {r : TripRecord} {c : StandCond} {k : Stand} (hkey : r.key = .stand c k) (hopen : r.action.openClass = true) :
    r.covers k = true := by
  unfold TripRecord.covers
  rw [hkey]
  cases ha : r.action <;> simp [ha, Action.openClass] at hopen ⊢

theorem satSucc_min (bound n : Nat) : satSucc bound n = min bound (n + 1) := by
  unfold satSucc
  split <;> omega

theorem reraised_eq (r : TripRecord) :
    reraised r = if r.state = .held then { r with state := .raised, occ := min 255 (r.occ + 1) } else r := by
  unfold reraised
  rw [satSucc_min]

/-- The raise of SAMPLE_STALE for a stand of the coil (R144, R154): an action that opens the stand ends the scope. -/
theorem staleRecorded_raise {k : Stand} {s u : State} (hrec : u.recordOf (.stand .sampleStale k) = s.recordOf (.stand .sampleStale k))
    (hactions : u.sch.config.actions = s.sch.config.actions) (hms : u.ms = s.ms) (hstate : (u.seq k).state.threaded = true) :
    StaleRecorded k s (raiseKey false (.stand .sampleStale k) u) := by
  unfold StaleRecorded
  rw [← hrec]
  cases h : u.recordOf (.stand .sampleStale k) with
  | some r =>
    refine ⟨reraised r, ?_, ?_⟩
    · rw [(raiseKey_of_record false h).2.2.2.2, if_pos rfl]
    · exact reraised_eq r
  | none =>
    rw [raiseKey_of_none false h]
    have haction : (newRecord (.stand .sampleStale k) u).action = vget s.sch.config.actions 5 := by
      rw [← hactions]
      rfl
    have hpass : (u.seq k).state.inPass = true := by
      obtain hs | hs | hs := (threaded_iff_or _).mp hstate <;> rw [hs] <;> rfl
    cases hopen : (newRecord (.stand .sampleStale k) u).action.openClass with
    | true =>
      have hscope : scopeHolds (createRecord false (.stand .sampleStale k) u) (.stand .sampleStale k) = false := by
        show (((createRecord false (.stand .sampleStale k) u).seq k).state).threaded = false
        rw [createRecord_trips false (.stand .sampleStale k) k hopen (covers_stand rfl hopen) hpass]
        rfl
      refine ⟨_, createRecord_held false _ h hscope, haction, rfl, hms, (if_neg fun hlow => ?_).symm⟩
      rw [(openClass_false_iff _).mpr hlow] at hopen
      contradiction
    | false =>
      have hscope : scopeHolds (createRecord false (.stand .sampleStale k) u) (.stand .sampleStale k) = true := by
        show (((createRecord false (.stand .sampleStale k) u).seq k).state).threaded = true
        rw [createRecord_low_state false (.stand .sampleStale k) hopen k, hstate]
      exact ⟨_, createRecord_low_record false _ h hopen hscope, haction, rfl, hms, (if_pos ((openClass_false_iff _).mp hopen)).symm⟩

theorem StaleRecorded.congr {k : Stand} {s t u : State} (h : t.recordOf (.stand .sampleStale k) = u.recordOf (.stand .sampleStale k))
    (hs : StaleRecorded k s u) : StaleRecorded k s t := by
  unfold StaleRecorded
  rw [h]
  exact hs

theorem chanRole_force (k : Stand) : chanRole (forceCh k) = some (k, 0) := by revert k; decide
theorem chanRole_gap (k : Stand) : chanRole (gapCh k) = some (k, 1) := by revert k; decide
theorem chanRole_drive (k : Stand) : chanRole (driveCh k) = some (k, 2) := by revert k; decide

theorem chanRole_eq_force {c : Chan} {k : Stand} (h : chanRole c = some (k, 0)) : c = forceCh k := by
  revert c k; decide

theorem chanRole_eq_gap {c : Chan} {k : Stand} (h : chanRole c = some (k, 1)) : c = gapCh k := by
  revert c k; decide

/-- A lapse of a stand's force or gap channel (R144). -/
theorem takeLapse_stand {c : Chan} {k : Stand} (h : c = forceCh k ∨ c = gapCh k) (s : State) :
    takeLapse c s =
      if (s.seq k).state.threaded then raiseKey false (.stand .sampleStale k) s else s := by
  unfold takeLapse
  obtain rfl | rfl := h
  · rw [chanRole_force]
    rfl
  · rw [chanRole_gap]
    rfl

/-- A lapse that nobody takes (R33, R144). -/
theorem takeLapse_untaken {c : Chan} {s : State} (h : ∀ k, c = forceCh k ∨ c = gapCh k → (s.seq k).state.threaded = false) :
    takeLapse c s = s := by
  have hstand {k : Stand} (hk : c = forceCh k ∨ c = gapCh k) : takeLapse c s = s := by
    rw [takeLapse_stand hk, h k hk]
    rfl
  cases hrole : chanRole c with
  | none =>
    unfold takeLapse
    rw [hrole]
  | some role =>
    obtain ⟨k, n⟩ := role
    match n with
    | 0 => exact hstand (.inl (chanRole_eq_force hrole))
    | 1 => exact hstand (.inr (chanRole_eq_gap hrole))
    | n + 2 =>
      unfold takeLapse
      rw [hrole]
      rfl

/-- Settles O22: the lapse is taken of the channel already STALE. -/
theorem freshnessExpiry : Obligations.FreshnessExpiry := by
  intro c s ⟨hrun, hline⟩
  have hexec : exec (.freshnessExpiry c) s = .next (channelExpiry c s) := event_of_not_inReset (channelExpiry c) s hrun
  unfold channelExpiry at hexec
  have hexpired : (s.chan c).expired = true ↔ (s.chan c).state = .fresh ∧ (s.chan c).remaining = 0 := by
    unfold Channel.expired
    rw [Bool.and_eq_true, beq_iff_eq, beq_iff_eq]
  refine ⟨fun hnot => hexec.trans (congrArg _ (if_neg (mt hexpired.mp hnot))), fun hfresh hrem => ?_⟩
  rw [if_pos (hexpired.mpr ⟨hfresh, hrem⟩)] at hexec
  obtain ⟨l, hend, -⟩ := endEvent_after (t := expireChannel c s) hline (by simp [expireChannel]) (by simp [expireChannel])
  refine ⟨_, hexec, ?_, fun k hk hstate => ?_⟩
  · rw [hend]
    simp [expireChannel, State.modChan, State.chan]
  · have hthreaded := (threaded_iff_or _).mpr hstate
    have e : expireChannel c s = raiseKey false (.stand .sampleStale k) (s.modChan c fun ch => { ch with state := .stale }) := by
      refine (takeLapse_stand hk _).trans (if_pos ?_)
      exact hthreaded
    refine StaleRecorded.congr (u := expireChannel c s) (by rw [hend]; rfl) ?_
    rw [e]
    exact staleRecorded_raise rfl rfl rfl hthreaded

/-! ## Frames -/

theorem takeFrame_dropped {frame : List Byte} {s : State}
    (h : fieldCheck frame = false ∨ (fieldFields frame).quantity = 0 ∨ (fieldFields frame).quantity = 15 ∨
      ∀ n, (vget s.flc.accept n).accepts (fieldFields frame).tag (fieldFields frame).quantity = false) :
    takeFrame frame s = s := by
  unfold takeFrame
  dsimp only
  split
  · rfl
  next hframe =>
    split
    · rfl
    next hquantity =>
      obtain hcheck | hzero | hfifteen | hno := h
      · rw [hcheck, Bool.and_false] at hframe
        exact absurd rfl hframe
      · exact absurd (.inl hzero) hquantity
      · exact absurd (.inr hfifteen) hquantity
      · have hwin : winningEntry s.flc.accept (fieldFields frame).tag (fieldFields frame).quantity = none :=
          List.find?_eq_none.mpr fun n _ => by simp [hno n]
        rw [hwin]

theorem deliver_of_fault {c : Chan} {hit : EntryNo} {f : FieldFrame} {s : State} (hnew : (s.chan c).lastSeq ≠ some f.seq)
    (hfault : 2 ≤ f.health) :
    deliver c hit f s =
      if (s.chan c).state = .invalid then s.modChan c fun ch => ch.fault f.seq hit
      else takeLapse c (s.modChan c fun ch => ch.fault f.seq hit) := by
  unfold deliver
  rw [if_neg hnew, if_pos hfault]

theorem deliver_of_sample {c : Chan} {hit : EntryNo} {f : FieldFrame} {s : State} (hnew : (s.chan c).lastSeq ≠ some f.seq)
    (hgood : f.health < 2) :
    deliver c hit f s = evalScopes (takeSample c f.value (s.modChan c fun ch =>
      ch.sample f.seq hit (f.health == 1) f.value (vget s.sch.config.freshness c))) := by
  unfold deliver
  rw [if_neg hnew, if_neg (by omega)]

theorem takeSample_force (k : Stand) (value : Int) (s : State) :
    takeSample (forceCh k) value s = clearStale k (takeForce k value s) := by
  unfold takeSample
  rw [chanRole_force]
  rfl

theorem takeSample_gap (k : Stand) (value : Int) (s : State) :
    takeSample (gapCh k) value s = windowTest k (clearStale k (takeWindow k value s)) := by
  unfold takeSample
  rw [chanRole_gap]
  rfl

theorem takeSample_drive (k : Stand) (value : Int) (s : State) :
    takeSample (driveCh k) value s = levelKey (.stand .driveFault k) (decide (value ≠ 0)) s := by
  unfold takeSample
  rw [chanRole_drive]
  rfl

/-- A change of a counter, the key then raised, gone or left (R141). -/
theorem takeForce_other {key : Key} {k : Stand} (hne : key ≠ .stand .forceHigh k) (value : Int) (s : State) :
    Aged key s (takeForce k value s) := by
  have hcounted (counts : Vector Nat 8) : Aged key s (s.withTmx { s.tmx with forceCnt := counts }) := aged_of_table rfl
  unfold takeForce
  split
  · dsimp only
    split
    · exact (hcounted _).trans (raiseKey_other false hne _)
    · split
      · exact hcounted _
      · exact (hcounted _).trans (goneKey_other hne _)
  · exact .refl key s

theorem takeWindow_other {key : Key} {k : Stand} (hne : key ≠ .stand .gapWindow k) (value : Int) (s : State) :
    Aged key s (takeWindow k value s) := by
  have hcounted (counts : Vector Nat 8) : Aged key s (s.withTmx { s.tmx with gapCnt := counts }) := aged_of_table rfl
  unfold takeWindow
  split
  · dsimp only
    split
    · exact (hcounted _).trans (raiseKey_other false hne _)
    · split
      · exact hcounted _
      · exact (hcounted _).trans (goneKey_other hne _)
  · exact .refl key s

theorem windowTest_table (k : Stand) (s : State) : (windowTest k s).tmx = s.tmx := by simp

/-- A sample that leaves both channels of its stand FRESH makes SAMPLE_STALE gone (R144). -/
theorem takeSample_stale {c : Chan} {k : Stand} (hc : c = forceCh k ∨ c = gapCh k) (value : Int) {s : State}
    (hfresh : s.inputsFresh k = true) :
    (takeSample c value s).recordOf (.stand .sampleStale k) = (s.recordOf (.stand .sampleStale k)).bind TripRecord.gone := by
  have hclear {u : State} (haged : Aged (.stand .sampleStale k) s u) (hu : u.inputsFresh k = true) :
      (clearStale k u).recordOf (.stand .sampleStale k) = (s.recordOf (.stand .sampleStale k)).bind TripRecord.gone := by
    unfold clearStale
    rw [if_pos hu, recordOf_goneKey, if_pos rfl]
    exact haged.gone
  obtain rfl | rfl := hc
  · rw [takeSample_force]
    exact hclear (takeForce_other (by simp) value s) (by rw [← hfresh]; simp [State.inputsFresh, State.chan])
  · rw [takeSample_gap, recordOf_congr (congrArg TripMatrix.table (windowTest_table k _))]
    exact hclear (takeWindow_other (by simp) value s) (by rw [← hfresh]; simp [State.inputsFresh, State.chan])

/-- The gone of a record removes an ACKED one and leaves any other HELD (R155). -/
theorem gone_eq (r : TripRecord) : r.gone = if r.state = .acked then none else some { r with state := .held } := by
  obtain ⟨key, st, action, ms, coil, seg, occ, first⟩ := r
  cases st <;> rfl

/-- Settles O20: the frame's channel record, the lapse behind a FAULT, and the gone behind a sample. -/
theorem fieldFrameRecorded : Obligations.FieldFrameRecorded := by
  intro frame s hrun
  obtain ⟨hreset, hline⟩ := id hrun
  constructor
  · intro hdrop
    have hexec : exec (.fieldFrame frame) s = .next (fieldFrameEvent frame s) := event_of_not_inReset _ s hreset
    rw [hexec, fieldFrameEvent, takeFrame_dropped hdrop, endEvent_of_lineOk s hline]
  rintro n c hfor rfl hnew
  have hexec := exec_fieldFrame_of_frameFor frame n s hrun hfor
  have hmch := deliver_mch (entryChannel s n) n (fieldFields frame) s
  rw [if_neg hnew] at hmch
  obtain ⟨l, hend, -⟩ := endEvent_after (t := deliver (entryChannel s n) n (fieldFields frame) s) hline (by simp) (by simp)
  generalize entryChannel s n = c at *
  have htable (key : Key) : (endEvent (deliver c n (fieldFields frame) s)).recordOf key =
      (deliver c n (fieldFields frame) s).recordOf key := by
    rw [hend]
    rfl
  refine ⟨_, hexec, ?_, fun hfault => ⟨fun k hk hvalid hstate => ?_, fun huntaken => ?_⟩, fun hgood k hk => ?_⟩
  · rw [hend]
    refine hmch.trans ?_
    split
    · rfl
    · unfold Channel.sample
      congr 2
  · refine StaleRecorded.congr (htable _) ?_
    have hthreaded := (threaded_iff_or _).mpr hstate
    have e : deliver c n (fieldFields frame) s =
        raiseKey false (.stand .sampleStale k) (s.modChan c fun ch => ch.fault (fieldFields frame).seq n) := by
      rw [deliver_of_fault hnew hfault, if_neg hvalid]
      exact (takeLapse_stand hk _).trans (if_pos hthreaded)
    rw [e]
    exact staleRecorded_raise rfl rfl rfl hthreaded
  · have e : deliver c n (fieldFields frame) s = s.modChan c fun ch => ch.fault (fieldFields frame).seq n := by
      rw [deliver_of_fault hnew hfault]
      split
      · rfl
      next hvalid =>
        refine takeLapse_untaken fun k hk => ?_
        have hno := huntaken.resolve_left hvalid k hk
        cases hst : (s.seq k).state <;> simp_all [StandState.threaded, State.seq]
    have hend := endEvent_of_same_hlk (t := s.modChan c fun ch => ch.fault (fieldFields frame).seq n) hline rfl
    rw [e, hend]
    rfl
  · have hc : c = forceCh k ∨ c = gapCh k := hk.imp (·.1) (·.1)
    have hfresh : (s.modChan c fun ch => ch.sample (fieldFields frame).seq n ((fieldFields frame).health == 1)
        (fieldFields frame).value (vget s.sch.config.freshness c)).inputsFresh k = true := by
      unfold State.inputsFresh
      rw [modChan_chan, modChan_chan]
      obtain ⟨rfl, hother⟩ | ⟨rfl, hother⟩ := hk
      · rw [if_pos rfl]
        split
        · rfl
        · rw [hother]
          rfl
      · rw [if_pos rfl]
        split
        · rfl
        · rw [hother]
          rfl
    have hrec : (deliver c n (fieldFields frame) s).recordOf (.stand .sampleStale k) =
        (s.recordOf (.stand .sampleStale k)).bind TripRecord.gone := by
      rw [deliver_of_sample hnew hgood]
      have hstale := takeSample_stale hc (fieldFields frame).value hfresh
      obtain e | ⟨-, e⟩ := aged_evalScopes (.stand .sampleStale k) (takeSample c (fieldFields frame).value (s.modChan c fun ch =>
        ch.sample (fieldFields frame).seq n ((fieldFields frame).health == 1) (fieldFields frame).value
          (vget s.sch.config.freshness c))) <;> rw [e, hstale]
      · rfl
      · exact gone_gone _
    refine ⟨?_, fun r hr => ?_⟩
    · rw [present_eq_false]
      intro r hr
      rw [htable, hrec] at hr
      exact gone_held hr
    · rw [htable, hrec, hr]
      exact gone_eq r

/-! ## The conditions on samples -/

/-- What a sample leaves of a persistence counter and whether it raises the key, for a key in scope and absent (R141). -/
theorem persist_counted (beyond : Bool) (needed count : Nat) :
    persist beyond true false needed count =
      if beyond then (satSucc 8 count, decide (needed ≤ satSucc 8 count)) else (0, false) := by
  cases beyond <;> rfl

/-- A change that the sampled condition of a key does not notice. -/
structure SameCondition (key : Key) (s t : State) : Prop where
  record : t.recordOf key = s.recordOf key
  scope : scopeHolds t key = scopeHolds s key
  force : t.tmx.forceCnt = s.tmx.forceCnt
  gap : t.tmx.gapCnt = s.tmx.gapCnt

theorem SameCondition.trans {key : Key} {s t u : State} (h : SameCondition key s t) (g : SameCondition key t u) :
    SameCondition key s u :=
  ⟨g.record.trans h.record, g.scope.trans h.scope, g.force.trans h.force, g.gap.trans h.gap⟩

theorem SameCondition.present {key : Key} {s t : State} (h : SameCondition key s t) : t.present key = s.present key :=
  present_congr h.record

theorem sameCondition_goneOther {key key' : Key} (hne : key ≠ key') (s : State) : SameCondition key s (goneKey key' s) :=
  ⟨by rw [recordOf_goneKey, if_neg hne], scopeHolds_goneKey key' key s, (goneKey_counts key' s).1, (goneKey_counts key' s).2⟩

theorem sameCondition_goneAbsent {key : Key} {s : State} (h : s.present key = false) : SameCondition key s (goneKey key s) :=
  ⟨by rw [recordOf_goneKey, if_pos rfl, gone_of_not_present h], scopeHolds_goneKey key key s, (goneKey_counts key s).1,
    (goneKey_counts key s).2⟩

theorem sameCondition_clearStale {key : Key} {k : Stand} (hne : key ≠ .stand .sampleStale k) (s : State) :
    SameCondition key s (clearStale k s) := by
  unfold clearStale
  split
  · exact sameCondition_goneOther hne s
  · exact ⟨rfl, rfl, rfl, rfl⟩

/-- The scopes evaluated leave the record and the counters of a key in scope, and the record of an absent one. -/
theorem evalScopes_inScope {key : Key} {s : State} (hscope : scopeHolds s key = true) :
    (evalScopes s).recordOf key = s.recordOf key := by
  rw [recordOf_evalScopes, hscope]
  rfl

theorem evalScopes_force {s : State} {k : Stand} (hscope : scopeHolds s (.stand .forceHigh k) = true) :
    vget (evalScopes s).tmx.forceCnt k = vget s.tmx.forceCnt k := by
  rw [(evalScopes_counts s).1, clearCounters_force, hscope]
  rfl

theorem evalScopes_gap {s : State} {k : Stand} (hscope : scopeHolds s (.stand .gapWindow k) = true) :
    vget (evalScopes s).tmx.gapCnt k = vget s.tmx.gapCnt k := by
  rw [(evalScopes_counts s).2, clearCounters_gap, hscope]
  rfl

/-- The two sampled conditions with a persistence counter, one step of either (R141). -/
def countForce (k : Stand) (n : Nat) (s : State) : State := s.withTmx { s.tmx with forceCnt := vset s.tmx.forceCnt k n }

def countGap (k : Stand) (n : Nat) (s : State) : State := s.withTmx { s.tmx with gapCnt := vset s.tmx.gapCnt k n }

theorem countForce_force (k : Stand) (n : Nat) (s : State) : vget (countForce k n s).tmx.forceCnt k = n := vget_vset_self _ _ _

theorem countGap_gap (k : Stand) (n : Nat) (s : State) : vget (countGap k n s).tmx.gapCnt k = n := vget_vset_self _ _ _

/-- A force sample of a stand whose FORCE_HIGH is in scope and absent (R142). -/
theorem takeForce_eq {k : Stand} {r : StandRecord} {s : State} (value : Int) (hr : s.record k = some r)
    (hscope : scopeHolds s (.stand .forceHigh k) = true) (habsent : s.present (.stand .forceHigh k) = false) :
    takeForce k value s =
      if (r.fMax : Int) < value then
        (if r.pF ≤ satSucc 8 (vget s.tmx.forceCnt k) then
          raiseKey false (.stand .forceHigh k) (countForce k (satSucc 8 (vget s.tmx.forceCnt k)) s)
        else countForce k (satSucc 8 (vget s.tmx.forceCnt k)) s)
      else goneKey (.stand .forceHigh k) (countForce k 0 s) := by
  unfold takeForce
  rw [hr]
  dsimp only
  rw [hscope, habsent, persist_counted]
  by_cases hbeyond : (r.fMax : Int) < value
  · simp only [hbeyond, decide_true, if_true]
    by_cases hraise : r.pF ≤ satSucc 8 (vget s.tmx.forceCnt k) <;> simp only [hraise, decide_true, decide_false, if_true, if_false] <;> rfl
  · simp only [hbeyond, decide_false, if_false]
    rfl

/-- A gap sample of a stand whose GAP_WINDOW is in scope and absent (R143). -/
theorem takeWindow_eq {k : Stand} {r : StandRecord} {ref : Int} {s : State} (value : Int) (hr : s.record k = some r)
    (href : (s.gap k).windowRef = some ref) (hscope : scopeHolds s (.stand .gapWindow k) = true)
    (habsent : s.present (.stand .gapWindow k) = false) :
    takeWindow k value s =
      if (r.w : Int) < (value - ref).natAbs then
        (if r.pW ≤ satSucc 8 (vget s.tmx.gapCnt k) then
          raiseKey false (.stand .gapWindow k) (countGap k (satSucc 8 (vget s.tmx.gapCnt k)) s)
        else countGap k (satSucc 8 (vget s.tmx.gapCnt k)) s)
      else goneKey (.stand .gapWindow k) (countGap k 0 s) := by
  unfold takeWindow
  rw [hr, href]
  dsimp only
  rw [hscope, habsent, persist_counted]
  by_cases hbeyond : (r.w : Int) < (value - ref).natAbs
  · simp only [hbeyond, decide_true, if_true]
    by_cases hraise : r.pW ≤ satSucc 8 (vget s.tmx.gapCnt k) <;> simp only [hraise, decide_true, decide_false, if_true, if_false] <;> rfl
  · simp only [hbeyond, decide_false, if_false]
    rfl

theorem windowTest_seq (k j : Stand) (s : State) :
    ((windowTest k s).seq j).state =
      if j = k ∧ (s.seq k).state = .setup ∧ windowTestPasses k s = true then .ready else (s.seq j).state := by
  obtain ⟨hstate, hpasses, e⟩ | ⟨hnot, e⟩ := windowTest_cases k s <;> rw [e]
  · unfold placeStand
    rw [standNotice_seq, setStandState_seq]
    by_cases hj : j = k
    · rw [if_pos hj, if_pos ⟨hj, hstate, hpasses⟩]
      exact (evalDemand_record_keeps _ _ _).1
    · rw [if_neg hj, if_neg fun h => hj h.1]
  · rw [if_neg fun h => hnot h.2]

theorem sameCondition_windowTest (k : Stand) (s : State) : SameCondition (.stand .gapWindow k) s (windowTest k s) := by
  refine ⟨recordOf_congr (congrArg TripMatrix.table (windowTest_table k s)) _, ?_, by simp, by simp⟩
  have hpass : ((windowTest k s).seq k).state.inPass = (s.seq k).state.inPass := by
    rw [windowTest_seq]
    split
    next h =>
      rw [h.2.1]
      rfl
    next => rfl
  have hgap : (windowTest k s).gap k = s.gap k := by simp [State.gap]
  show (((windowTest k s).seq k).state.inPass && _ && _) = ((s.seq k).state.inPass && _ && _)
  rw [hpass, hgap]

theorem inWindow_iff (ref : Int) (w : Nat) (value : Int) :
    inInt (ref - w) (ref + w) value = true ↔ (value - ref).natAbs ≤ w := by
  unfold inInt
  simp only [decide_eq_true_eq]
  omega

/-- DRIVE_FAULT has no scope: it is present as the last sample left it (R145). -/
theorem levelKey_drive (k : Stand) (holds : Bool) (s : State) :
    (evalScopes (levelKey (.stand .driveFault k) holds s)).present (.stand .driveFault k) = holds := by
  rw [present_congr (evalScopes_inScope rfl)]
  unfold levelKey
  cases holds with
  | true => exact raiseKey_present false rfl s
  | false => exact goneKey_present _ s

theorem recordOf_evalScopes_ne {key : Key} {s : State} {r : TripRecord} (hr : s.recordOf key = some r) (hstate : r.state ≠ .acked) :
    (evalScopes s).recordOf key ≠ none := by
  obtain e | ⟨-, e⟩ := aged_evalScopes key s <;> rw [e, hr]
  · exact Option.some_ne_none r
  · rw [Option.bind_some, gone_eq, if_neg hstate]
    exact Option.some_ne_none _

/-- The raise of an absent key leaves a record that is not ACKED. -/
theorem raiseKey_absent (inTracker : Bool) {key : Key} {s : State} (habsent : s.present key = false) :
    ∃ r, (raiseKey inTracker key s).recordOf key = some r ∧ r.state ≠ .acked := by
  cases h : s.recordOf key with
  | none =>
    rw [raiseKey_of_none inTracker h]
    obtain e | ⟨-, e⟩ := createRecord_record inTracker key h <;> exact ⟨_, e, by simp [newRecord]⟩
  | some r =>
    refine ⟨reraised r, by rw [(raiseKey_of_record inTracker h).2.2.2.2, if_pos rfl], ?_⟩
    rw [reraised, if_pos (present_eq_false.mp habsent r h)]
    exact (fun hs => nomatch hs)

/-- What the takers of a force sample leave of FORCE_HIGH, in scope and absent (R141, R142). -/
theorem forceSample_settles {k : Stand} {r : StandRecord} {s : State} (value : Int) (hr : s.record k = some r)
    (hscope : scopeHolds s (.stand .forceHigh k) = true) (habsent : s.present (.stand .forceHigh k) = false) :
    (value ≤ (r.fMax : Int) → vget (evalScopes (takeSample (forceCh k) value s)).tmx.forceCnt k = 0 ∧
        (evalScopes (takeSample (forceCh k) value s)).present (.stand .forceHigh k) = false) ∧
      ((r.fMax : Int) < value → vget s.tmx.forceCnt k < 8 →
        if r.pF ≤ vget s.tmx.forceCnt k + 1 then (evalScopes (takeSample (forceCh k) value s)).recordOf (.stand .forceHigh k) ≠ none
        else vget (evalScopes (takeSample (forceCh k) value s)).tmx.forceCnt k = vget s.tmx.forceCnt k + 1 ∧
          (evalScopes (takeSample (forceCh k) value s)).present (.stand .forceHigh k) = false) := by
  have hsettle {n : Nat} {u : State} (hu : SameCondition (.stand .forceHigh k) (countForce k n s) u) :
      vget (evalScopes (clearStale k u)).tmx.forceCnt k = n ∧
        (evalScopes (clearStale k u)).present (.stand .forceHigh k) = false := by
    have hclear := hu.trans (sameCondition_clearStale (k := k) (by simp) u)
    have hscope' : scopeHolds (clearStale k u) (.stand .forceHigh k) = true := hclear.scope.trans hscope
    refine ⟨?_, ?_⟩
    · rw [evalScopes_force hscope', hclear.force, countForce_force]
    · rw [present_congr (evalScopes_inScope hscope'), hclear.present]
      exact habsent
  rw [takeSample_force, takeForce_eq value hr hscope habsent]
  refine ⟨fun hin => ?_, fun hbeyond hlt => ?_⟩
  · rw [if_neg (by omega)]
    exact hsettle (sameCondition_goneAbsent habsent)
  · rw [if_pos hbeyond, satSucc_eq 8 _ (by omega), show min 8 (vget s.tmx.forceCnt k + 1) = vget s.tmx.forceCnt k + 1 by omega]
    split
    · obtain ⟨q, hq, hstate⟩ := raiseKey_absent (s := countForce k (vget s.tmx.forceCnt k + 1) s) false habsent
      exact recordOf_evalScopes_ne ((sameCondition_clearStale (by simp) _).record.trans hq) hstate
    · exact hsettle ⟨rfl, rfl, rfl, rfl⟩

/-- What the takers of a gap sample leave of GAP_WINDOW, in scope and absent (R141, R143). -/
theorem gapSample_settles {k : Stand} {r : StandRecord} {ref : Int} {s : State} (value : Int) (hr : s.record k = some r)
    (href : (s.gap k).windowRef = some ref) (hscope : scopeHolds s (.stand .gapWindow k) = true)
    (habsent : s.present (.stand .gapWindow k) = false) :
    ((value - ref).natAbs ≤ r.w → vget (evalScopes (takeSample (gapCh k) value s)).tmx.gapCnt k = 0 ∧
        (evalScopes (takeSample (gapCh k) value s)).present (.stand .gapWindow k) = false) ∧
      (r.w < (value - ref).natAbs → vget s.tmx.gapCnt k < 8 →
        if r.pW ≤ vget s.tmx.gapCnt k + 1 then (evalScopes (takeSample (gapCh k) value s)).recordOf (.stand .gapWindow k) ≠ none
        else vget (evalScopes (takeSample (gapCh k) value s)).tmx.gapCnt k = vget s.tmx.gapCnt k + 1 ∧
          (evalScopes (takeSample (gapCh k) value s)).present (.stand .gapWindow k) = false) := by
  have hafter (u : State) : SameCondition (.stand .gapWindow k) u (windowTest k (clearStale k u)) :=
    (sameCondition_clearStale (by simp) u).trans (sameCondition_windowTest k _)
  have hsettle {n : Nat} {u : State} (hu : SameCondition (.stand .gapWindow k) (countGap k n s) u) :
      vget (evalScopes (windowTest k (clearStale k u))).tmx.gapCnt k = n ∧
        (evalScopes (windowTest k (clearStale k u))).present (.stand .gapWindow k) = false := by
    have hclear := hu.trans (hafter u)
    have hscope' : scopeHolds (windowTest k (clearStale k u)) (.stand .gapWindow k) = true := hclear.scope.trans hscope
    refine ⟨?_, ?_⟩
    · rw [evalScopes_gap hscope', hclear.gap, countGap_gap]
    · rw [present_congr (evalScopes_inScope hscope'), hclear.present]
      exact habsent
  rw [takeSample_gap, takeWindow_eq value hr href hscope habsent]
  refine ⟨fun hin => ?_, fun hbeyond hlt => ?_⟩
  · rw [if_neg (by omega)]
    exact hsettle (sameCondition_goneAbsent habsent)
  · rw [if_pos (show (r.w : Int) < ((value - ref).natAbs : Int) by omega), satSucc_eq 8 _ (by omega),
      show min 8 (vget s.tmx.gapCnt k + 1) = vget s.tmx.gapCnt k + 1 by omega]
    split
    · obtain ⟨q, hq, hstate⟩ := raiseKey_absent (s := countGap k (vget s.tmx.gapCnt k + 1) s) false habsent
      exact recordOf_evalScopes_ne ((hafter _).record.trans hq) hstate
    · exact hsettle ⟨rfl, rfl, rfl, rfl⟩

/-- A gap sample within the window moves nothing before the window test (R120, R143). -/
theorem takeWindow_within {k : Stand} {r : StandRecord} {value : Int} {s : State} (hr : s.record k = some r)
    (hin : ∀ ref, (s.gap k).windowRef = some ref → (value - ref).natAbs ≤ r.w) :
    (takeWindow k value s).standing = s.standing ∧ (takeWindow k value s).gce = s.gce ∧ (takeWindow k value s).mch = s.mch ∧
      (takeWindow k value s).sch = s.sch := by
  unfold takeWindow
  rw [hr]
  cases href : (s.gap k).windowRef with
  | none => exact ⟨rfl, rfl, rfl, rfl⟩
  | some ref =>
    have hbeyond : decide ((r.w : Int) < (value - ref).natAbs) = false := by
      have := hin ref href
      simp only [decide_eq_false_iff_not]
      omega
    dsimp only
    rw [hbeyond]
    simp only [persist, Bool.not_false, if_true, Bool.false_eq_true, if_false]
    exact ⟨goneKey_standing _ _, by simp, by simp, by simp⟩

theorem clearStale_standing (k : Stand) (s : State) : (clearStale k s).standing = s.standing := by
  unfold clearStale
  split
  · exact goneKey_standing _ s
  · rfl

/-- Settles O21: each condition through its count, and the window test on the sample just recorded. -/
theorem driveAndForceSamples : Obligations.DriveAndForceSamples := by
  intro k frame n s hrun hfor hnew hgood
  have hexec := exec_fieldFrame_of_frameFor frame n s hrun hfor
  obtain ⟨-, hline⟩ := hrun
  rw [deliver_of_sample hnew hgood] at hexec
  generalize entryChannel s n = c at *
  generalize hu : s.modChan c (fun ch => ch.sample (fieldFields frame).seq n ((fieldFields frame).health == 1)
    (fieldFields frame).value (vget s.sch.config.freshness c)) = u at hexec
  obtain ⟨l, hend, -⟩ := endEvent_after (t := evalScopes (takeSample c (fieldFields frame).value u)) hline
    (by rw [← hu]; simp) (by rw [← hu]; simp)
  have htmx : (endEvent (evalScopes (takeSample c (fieldFields frame).value u))).tmx =
      (evalScopes (takeSample c (fieldFields frame).value u)).tmx := by rw [hend]; rfl
  have hrec (key : Key) : (endEvent (evalScopes (takeSample c (fieldFields frame).value u))).recordOf key =
      (evalScopes (takeSample c (fieldFields frame).value u)).recordOf key := recordOf_congr (by rw [htmx]) key
  have hpresent (key : Key) : (endEvent (evalScopes (takeSample c (fieldFields frame).value u))).present key =
      (evalScopes (takeSample c (fieldFields frame).value u)).present key := present_congr (hrec key)
  refine ⟨?_, ?_, ?_, ?_⟩
  · rintro rfl
    refine ⟨_, hexec, ?_⟩
    rw [hpresent, takeSample_drive, levelKey_drive]
  · rintro r hr rfl hscope habsent
    refine ⟨_, hexec, ?_⟩
    have h := forceSample_settles (s := u) (fieldFields frame).value (by rw [← hu]; exact hr) (by rw [← hu]; exact hscope)
      (by rw [← hu]; exact habsent)
    rw [hpresent, htmx, hrec]
    have hcount : vget u.tmx.forceCnt k = vget s.tmx.forceCnt k := by rw [← hu]; rfl
    rwa [hcount] at h
  · rintro r ref hr href rfl hscope habsent
    refine ⟨_, hexec, ?_⟩
    have h := gapSample_settles (s := u) (fieldFields frame).value (by rw [← hu]; exact hr) (by rw [← hu]; exact href)
      (by rw [← hu]; exact hscope) (by rw [← hu]; exact habsent)
    rw [hpresent, htmx, hrec]
    have hcount : vget u.tmx.gapCnt k = vget s.tmx.gapCnt k := by rw [← hu]; rfl
    rwa [hcount] at h
  · rintro r hr rfl hsetup hin
    refine ⟨_, hexec, ?_⟩
    have hur : u.record k = some r := hu ▸ hr
    obtain ⟨hstanding, hgce, hmch, hsch⟩ := takeWindow_within (s := u) hur (by rw [← hu]; exact hin)
    have hst : ((clearStale k (takeWindow k (fieldFields frame).value u)).seq k).state = .setup := by
      have e := congrFun ((clearStale_standing k _).trans hstanding) k
      exact (standing_iff.mp e).1.trans (hu ▸ hsetup)
    have hseq : ((endEvent (evalScopes (takeSample (gapCh k) (fieldFields frame).value u))).seq k).state =
        ((windowTest k (clearStale k (takeWindow k (fieldFields frame).value u))).seq k).state := by
      rw [hend, ← takeSample_gap]
      exact evalScopes_state _ k
    have hpasses : windowTestPasses k (clearStale k (takeWindow k (fieldFields frame).value u)) = true ↔
        (s.gap k).sRef = r.sPreset ∧ ((fieldFields frame).value - r.sPreset).natAbs ≤ r.w := by
      have hrecord : (clearStale k (takeWindow k (fieldFields frame).value u)).record k = some r := by
        rw [← hur]
        simp [State.record, hsch]
      have hgap : (clearStale k (takeWindow k (fieldFields frame).value u)).gap k = s.gap k := by
        rw [← hu]
        rw [← hu] at hgce
        simp [State.gap, hgce]
      have hchan : (clearStale k (takeWindow k (fieldFields frame).value u)).chan (gapCh k) = u.chan (gapCh k) := by
        simp [State.chan]
      have huchan : u.chan (gapCh k) = (s.chan (gapCh k)).sample (fieldFields frame).seq n ((fieldFields frame).health == 1)
          (fieldFields frame).value (vget s.sch.config.freshness (gapCh k)) := by
        rw [← hu, modChan_chan, if_pos rfl]
      unfold windowTestPasses
      rw [hrecord, hgap, hchan, huchan]
      simp only [Bool.and_eq_true, beq_iff_eq, inWindow_iff, Channel.sample, and_true]
    rw [hseq, windowTest_seq, hst]
    simp only [true_and, hpasses]

end Sys2Proof.Machine
end

section
/-! PROOFS. The updates of a stand: what each state sends, the estimate, lock-on and window test, and the ROLL update: O24, O25. -/

namespace Sys2Proof.Machine

/-! ## Arithmetic -/

theorem slewTo_eq (base target : Int) (r : Nat) : slewTo base target r = base + max (-(r : Int)) (min r (target - base)) := by
  unfold slewTo
  exact congrArg (base + ·) (saturate_eq _ _ _ (by omega))

theorem rawEstimate_eq (r : StandRecord) (force gap : Int) :
    rawEstimate r force gap =
      max (-10000) (min 80000 gap) + (max 0 (min 60000 force) * 1000 + r.m / 2) / r.m + r.z := by
  unfold rawEstimate stretch
  rw [saturate_eq _ _ _ (by decide), saturate_eq _ _ _ (by decide)]
  have hpos : ((max 0 (min 60000 force)).toNat : Int) = max 0 (min 60000 force) := Int.toNat_of_nonneg (by omega)
  push_cast
  rw [hpos]

theorem slewBase_eq (g : GapRecord) :
    g.slewBase = match g.lastSent with
      | some q => q.gap
      | none => g.sRef := by
  unfold GapRecord.slewBase
  cases g.lastSent <;> rfl

/-! ## What is sent -/

/-- A setpoint goes to the line or to its slot, or nowhere with the stand's tag 0 (R36, R90). -/
def Sent (k : Stand) (p : Setpoint) (s t : State) : Prop :=
  (t.gap k).sRef = p.gap ∧
    (vget s.sch.config.tags k = 0 →
      t.flc = { s.flc with slots := vset s.flc.slots k none } ∧ (t.gap k).lastSent = (s.gap k).lastSent) ∧
    (vget s.sch.config.tags k ≠ 0 →
      (s.flc.tx = none →
        t.flc.tx =
          some { stand := k, tag := vget s.sch.config.tags k, seq := vget s.flc.seqs k, setpoint := p } ∧
        (t.gap k).lastSent = some p) ∧
      (s.flc.tx ≠ none → t.flc.tx = s.flc.tx ∧ vget t.flc.slots k = some p))

theorem Sent.congr {k : Stand} {p : Setpoint} {s t u : State} (hflc : u.flc = t.flc) (href : (u.gap k).sRef = (t.gap k).sRef)
    (hlast : (u.gap k).lastSent = (t.gap k).lastSent) (h : Sent k p s t) : Sent k p s u := by
  unfold Sent
  rw [hflc, href, hlast]
  exact h

theorem sent_produce (k : Stand) (mode : Mode) (ref : Int) {s v : State} (hflc : v.flc = s.flc)
    (htags : v.sch.config.tags = s.sch.config.tags) (hlast : (v.gap k).lastSent = (s.gap k).lastSent) :
    Sent k ⟨mode, ref⟩ s (produce k mode ref v) := by
  refine ⟨(produce_gap k k mode ref v).1, ?_, ?_⟩ <;> rw [← htags, ← hflc]
  · intro htag
    rw [← hlast]
    obtain ⟨-, e⟩ | ⟨hne, -⟩ | ⟨hne, -⟩ := produce_cases k mode ref v
    · rw [e]
      exact ⟨rfl, by simp [emptySlot]⟩
    · exact absurd htag hne
    · exact absurd htag hne
  · intro htag
    obtain ⟨h0, -⟩ | ⟨-, hidle, e⟩ | ⟨-, hbusy, e⟩ := produce_cases k mode ref v
    · exact absurd h0 htag
    · refine ⟨fun _ => ?_, fun hbusy => absurd hidle hbusy⟩
      rw [e]
      refine ⟨rfl, ?_⟩
      exact congrArg GapRecord.lastSent (modGap_gap_self _ k _)
    · refine ⟨fun hidle => absurd hidle hbusy, fun _ => ?_⟩
      rw [e]
      exact ⟨rfl, vget_vset_self _ _ _⟩

/-- A produced setpoint changes of its stand's gap record S_ref, the last sent and the window reference (R89, R90). -/
theorem produce_gap_self (k : Stand) (mode : Mode) (ref : Int) (s : State) :
    (produce k mode ref s).gap k =
      { s.gap k with
        sRef := ref
        lastSent := ((produce k mode ref s).gap k).lastSent
        windowRef := ((produce k mode ref s).gap k).windowRef } := by
  obtain ⟨-, e⟩ | ⟨-, -, e⟩ | ⟨-, -, e⟩ := produce_cases k mode ref s <;> rw [e]
  · simp [emptySlot]
  · simp [startSetpoint]
  · simp

/-! ## The estimate -/

/-- The estimate of a stand in THREAD or ROLL, made or marked stale (R95 to R97). -/
def Estimated (k : Stand) (r : StandRecord) (s : State) (g : GapRecord) : Prop :=
  (∀ raw : Int, raw = max (-10000) (min 80000 (s.chan (gapCh k)).value) +
      (max 0 (min 60000 (s.chan (forceCh k)).value) * 1000 + r.m / 2) / r.m + r.z →
    (s.chan (forceCh k)).state = .fresh → (s.chan (gapCh k)).state = .fresh →
    g.hGm = some (max 0 (min 65000 raw)).toNat ∧ g.stale = false ∧ g.gmSat = decide (raw < 0 ∨ 65000 < raw)) ∧
  ((s.chan (forceCh k)).state ≠ .fresh ∨ (s.chan (gapCh k)).state ≠ .fresh →
    g.hGm = (s.gap k).hGm ∧ g.stale = true ∧ g.gmSat = (s.gap k).gmSat)

theorem inputsFresh_iff (s : State) (k : Stand) :
    s.inputsFresh k = true ↔ (s.chan (forceCh k)).state = .fresh ∧ (s.chan (gapCh k)).state = .fresh := by
  unfold State.inputsFresh
  rw [Bool.and_eq_true, beq_iff_eq, beq_iff_eq]

theorem estimate_gap (k : Stand) (r : StandRecord) (s : State) :
    (estimate k r s).gap k =
      if s.inputsFresh k then (s.gap k).compute (rawEstimate r (s.chan (forceCh k)).value (s.chan (gapCh k)).value)
      else { s.gap k with stale := true } := by
  unfold estimate
  split <;> exact modGap_gap_self s k _

/-- The estimate changes nothing else of the gap record. -/
theorem estimate_gap_rest (k : Stand) (r : StandRecord) (s : State) :
    ∃ h sat stale, (estimate k r s).gap k = { s.gap k with hGm := h, gmSat := sat, stale := stale } := by
  rw [estimate_gap]
  split
  · exact ⟨_, _, _, rfl⟩
  · exact ⟨(s.gap k).hGm, (s.gap k).gmSat, true, rfl⟩

theorem compute_sat (raw : Int) : decide (saturate 0 65000 raw ≠ raw) = decide (raw < 0 ∨ 65000 < raw) := by
  rw [saturate_eq _ _ _ (by decide), decide_eq_decide]
  omega

theorem estimated_estimate (k : Stand) (r : StandRecord) (s : State) : Estimated k r s ((estimate k r s).gap k) := by
  rw [estimate_gap]
  refine ⟨fun raw hraw hforce hgap => ?_, fun hlapsed => ?_⟩
  · rw [if_pos ((inputsFresh_iff s k).mpr ⟨hforce, hgap⟩), ← compute_sat, ← saturate_eq _ _ _ (by decide), hraw, ← rawEstimate_eq]
    exact ⟨rfl, rfl, rfl⟩
  · rw [if_neg]
    · exact ⟨rfl, rfl, rfl⟩
    · rw [inputsFresh_iff]
      exact fun ⟨hforce, hgap⟩ => hlapsed.elim (fun h => h hforce) fun h => h hgap

theorem Estimated.congr {k : Stand} {r : StandRecord} {s : State} {g g' : GapRecord} (hh : g'.hGm = g.hGm)
    (hstale : g'.stale = g.stale) (hsat : g'.gmSat = g.gmSat) (h : Estimated k r s g) : Estimated k r s g' := by
  unfold Estimated
  rw [hh, hstale, hsat]
  exact h

/-- An estimate is usable exactly as its inputs are FRESH (R96, R97). -/
theorem usable_estimate (k : Stand) (r : StandRecord) (s : State) :
    ((estimate k r s).gap k).usableEstimate = if s.inputsFresh k then ((estimate k r s).gap k).hGm else none := by
  unfold GapRecord.usableEstimate
  rw [estimate_gap]
  split <;> rfl

/-! ## Lock-on -/

theorem lockOn_of_usable {k : Stand} {h : Nat} {s : State} (husable : (s.gap k).usableEstimate = some h) :
    (lockOn k s).gap k = { s.gap k with hLock := h, sRefLock := (s.gap k).sRef, locked := true } ∧
      ((lockOn k s).seq k).state = .roll := by
  unfold lockOn
  rw [husable]
  dsimp only
  constructor
  · have hgce : (evalScopes (placeStand k .roll (s.modGap k fun g => { g with hLock := h, sRefLock := g.sRef, locked := true }))).gce =
        (s.modGap k fun g => { g with hLock := h, sRefLock := g.sRef, locked := true }).gce := by simp
    rw [State.gap, hgce]
    exact modGap_gap_self s k _
  · rw [evalScopes_state]
    unfold placeStand
    rw [standNotice_seq, setStandState_seq, if_pos rfl]
    exact (evalDemand_record_keeps _ _ _).1

theorem lockOn_of_unusable {k : Stand} {s : State} (h : (s.gap k).usableEstimate = none) : lockOn k s = s := by
  unfold lockOn
  rw [h]

/-! ## The update by state -/

theorem update_away {k : Stand} {r : StandRecord} {s : State} (h : (s.seq k).state = .local_ ∨ (s.seq k).state = .handover) :
    update k r s = emptySlot k s := by
  unfold update
  obtain h | h := h <;> rw [h]

theorem update_setup {k : Stand} {r : StandRecord} {s : State} (h : (s.seq k).state = .setup) :
    update k r s = windowTest k (if (s.seq k).equalize.isSome then s
      else produce k .preset (slewTo (s.gap k).slewBase r.sPreset r.r) s) := by
  unfold update
  rw [h]
  rfl

theorem update_thread {k : Stand} {r : StandRecord} {s : State} (h : (s.seq k).state = .thread) :
    update k r s = updateThread k r s := by
  unfold update
  rw [h]

theorem update_roll {k : Stand} {r : StandRecord} {s : State} (h : (s.seq k).state = .roll) : update k r s = updateRoll k r s := by
  unfold update
  rw [h]

/-- A ROLL update that holds, frozen or without FRESH inputs (R104). -/
theorem updateRoll_hold {k : Stand} {r : StandRecord} {s : State}
    (h : (s.seq k).frozen = true ∨ s.inputsFresh k = false) :
    updateRoll k r s = produce k .hold (s.gap k).sRef (estimate k r s) := by
  obtain ⟨hg, sat, stale, hgap⟩ := estimate_gap_rest k r s
  have href : ((estimate k r s).gap k).sRef = (s.gap k).sRef := by rw [hgap]
  have hoff : (s.inputsFresh k && !((estimate k r s).seq k).frozen) = false := by
    rw [estimate_seq]
    obtain h | h := h <;> simp [h]
  unfold updateRoll
  dsimp only
  rw [hoff, href]
  cases ((estimate k r s).gap k).hGm <;> rfl

/-- The full ROLL update (R100 to R103). -/
theorem updateRoll_full {k : Stand} {r : StandRecord} {s : State} (hfrozen : (s.seq k).frozen = false)
    (hfresh : s.inputsFresh k = true) :
    updateRoll k r s =
      rollUpdate k r (saturate 0 65000 (rawEstimate r (s.chan (forceCh k)).value (s.chan (gapCh k)).value)).toNat (estimate k r s) := by
  have hgm : ((estimate k r s).gap k).hGm =
      some (saturate 0 65000 (rawEstimate r (s.chan (forceCh k)).value (s.chan (gapCh k)).value)).toNat := by
    rw [estimate_gap, if_pos hfresh]
    rfl
  have hon : (s.inputsFresh k && !((estimate k r s).seq k).frozen) = true := by
    rw [estimate_seq, hfrozen, hfresh]
    rfl
  unfold updateRoll
  dsimp only
  rw [hon, hgm]

end Sys2Proof.Machine
end

section
/-! PROOFS. The update of a stand by its state: O24. -/

namespace Sys2Proof.Machine

/-! ## The update of each state -/

theorem update_tripped {k : Stand} {r : StandRecord} {s : State} (h : (s.seq k).state = .tripped) :
    update k r s = produce k .open_ r.sOpen s := by
  unfold update
  rw [h]

theorem update_tail {k : Stand} {r : StandRecord} {s : State} (h : (s.seq k).state = .tail) :
    update k r s = produce k .hold (s.gap k).sRef s := by
  unfold update
  rw [h]

theorem update_ready {k : Stand} {r : StandRecord} {s : State} (h : (s.seq k).state = .ready) :
    update k r s = if (s.seq k).equalize.isSome then s else produce k .preset r.sPreset s := by
  unfold update
  rw [h]
  rfl

theorem update_out {k : Stand} {r : StandRecord} {s : State} (h : (s.seq k).state = .out) :
    update k r s = updateOut k r s := by
  unfold update
  rw [h]

/-- The THREAD update without its lock-on (R93). -/
def threadSends (k : Stand) (r : StandRecord) (s : State) : State := produce k .hold r.sPreset (estimate k r s)

theorem threadSends_gap (k : Stand) (r : StandRecord) (s : State) :
    (threadSends k r s).gap k =
      { (estimate k r s).gap k with
        sRef := r.sPreset
        lastSent := ((threadSends k r s).gap k).lastSent
        windowRef := ((threadSends k r s).gap k).windowRef } :=
  produce_gap_self k .hold r.sPreset (estimate k r s)

theorem threadSends_seq (k j : Stand) (r : StandRecord) (s : State) : (threadSends k r s).seq j = s.seq j := by
  simp [threadSends, State.seq]

theorem threadSends_usable (k : Stand) (r : StandRecord) (s : State) :
    ((threadSends k r s).gap k).usableEstimate = if s.inputsFresh k then ((threadSends k r s).gap k).hGm else none := by
  rw [threadSends_gap]
  exact usable_estimate k r s

theorem threadSends_lockCount (k : Stand) (r : StandRecord) (s : State) :
    ((threadSends k r s).gap k).lockCount = (s.gap k).lockCount := by
  obtain ⟨hGm, sat, stale, hgap⟩ := estimate_gap_rest k r s
  rw [threadSends_gap, hgap]

theorem threadSends_locked (k : Stand) (r : StandRecord) (s : State) :
    ((threadSends k r s).gap k).locked = (s.gap k).locked := by
  obtain ⟨hGm, sat, stale, hgap⟩ := estimate_gap_rest k r s
  rw [threadSends_gap, hgap]

/-- The full estimate is there to lock on with FRESH inputs (R96). -/
theorem estimate_fresh {k : Stand} (r : StandRecord) {s : State} (hfresh : s.inputsFresh k = true) :
    ∃ h, ((estimate k r s).gap k).hGm = some h := by
  rw [estimate_gap, if_pos hfresh]
  exact ⟨_, rfl⟩

/-- Lock-on, or a THREAD stand as it was (R98). -/
theorem update_thread_cases {k : Stand} {r : StandRecord} {s : State} (h : (s.seq k).state = .thread) :
    ((s.gap k).lockCount = r.lockDelay ∧ s.inputsFresh k = true ∧ ((update k r s).seq k).state = .roll ∧
      update k r s = lockOn k (threadSends k r s) ∧
      ∃ hGm, ((threadSends k r s).gap k).hGm = some hGm ∧
        (update k r s).gap k =
          { (threadSends k r s).gap k with hLock := hGm, sRefLock := r.sPreset, locked := true }) ∨
      (¬((s.gap k).lockCount = r.lockDelay ∧ s.inputsFresh k = true) ∧ update k r s = threadSends k r s) := by
  have hupdate : update k r s =
      if ((threadSends k r s).gap k).lockCount = r.lockDelay then lockOn k (threadSends k r s) else threadSends k r s :=
    update_thread h
  rw [threadSends_lockCount] at hupdate
  by_cases hcount : (s.gap k).lockCount = r.lockDelay
  · rw [if_pos hcount] at hupdate
    cases hfresh : s.inputsFresh k with
    | true =>
      obtain ⟨hGm, hsome⟩ := estimate_fresh r hfresh
      have hkept : ((threadSends k r s).gap k).hGm = some hGm := by rw [threadSends_gap]; exact hsome
      have husable : ((threadSends k r s).gap k).usableEstimate = some hGm := by
        rw [threadSends_usable, if_pos hfresh, hkept]
      obtain ⟨hgap, hstate⟩ := lockOn_of_usable husable
      have href : ((threadSends k r s).gap k).sRef = r.sPreset := by rw [threadSends_gap]
      rw [href, ← hupdate] at hgap
      rw [← hupdate] at hstate
      exact .inl ⟨hcount, rfl, hstate, hupdate, hGm, hkept, hgap⟩
    | false =>
      have husable : ((threadSends k r s).gap k).usableEstimate = none := by
        rw [threadSends_usable, hfresh]
        rfl
      rw [lockOn_of_unusable husable] at hupdate
      exact .inr ⟨(fun h => nomatch h.2), hupdate⟩
  · rw [if_neg hcount] at hupdate
    exact .inr ⟨fun h => hcount h.1, hupdate⟩

/-! ## What every update keeps -/

theorem windowTest_gap (k j : Stand) (s : State) : (windowTest k s).gap j = s.gap j := by simp [State.gap]

theorem windowTest_flc (k : Stand) (s : State) : (windowTest k s).flc = s.flc := by simp

/-- No update touches the timer that its expiry reloaded (R88). -/
theorem update_timer (k : Stand) (r : StandRecord) (s : State) : ((update k r s).gap k).timer = (s.gap k).timer := by
  have hproduce (mode : Mode) (ref : Int) (v : State) : ((produce k mode ref v).gap k).timer = (v.gap k).timer := by
    rw [produce_gap_self]
  have hestimate : ((estimate k r s).gap k).timer = (s.gap k).timer := by
    obtain ⟨hGm, sat, stale, hgap⟩ := estimate_gap_rest k r s
    rw [hgap]
  have hsends : ((threadSends k r s).gap k).timer = (s.gap k).timer := (hproduce _ _ _).trans hestimate
  cases h : (s.seq k).state with
  | out =>
    rw [update_out h]
    unfold updateOut
    split
    · exact hproduce _ _ _
    · exact hproduce _ _ _
    · rfl
    · rfl
  | setup =>
    rw [update_setup h, windowTest_gap]
    split
    · rfl
    · exact hproduce _ _ _
  | ready =>
    rw [update_ready h]
    split
    · rfl
    · exact hproduce _ _ _
  | thread =>
    obtain ⟨-, -, -, -, hGm, -, hgap⟩ | ⟨-, e⟩ := update_thread_cases (r := r) h
    · rw [hgap]
      exact hsends
    · rw [e]
      exact hsends
  | roll =>
    rw [update_roll h]
    unfold updateRoll
    dsimp only
    split
    · unfold rollUpdate
      exact (hproduce _ _ _).trans ((congrArg GapRecord.timer (modGap_gap_self _ k _)).trans hestimate)
    · exact (hproduce _ _ _).trans hestimate
  | tail =>
    rw [update_tail h]
    exact hproduce _ _ _
  | tripped =>
    rw [update_tripped h]
    exact hproduce _ _ _
  | handover =>
    rw [update_away (.inr h)]
    rfl
  | local_ =>
    rw [update_away (.inl h)]
    rfl

/-! ## What each state sends -/

theorem inputsFresh_false {s : State} {k : Stand} (h : (s.chan (forceCh k)).state ≠ .fresh ∨ (s.chan (gapCh k)).state ≠ .fresh) :
    s.inputsFresh k = false := by
  rw [Bool.eq_false_iff, Ne, inputsFresh_iff]
  exact fun ⟨hforce, hgap⟩ => h.elim (fun h => h hforce) fun h => h hgap

/-- What a stand sends at its update, but for the full ROLL update (R90 to R94, R104). -/
inductive Sends (k : Stand) (r : StandRecord) (s : State) : Setpoint → Prop
  | tripped (h : (s.seq k).state = .tripped) : Sends k r s ⟨.open_, r.sOpen⟩
  | ready (h : (s.seq k).state = .ready) (he : (s.seq k).equalize = none) : Sends k r s ⟨.preset, r.sPreset⟩
  | thread (h : (s.seq k).state = .thread) : Sends k r s ⟨.hold, r.sPreset⟩
  | tail (h : (s.seq k).state = .tail) : Sends k r s ⟨.hold, (s.gap k).sRef⟩
  | park (h : (s.seq k).state = .out) (hc : r.outCode = .park) : Sends k r s ⟨.hold, r.sOpen⟩
  | hold (q : Setpoint) (h : (s.seq k).state = .out) (hc : r.outCode = .hold) (hq : (s.gap k).lastSent = some q) :
      Sends k r s ⟨.hold, q.gap⟩
  | roll (h : (s.seq k).state = .roll) (hf : (s.seq k).frozen = true ∨ s.inputsFresh k = false) :
      Sends k r s ⟨.hold, (s.gap k).sRef⟩
  | setup (h : (s.seq k).state = .setup) (he : (s.seq k).equalize = none) :
      Sends k r s ⟨.preset, slewTo (s.gap k).slewBase r.sPreset r.r⟩

theorem sent_update {k : Stand} {r : StandRecord} {s : State} {p : Setpoint} (h : Sends k r s p) : Sent k p s (update k r s) := by
  have hsends (mode : Mode) (ref : Int) : Sent k ⟨mode, ref⟩ s (produce k mode ref s) := sent_produce k mode ref rfl rfl rfl
  have hestimate (mode : Mode) (ref : Int) : Sent k ⟨mode, ref⟩ s (produce k mode ref (estimate k r s)) := by
    obtain ⟨hGm, sat, stale, hgap⟩ := estimate_gap_rest k r s
    exact sent_produce k mode ref (by simp) (by simp) (by rw [hgap])
  cases h with
  | tripped h =>
    rw [update_tripped h]
    exact hsends _ _
  | ready h he =>
    rw [update_ready h, he]
    exact hsends _ _
  | thread h =>
    obtain ⟨-, -, -, e, hGm, -, hgap⟩ | ⟨-, e⟩ := update_thread_cases (r := r) h
    · refine Sent.congr (t := threadSends k r s) ?_ ?_ ?_ (hestimate _ _)
      · rw [e]
        simp
      · rw [hgap]
      · rw [hgap]
    · rw [e]
      exact hestimate _ _
  | tail h =>
    rw [update_tail h]
    exact hsends _ _
  | park h hc =>
    rw [update_out h]
    unfold updateOut
    rw [hc]
    exact hsends _ _
  | hold q h hc hq =>
    rw [update_out h]
    unfold updateOut
    rw [hc, hq]
    exact hsends _ _
  | roll h hf =>
    rw [update_roll h, updateRoll_hold hf]
    exact hestimate _ _
  | setup h he =>
    rw [update_setup h, he]
    exact Sent.congr (windowTest_flc k _) (by rw [windowTest_gap]) (by rw [windowTest_gap]) (hsends _ _)

/-- A stand with nothing to send changes nothing of its gap record and of the line (R91, R92, R93). -/
theorem update_silent {k : Stand} {r : StandRecord} {s : State}
    (h : (s.seq k).state = .out ∧ (r.outCode = .release ∨ r.outCode = .hold ∧ (s.gap k).lastSent = none) ∨
      ((s.seq k).state = .setup ∨ (s.seq k).state = .ready) ∧ (s.seq k).equalize ≠ none) :
    (update k r s).gap k = s.gap k ∧ (update k r s).flc = s.flc := by
  obtain ⟨hout, hcode⟩ | ⟨hstate, hequalize⟩ := h
  · rw [update_out hout]
    unfold updateOut
    obtain hcode | ⟨hcode, hlast⟩ := hcode
    · rw [hcode]
      exact ⟨rfl, rfl⟩
    · rw [hcode, hlast]
      exact ⟨rfl, rfl⟩
  · have hsome : (s.seq k).equalize.isSome = true := Option.isSome_iff_ne_none.mpr hequalize
    obtain hsetup | hready := hstate
    · rw [update_setup hsetup, if_pos hsome]
      exact ⟨windowTest_gap k k s, windowTest_flc k s⟩
    · rw [update_ready hready, if_pos hsome]
      exact ⟨rfl, rfl⟩

/-- The estimate of an update in THREAD or ROLL, the full ROLL update among them (R95 to R97). -/
theorem estimated_update {k : Stand} {r : StandRecord} {s : State} (h : (s.seq k).state = .thread ∨ (s.seq k).state = .roll) :
    Estimated k r s ((update k r s).gap k) := by
  have hmade := estimated_estimate k r s
  have hproduce (mode : Mode) (ref : Int) {v : State} (hv : Estimated k r s (v.gap k)) :
      Estimated k r s ((produce k mode ref v).gap k) := by
    rw [produce_gap_self]
    exact hv.congr rfl rfl rfl
  obtain hthread | hroll := h
  · obtain ⟨-, -, -, -, hGm, -, hgap⟩ | ⟨-, e⟩ := update_thread_cases (r := r) hthread
    · rw [hgap]
      exact (hproduce .hold r.sPreset hmade).congr rfl rfl rfl
    · rw [e]
      exact hproduce _ _ hmade
  · rw [update_roll hroll]
    unfold updateRoll
    dsimp only
    split
    · unfold rollUpdate
      refine hproduce _ _ ?_
      rw [modGap_gap_self]
      exact hmade.congr rfl rfl rfl
    · exact hproduce _ _ hmade

theorem windowTestPasses_iff {k : Stand} {r : StandRecord} {s : State} (hr : s.record k = some r) :
    windowTestPasses k s = true ↔
      (s.gap k).sRef = r.sPreset ∧ (s.chan (gapCh k)).state = .fresh ∧ ((s.chan (gapCh k)).value - r.sPreset).natAbs ≤ r.w := by
  unfold windowTestPasses
  rw [hr]
  simp only [Bool.and_eq_true, beq_iff_eq, and_assoc, inWindow_iff]

/-- The window test that ends an update in SETUP (R92, R120). -/
theorem update_setup_state {k : Stand} {r : StandRecord} {s : State} (hr : s.record k = some r) (h : (s.seq k).state = .setup) :
    ((update k r s).seq k).state =
      if ((update k r s).gap k).sRef = r.sPreset ∧ (s.chan (gapCh k)).state = .fresh ∧
        ((s.chan (gapCh k)).value - r.sPreset).natAbs ≤ r.w then .ready else .setup := by
  rw [update_setup h, windowTest_seq, windowTest_gap]
  generalize hv : (if (s.seq k).equalize.isSome then s else produce k .preset (slewTo (s.gap k).slewBase r.sPreset r.r) s) = v
  obtain ⟨hssq, hmch, hsch⟩ : v.ssq = s.ssq ∧ v.mch = s.mch ∧ v.sch = s.sch := by
    rw [← hv]
    split <;> simp
  have hseq : v.seq k = s.seq k := by rw [State.seq, hssq]; rfl
  have hchan : v.chan (gapCh k) = s.chan (gapCh k) := by rw [State.chan, hmch]; rfl
  have hrecord : v.record k = some r := by rw [State.record, hsch]; exact hr
  rw [hseq, h, ← hchan]
  refine if_congr ?_ rfl rfl
  rw [← windowTestPasses_iff hrecord]
  exact ⟨fun h => h.2.2, fun h => ⟨rfl, rfl, h⟩⟩

/-! ## The expiry -/

/-- An update timer reloaded as its expiry is taken (R88). -/
def reloadUpdate (k : Stand) (r : StandRecord) (s : State) : State := s.modGap k fun g => { g with timer := some r.tCtl }

theorem reloadUpdate_gap (k : Stand) (r : StandRecord) (s : State) :
    (reloadUpdate k r s).gap k = { s.gap k with timer := some r.tCtl } := modGap_gap_self s k _

/-- What a due update leaves: the update's own work, seen from the gap records, the line, and the stands' states (R88, R90). -/
theorem exec_updateTimerExpiry {k : Stand} {r : StandRecord} {s : State} (hrun : Running s) (hr : s.record k = some r)
    (hdue : (s.gap k).timer = some 0) :
    ∃ t, exec (.updateTimerExpiry k) s = .next t ∧ (∀ j, t.gap j = (update k r (reloadUpdate k r s)).gap j) ∧
      t.flc = (update k r (reloadUpdate k r s)).flc ∧
      ∀ j, (t.seq j).state = ((update k r (reloadUpdate k r s)).seq j).state := by
  have hexec : exec (.updateTimerExpiry k) s = .next (updateExpiry k s) :=
    event_of_not_inReset (updateExpiry k) s hrun.1
  unfold updateExpiry at hexec
  rw [if_pos hdue] at hexec
  unfold expireUpdate at hexec
  rw [hr] at hexec
  dsimp only at hexec
  obtain ⟨l, hend, -⟩ := endEvent_after (t := evalScopes (update k r (reloadUpdate k r s))) hrun.2 (by simp [reloadUpdate])
    (by simp [reloadUpdate])
  refine ⟨_, hexec.trans (congrArg Host.Outcome.next hend), fun j => ?_, ?_, fun j => ?_⟩
  · have hgce (v : State) : (evalScopes v).gce = v.gce := by simp
    exact congrArg (vget · j) (hgce _)
  · have hflc (v : State) : (evalScopes v).flc = v.flc := by simp
    exact hflc _
  · exact evalScopes_state _ j

theorem exec_updateTimerExpiry_not_due {k : Stand} {s : State} (hrun : Running s) (hdue : (s.gap k).timer ≠ some 0) :
    exec (.updateTimerExpiry k) s = .next s := by
  have hexec : exec (.updateTimerExpiry k) s = .next (updateExpiry k s) :=
    event_of_not_inReset (updateExpiry k) s hrun.1
  unfold updateExpiry at hexec
  rw [if_neg hdue] at hexec
  exact hexec

/-- Settles O24: the update of each state, on the state with the timer reloaded; what ends the event keeps the gap records, the
line and the stands' states. -/
theorem updateSendsByState : Obligations.UpdateSendsByState := by
  intro k s hrun
  refine ⟨exec_updateTimerExpiry_not_due hrun, fun r hr hdue => ?_⟩
  obtain ⟨t, hexec, hgap, hflc, hstate⟩ := exec_updateTimerExpiry hrun hr hdue
  have hu := reloadUpdate_gap k r s
  have hlast : ((reloadUpdate k r s).gap k).lastSent = (s.gap k).lastSent := by rw [hu]
  have href : ((reloadUpdate k r s).gap k).sRef = (s.gap k).sRef := by rw [hu]
  refine ⟨t, hexec, ?_, ?_, ?_, ?_, ?_, ?_, ?_⟩
  · rw [hgap, update_timer, hu]
  · intro haway
    rw [hgap, hflc, update_away (s := reloadUpdate k r s) haway]
    exact ⟨hu, rfl⟩
  · intro hsilent
    rw [← hlast] at hsilent
    obtain ⟨hg, hf⟩ := update_silent (s := reloadUpdate k r s) hsilent
    rw [hgap, hflc, hg, hf]
    exact ⟨hu, rfl⟩
  · intro p hp
    have hsends : Sends k r (reloadUpdate k r s) p := by
      obtain ⟨h, rfl⟩ | ⟨h, he, rfl⟩ | ⟨h, rfl⟩ | ⟨h, rfl⟩ | ⟨h, hc, rfl⟩ | ⟨h, hc, q, hq, rfl⟩ | ⟨h, hf, rfl⟩ |
        ⟨h, he, base, hbase, rfl⟩ := hp
      · exact .tripped h
      · exact .ready h he
      · exact .thread h
      · rw [← href]
        exact .tail h
      · exact .park h hc
      · exact .hold q h hc (hlast.trans hq)
      · rw [← href]
        exact .roll h (hf.imp id inputsFresh_false)
      · have hslew : base = ((reloadUpdate k r s).gap k).slewBase := hbase.trans ((slewBase_eq (s.gap k)).symm.trans (by rw [hu]; rfl))
        rw [← slewTo_eq, hslew]
        exact .setup h he
    have hsent := sent_update hsends
    unfold Sent at hsent
    rw [hlast, ← hgap, ← hflc] at hsent
    exact hsent
  · intro h
    have hestimated := estimated_update (r := r) (s := reloadUpdate k r s) h
    rw [← hgap] at hestimated
    unfold Estimated at hestimated
    rw [hu] at hestimated
    exact hestimated
  · intro h
    have hlocked : ((reloadUpdate k r s).gap k).locked = (s.gap k).locked := by rw [hu]
    have hcount : ((reloadUpdate k r s).gap k).lockCount = (s.gap k).lockCount := by rw [hu]
    have hfresh : (reloadUpdate k r s).inputsFresh k = true ↔
        (s.chan (forceCh k)).state = .fresh ∧ (s.chan (gapCh k)).state = .fresh := inputsFresh_iff s k
    obtain ⟨hlock, hin, hroll, -, hGm, hsome, hg⟩ | ⟨hnot, e⟩ := update_thread_cases (r := r) (s := reloadUpdate k r s) h
    · rw [if_pos ⟨hcount.symm.trans hlock, hfresh.mp hin⟩, hstate, hgap, hg]
      exact ⟨hroll, rfl, hsome.symm, rfl⟩
    · rw [if_neg fun ⟨hlock, hin⟩ => hnot ⟨hcount.trans hlock, hfresh.mpr hin⟩, hstate, hgap, e, threadSends_locked, hlocked,
        threadSends_seq]
      exact ⟨h, rfl⟩
  · intro h
    rw [hstate, hgap]
    exact update_setup_state (s := reloadUpdate k r s) hr h

end Sys2Proof.Machine
end

section
/-! PROOFS. The full ROLL update: O25. -/

namespace Sys2Proof.Machine

theorem isFirst_iff (s : State) (k : Stand) : s.isFirst k = true ↔ s.firstActive = some k := by
  unfold State.isFirst
  exact beq_iff_eq

/-- The feed-forward input reads the bite, the active set and the mill record alone (R100). -/
theorem feedForward_eq {k : Stand} {s v : State} (hstk : v.stk = s.stk) (hsch : v.sch = s.sch) :
    feedForward k v = match vget s.stk.bites k with
      | none => 0
      | some g =>
        if s.firstActive = some k then
          (if g.entrySrc = .gauge then (g.entryH : Int) - s.millRec.elim 0 (·.hEntry) else 0)
        else g.dev.getD 0 := by
  have hfirst : v.isFirst k = s.isFirst k := by
    unfold State.isFirst State.firstActive State.activeSet State.millRec
    rw [hsch]
  have hmill : v.millRec = s.millRec := by
    unfold State.millRec
    rw [hsch]
  unfold feedForward
  rw [hstk, hfirst, hmill]
  cases vget s.stk.bites k with
  | none => rfl
  | some g =>
    dsimp only
    refine if_congr (isFirst_iff s k) ?_ rfl
    cases g.entrySrc <;> rfl

/-- The reference, the flags and the setpoint of a full ROLL update (R100 to R103). -/
theorem rollUpdate_gap (k : Stand) (r : StandRecord) (hGm : Nat) (s : State) :
    ((rollUpdate k r hGm s).gap k).sRef = (rollReference r (s.gap k) hGm (feedForward k s)).1 ∧
      ((rollUpdate k r hGm s).gap k).limited = (rollReference r (s.gap k) hGm (feedForward k s)).2.1 ∧
      ((rollUpdate k r hGm s).gap k).slewing = (rollReference r (s.gap k) hGm (feedForward k s)).2.2 ∧
      ((rollUpdate k r hGm s).gap k).hGm = (s.gap k).hGm ∧ ((rollUpdate k r hGm s).gap k).gmSat = (s.gap k).gmSat ∧
      ((rollUpdate k r hGm s).gap k).stale = (s.gap k).stale := by
  unfold rollUpdate
  dsimp only
  rw [produce_gap_self, modGap_gap_self]
  exact ⟨rfl, rfl, rfl, rfl, rfl, rfl⟩

theorem rollUpdate_slot {k : Stand} {r : StandRecord} {hGm : Nat} {s : State} (hbusy : s.flc.tx ≠ none)
    (htag : vget s.sch.config.tags k ≠ 0) :
    vget (rollUpdate k r hGm s).flc.slots k = some ⟨.track, (rollReference r (s.gap k) hGm (feedForward k s)).1⟩ := by
  obtain ⟨h0, -⟩ | ⟨-, hidle, -⟩ | ⟨-, -, e⟩ := produce_cases k .track (rollReference r (s.gap k) hGm (feedForward k s)).1
    (s.modGap k fun g => { g with
      limited := (rollReference r (s.gap k) hGm (feedForward k s)).2.1
      slewing := (rollReference r (s.gap k) hGm (feedForward k s)).2.2 })
  · exact absurd h0 htag
  · exact absurd hidle hbusy
  · unfold rollUpdate
    dsimp only
    rw [e]
    exact vget_vset_self _ _ _

/-- The estimate with FRESH inputs, field by field (R96). -/
theorem estimate_gap_fresh {k : Stand} (r : StandRecord) {s : State} (hfresh : s.inputsFresh k = true) :
    (estimate k r s).gap k =
      (s.gap k).compute (rawEstimate r (s.chan (forceCh k)).value (s.chan (gapCh k)).value) := by
  rw [estimate_gap, if_pos hfresh]

/-- The estimate before its saturation, with the saturations of its inputs (R95, R96). -/
theorem rawEstimate_saturate (r : StandRecord) (force gap : Int) :
    rawEstimate r force gap = saturate (-10000) 80000 gap + (saturate 0 60000 force * 1000 + r.m / 2) / r.m + r.z := by
  rw [rawEstimate_eq, saturate_eq _ _ gap (by decide), saturate_eq _ _ force (by decide)]

/-- The steps of the reference, as sections 5.3 and 5.5 number them (R100 to R103). -/
theorem rollReference_eq (r : StandRecord) (g : GapRecord) (hGm : Nat) (dIn e target clamped ref : Int)
    (he : e = saturate (-20000) 20000 (roundDiv (r.kgm * ((hGm : Int) - g.hLock) + r.kff * dIn) 256 + g.integ))
    (htarget : target = g.sRefLock - roundDiv ((if e.natAbs ≤ r.db then 0 else e) * r.c) 1024 + g.trim)
    (hclamped : clamped = if target < r.sMin then (r.sMin : Int) else if r.sMax < target then r.sMax else target)
    (href : ref = slewTo g.slewBase clamped r.r) :
    rollReference r g hGm dIn = (ref, decide (clamped ≠ target), decide (ref ≠ clamped)) := by
  have hgap : gapTarget r g hGm dIn = target := by
    rw [htarget, gapTarget, gapCorrection, deadband, combinedError, ← he, ← Int.sub_eq_add_neg]
  have hclamp : clampGap r (gapTarget r g hGm dIn) = clamped := by
    rw [hgap, hclamped]
    rfl
  unfold rollReference
  dsimp only
  rw [hclamp, hgap, href]

namespace Settled

/-- Settles O25: the steps of the reference on the estimate of the reloaded state. -/
theorem rollUpdate : Obligations.RollUpdate := by
  intro k r s raw h dIn e target clamped base ref hrun hr hdue hroll hfrozen hforce hgapFresh hraw hh hdIn he htarget hclamped
    hbase href
  have hfresh : (reloadUpdate k r s).inputsFresh k = true := (inputsFresh_iff s k).mpr ⟨hforce, hgapFresh⟩
  obtain ⟨t, hexec, hgap, hflc, -⟩ := exec_updateTimerExpiry hrun hr hdue
  have hfull := updateRoll_full (r := r) (s := reloadUpdate k r s) hfrozen hfresh
  have hestimate := estimate_gap_fresh r hfresh
  have hest : rawEstimate r ((reloadUpdate k r s).chan (forceCh k)).value ((reloadUpdate k r s).chan (gapCh k)).value = raw :=
    (rawEstimate_saturate r _ _).trans hraw.symm
  have hsat : saturate 0 65000 raw = h := (saturate_eq _ _ raw (by decide)).trans hh.symm
  have hnat : ((h.toNat : Nat) : Int) = h := Int.toNat_of_nonneg (by omega)
  rw [hest] at hestimate hfull
  rw [hsat] at hfull
  rw [reloadUpdate_gap] at hestimate
  have hreference : rollReference r ((estimate k r (reloadUpdate k r s)).gap k) h.toNat
      (feedForward k (estimate k r (reloadUpdate k r s))) = (ref, decide (clamped ≠ target), decide (ref ≠ clamped)) := by
    rw [hestimate]
    refine rollReference_eq r _ h.toNat _ e target clamped ref ?_ htarget hclamped ?_
    · have hforward : feedForward k (estimate k r (reloadUpdate k r s)) = dIn :=
        (feedForward_eq (s := s) (by simp [reloadUpdate]) (by simp [reloadUpdate])).trans hdIn.symm
      rw [hforward, hnat, saturate_eq _ _ _ (by decide)]
      exact he
    · rw [href, slewTo_eq, hbase]
      have hslew := slewBase_eq (s.gap k)
      exact congrArg (fun b => b + max (-(r.r : Int)) (min r.r (clamped - b))) hslew.symm
  obtain ⟨hsRef, hlimited, hslewing, hkeptGm, hkeptSat, hkeptStale⟩ :=
    rollUpdate_gap k r h.toNat (estimate k r (reloadUpdate k r s))
  rw [hreference] at hsRef hlimited hslewing
  have hupdate := (update_roll (r := r) (s := reloadUpdate k r s) hroll).trans hfull
  have htimer := update_timer k r (reloadUpdate k r s)
  rw [reloadUpdate_gap] at htimer
  rw [hestimate] at hkeptGm hkeptSat hkeptStale
  rw [← hupdate, ← hgap] at hsRef hlimited hslewing hkeptGm hkeptSat hkeptStale
  refine ⟨t, hexec, (congrArg GapRecord.timer (hgap k)).trans htimer, ?_, ?_, hkeptStale, hsRef, hlimited, hslewing, ?_⟩
  · rw [← hsat]
    exact hkeptGm
  · rw [← hsat]
    exact hkeptSat
  · intro hbusy htag
    have hslot := rollUpdate_slot (k := k) (r := r) (hGm := h.toNat) (s := estimate k r (reloadUpdate k r s))
      (by simpa [reloadUpdate] using hbusy) (by simpa [reloadUpdate] using htag)
    rw [hreference, ← hupdate, ← hflc] at hslot
    exact hslot

end Settled

end Sys2Proof.Machine
end

section
/-! PROOFS. The HANDOVER request: O48. -/

namespace Sys2Proof.Machine

/-! ## Replies that leave behind a change of the part -/

/-- A reply changes the host link alone. -/
theorem reply_eq_withHlk (kind tag : Byte) (content : List Byte) (u : State) : ∃ l, reply kind tag content u = u.withHlk l := by
  unfold reply sendReply
  split <;> exact ⟨_, rfl⟩

/-- A reply composed on a line whose slot is empty (R171, R174). -/
theorem replied_reply (kind tag : Byte) (content : List Byte) {s u : State} (htx : u.hlk.tx = s.hlk.tx) (hslot : u.hlk.slot = none) :
    Replied s (reply kind tag content u) kind tag content := by
  unfold Replied reply sendReply
  rw [← htx]
  cases h : u.hlk.tx with
  | none => exact ⟨rfl, hslot⟩
  | some f => exact ⟨h, rfl⟩

/-- A request that changes the part leaves its reply on the line, and nothing else of the host link beyond what its answer
changed (R171, R173, R174). -/
theorem exec_replied {c : Instr} {kind tag : Byte} {body content : List Byte} {s u : State}
    (h : requestOf c = some { kind := kind, tag := tag, body := body }) (hk : kind.toNat < 128) (hf : HostFree s)
    (hans : answer kind.toNat body s = (u, content)) (htx : u.hlk.tx = s.hlk.tx) (hslot : u.hlk.slot = s.hlk.slot) :
    ∃ l, exec c s = .next (u.withHlk l) ∧ Replied s (u.withHlk l) kind tag content := by
  obtain ⟨l, hl⟩ := reply_eq_withHlk kind tag content u
  refine ⟨l, (exec_of_request h hk hf hans).trans (congrArg _ hl), ?_⟩
  rw [← hl]
  exact replied_reply kind tag content htx (hslot.trans hf.2.1)

/-! ## The checks (R129, R130) -/

theorem reqHandover_busy {body : List Byte} {k : Stand} {dir : Direction} {s : State} (hlen : body.length = 3)
    (hpos : standOfPos (rd8 body 0) = some k) (hdir : dirOfCode (rd8 body 1) = some dir) (h : (s.seq k).state = .handover) :
    reqHandover body s = (s, [7]) := by
  unfold reqHandover
  refine (withLength_of_eq hlen s _).trans ?_
  rw [hpos, hdir]
  exact if_pos h

theorem reqHandover_refused {body : List Byte} {k : Stand} {dir : Direction} {s : State} (hlen : body.length = 3)
    (hpos : standOfPos (rd8 body 0) = some k) (hdir : dirOfCode (rd8 body 1) = some dir) (h : (s.seq k).state ≠ .handover)
    (hcan : canHandover k dir s = false) : reqHandover body s = (s, [5]) := by
  unfold reqHandover
  refine (withLength_of_eq hlen s _).trans ?_
  rw [hpos, hdir]
  exact (if_neg h).trans (if_pos (by rw [hcan]; rfl))

theorem reqHandover_taken {body : List Byte} {k : Stand} {dir : Direction} {asked : Nat} {s : State} (hlen : body.length = 3)
    (hpos : standOfPos (rd8 body 0) = some k) (hdir : dirOfCode (rd8 body 1) = some dir) (hasked : rd8 body 2 = asked)
    (h : (s.seq k).state ≠ .handover) (hcan : canHandover k dir s = true) :
    reqHandover body s = (takeHandover k dir (timeoutInForce asked) s,
      takenReply (decide (timeoutInForce asked ≠ asked))
        (enc8 (Stand.pos k) ++ enc8 (dirCode dir) ++ enc8 (timeoutInForce asked) ++
          enc8 (if completesAtOnce k dir s then 1 else 0) ++
          enc8 (standCode ((takeHandover k dir (timeoutInForce asked) s).seq k).state))) := by
  unfold reqHandover
  refine (withLength_of_eq hlen s _).trans ?_
  rw [hpos, hdir]
  dsimp only
  rw [if_neg h, if_neg (by rw [hcan]; simp), hasked]

/-! ## What a taken handover leaves (R130, R131) -/

/-- A stand that enters HANDOVER, and the others. -/
theorem enterHandover_standing (k : Stand) (ho : Handover) (s : State) :
    ((enterHandover k ho s).seq k).state = .handover ∧ ((enterHandover k ho s).seq k).localReq = true ∧
      ((enterHandover k ho s).seq k).equalize = none ∧ ((enterHandover k ho s).seq k).handover = some ho ∧
      vget (enterHandover k ho s).flc.slots k = none ∧
      ∀ j, j ≠ k → ((enterHandover k ho s).seq j).state = (s.seq j).state := by
  have hstanding : (enterHandover k ho s).standing = (pendHandover k ho s).standing := by
    rw [enterHandover_eq, evalScopes_standing]
    exact standing_congr (by simp)
  obtain ⟨hstate, hhandover, hlamp, hequalize⟩ := standing_iff.mp (congrFun hstanding k)
  have hself := pendHandover_seq k ho s k
  rw [if_pos rfl] at hself
  obtain ⟨estate, -, ehandover, eequalize, -⟩ :=
    evalDemand_record_keeps (({ s.seq k with handover := some ho } : SeqRecord).enter .handover) s.millStopExists (s.tNo k)
  rw [hself] at hstate hhandover hlamp hequalize
  refine ⟨hstate.trans estate, hlamp, hequalize.trans eequalize, hhandover.trans ehandover, ?_, fun j hj => ?_⟩
  · have hflc : (enterHandover k ho s).flc = (emptySlot k s).flc := by
      rw [enterHandover_eq]
      simp [pendHandover, emptySlot]
    rw [hflc]
    exact vget_vset_self _ _ _
  · have hother := (standing_iff.mp (congrFun hstanding j)).1
    rw [pendHandover_seq, if_neg hj] at hother
    exact hother

/-- A TO_COORD handover completed (R131). -/
theorem completeToCoord_standing (k : Stand) (s : State) :
    ((completeToCoord k s).seq k).state = coordState (s.inSet k) (s.openCover k) ∧
      ((completeToCoord k s).seq k).handover = none ∧ ((completeToCoord k s).seq k).localReq = false ∧
      ∀ j, j ≠ k → ((completeToCoord k s).seq j).state = (s.seq j).state := by
  obtain ⟨hstate, hhandover, hlamp, -⟩ := standing_iff.mp (congrFun (evalScopes_standing
    (endHandover k .toCoord (coordState (s.inSet k) (s.openCover k)) .granted s)) k)
  obtain ⟨est, enone, elow⟩ := endHandover_standing k k .toCoord (coordState (s.inSet k) (s.openCover k)) .granted s
  rw [if_pos rfl] at est
  refine ⟨hstate.trans est, hhandover.trans enone, hlamp.trans elow, fun j hj => ?_⟩
  unfold completeToCoord
  rw [evalScopes_state, (endHandover_standing k j _ _ _ s).1, if_neg hj]

theorem timeoutInForce_eq (asked : Nat) : timeoutInForce asked = max 1 (min 60 asked) := by
  unfold timeoutInForce
  omega

theorem canGoLocal_iff (k : Stand) (s : State) :
    canGoLocal k s = true ↔
      ((s.seq k).state = .out ∨ (s.seq k).state = .setup ∨ (s.seq k).state = .ready ∨ (s.seq k).state = .tripped) ∧
        s.stripPresent k = false ∧ (s.stk.mill = .idle ∨ s.inSet k = false) := by
  unfold canGoLocal
  rw [Bool.and_eq_true, Bool.and_eq_true, Bool.or_eq_true, beq_iff_eq, Bool.not_eq_true', Bool.not_eq_true', and_assoc]
  refine and_congr_left fun _ => ?_
  cases (s.seq k).state <;> simp

/-- The reply of a HANDOVER with the clamp's code first (R129). -/
theorem takenReply_clamped (asked secs : Nat) (content : List Byte) :
    takenReply (decide (secs ≠ asked)) content = enc8 (if secs = asked then 0 else 1) ++ content := by
  by_cases h : secs = asked <;> simp [takenReply, h, ReplyCode.num]

/-- The line as a taken handover leaves it. -/
theorem takeHandover_line (k : Stand) (dir : Direction) (secs : Nat) (s : State) :
    (takeHandover k dir secs s).hlk.tx = s.hlk.tx ∧ (takeHandover k dir secs s).hlk.slot = s.hlk.slot := by
  unfold takeHandover
  split
  · simp [enterHandover]
  · split
    · simp [completeToCoord]
    · simp [enterHandover]

section
variable {tag : Byte} {k : Stand} {dir : Direction} {code : Byte} {asked : Nat} {s : State}

/-- The body of a HANDOVER request read back. -/
theorem handoverBody (hasked : asked ≤ 255) :
    standOfPos (rd8 (enc8 (Stand.pos k) ++ [code] ++ enc8 asked) 0) = some k ∧
      rd8 (enc8 (Stand.pos k) ++ [code] ++ enc8 asked) 1 = code.toNat ∧
      rd8 (enc8 (Stand.pos k) ++ [code] ++ enc8 asked) 2 = asked := by
  refine ⟨?_, rfl, ?_⟩
  · rw [List.append_assoc, rd8_of_enc8 (by unfold Stand.pos; omega), standOfPos_pos]
  · have h := rd8_append_right (enc8 (Stand.pos k) ++ [code]) (enc8 asked) 0
    rw [rd8_enc8_end] at h
    exact h.trans (Nat.mod_eq_of_lt (by omega))

theorem exec_handover_refused (hf : HostFree s) (hasked : asked ≤ 255) (hdir : dirOfCode code.toNat = some dir)
    (h : (s.seq k).state ≠ .handover) (hcan : canHandover k dir s = false) :
    exec (.handover tag (enc8 (Stand.pos k) ++ [code] ++ enc8 asked)) s = .next (reply 0x13 tag [5] s) := by
  obtain ⟨hpos, hcode, -⟩ := handoverBody (k := k) (code := code) hasked
  exact exec_of_request (c := .handover tag _) (kind := 0x13) (tag := tag) rfl (by decide) hf
    (reqHandover_refused rfl hpos (by rw [hcode]; exact hdir) h hcan)

/-- A taken HANDOVER: the reply, and what the handover leaves (R129). -/
theorem exec_handover_taken {secs : Nat} (hf : HostFree s) (hasked : asked ≤ 255) (hsecs : secs = max 1 (min 60 asked))
    (hdir : dirOfCode code.toNat = some dir) (hback : dirCode dir = code.toNat) (h : (s.seq k).state ≠ .handover)
    (hcan : canHandover k dir s = true) :
    ∃ l, exec (.handover tag (enc8 (Stand.pos k) ++ [code] ++ enc8 asked)) s = .next ((takeHandover k dir secs s).withHlk l) ∧
      Replied s ((takeHandover k dir secs s).withHlk l) 0x13 tag
        (enc8 (if secs = asked then 0 else 1) ++ enc8 (Stand.pos k) ++ [code] ++ enc8 secs ++
          enc8 (if completesAtOnce k dir s then 1 else 0) ++
          enc8 (standCode ((takeHandover k dir secs s).seq k).state)) := by
  obtain ⟨hpos, hcode, hread⟩ := handoverBody (k := k) (code := code) hasked
  have hans := reqHandover_taken (s := s) rfl hpos (by rw [hcode]; exact hdir) hread h hcan
  have hbyte : enc8 (dirCode dir) = [code] := by rw [hback, enc8, BitVec.ofNat_toNat, BitVec.setWidth_eq]
  rw [timeoutInForce_eq, ← hsecs, takenReply_clamped, hbyte] at hans
  obtain ⟨htx, hslot⟩ := takeHandover_line k dir secs s
  obtain ⟨l, hexec, hreplied⟩ :=
    exec_replied (c := .handover tag _) (kind := 0x13) (tag := tag) rfl (by decide) hf hans htx hslot
  refine ⟨l, hexec, ?_⟩
  simp only [List.append_assoc] at hreplied ⊢
  exact hreplied

end

namespace Settled

/-- Settles O48: the checks in R129's and R130's order, and the two ways in which a handover is taken. -/
theorem handover : Obligations.Handover := by
  intro tag k asked secs s hf hasked hsecs
  refine ⟨fun dir hdir h => ?_, fun may hmay h => ⟨fun hnot => ?_, fun hyes => ?_⟩, fun h hlocal => ?_,
    fun hlocal => ⟨fun hpanel => ?_, fun hpanel => ?_⟩⟩
  · obtain ⟨hpos, hcode, -⟩ := handoverBody (k := k) (code := dir) hasked
    obtain rfl | rfl := hdir
    · exact exec_of_request (c := .handover tag _) (kind := 0x13) (tag := tag) rfl (by decide) hf
        (reqHandover_busy (dir := .toLocal) rfl hpos (by rw [hcode]; rfl) h)
    · exact exec_of_request (c := .handover tag _) (kind := 0x13) (tag := tag) rfl (by decide) hf
        (reqHandover_busy (dir := .toCoord) rfl hpos (by rw [hcode]; rfl) h)
  · refine exec_handover_refused (dir := .toLocal) hf hasked rfl h ?_
    rw [canHandover, ← Bool.not_eq_true, canGoLocal_iff]
    exact fun hcan => hnot (hmay.mpr hcan)
  · have hcan : canHandover k .toLocal s = true := (canGoLocal_iff k s).mpr (hmay.mp hyes)
    obtain ⟨l, hexec, hreplied⟩ := exec_handover_taken (tag := tag) (code := 1) hf hasked hsecs rfl rfl h hcan
    obtain ⟨hstate, hlamp, hequalize, hhandover, hslot, hothers⟩ :=
      enterHandover_standing k { dir := .toLocal, prior := some (s.seq k).state, remaining := secs * 1000 } s
    refine ⟨_, hexec, ?_, hstate, hlamp, hequalize, hhandover, hslot, hothers⟩
    rw [show ((takeHandover k .toLocal secs s).seq k).state = _ from hstate, List.append_assoc _ (enc8 _) (enc8 _)] at hreplied
    exact hreplied
  · refine exec_handover_refused (dir := .toCoord) hf hasked rfl h ?_
    rw [canHandover, beq_eq_false_iff_ne]
    exact hlocal
  · have hnow : completesAtOnce k .toCoord s = false := by rw [completesAtOnce, hpanel]; rfl
    obtain ⟨l, hexec, hreplied⟩ := exec_handover_taken (tag := tag) (code := 2) hf hasked hsecs rfl rfl
      (by rw [hlocal]; decide) (beq_iff_eq.mpr hlocal)
    have htake : takeHandover k .toCoord secs s = enterHandover k { dir := .toCoord, prior := none, remaining := secs * 1000 } s :=
      if_neg (by rw [hnow]; simp)
    obtain ⟨hstate, hlamp, -, hhandover, hslot, hothers⟩ :=
      enterHandover_standing k { dir := .toCoord, prior := none, remaining := secs * 1000 } s
    rw [htake] at hexec hreplied
    refine ⟨_, hexec, ?_, hstate, hlamp, hhandover, hslot, hothers⟩
    rw [hstate, hnow, List.append_assoc _ (enc8 _) (enc8 _)] at hreplied
    exact hreplied
  · have hnow : completesAtOnce k .toCoord s = true := by rw [completesAtOnce, hpanel]; rfl
    obtain ⟨l, hexec, hreplied⟩ := exec_handover_taken (tag := tag) (code := 2) hf hasked hsecs rfl rfl
      (by rw [hlocal]; decide) (beq_iff_eq.mpr hlocal)
    have htake : takeHandover k .toCoord secs s = completeToCoord k s := if_pos hnow
    obtain ⟨hstate, hhandover, hlamp, hothers⟩ := completeToCoord_standing k s
    rw [htake] at hexec hreplied
    have hst : coordState (s.inSet k) (s.openCover k) =
        if s.inSet k = false then StandState.out else if s.openCover k = true then .tripped else .setup := by
      unfold coordState
      cases s.inSet k <;> rfl
    rw [hst] at hstate
    refine ⟨_, _, hexec, rfl, ?_, hstate, hhandover, hlamp, hothers⟩
    rw [hstate, hnow] at hreplied
    exact hreplied

end Settled

end Sys2Proof.Machine
end

section
/-! PROOFS. The RESTORE request: O47. -/

namespace Sys2Proof.Machine

/-! ## The outcome (R127) -/

theorem restoreOutcome_eq (k : Stand) (s : State) :
    restoreOutcome k s =
      if (s.seq k).state = .local_ ∨ (s.seq k).state = .handover then .standInLocal
      else if (s.seq k).state ≠ .tripped ∨ s.stripPresent k = true ∨ s.openCover k = true then .wrongState
      else .ok := by
  unfold restoreOutcome
  refine if_congr (away_iff _) rfl ?_
  by_cases htripped : (s.seq k).state ≠ .tripped
  · rw [if_pos htripped, if_pos (.inl htripped)]
  · rw [if_neg htripped]
    by_cases hstrip : s.stripPresent k = true
    · rw [if_pos hstrip, if_pos (.inr (.inl hstrip))]
    · rw [if_neg hstrip]
      exact if_congr (by simp [htripped, hstrip]) rfl rfl

theorem restoreOutcome_congr {k : Stand} {s t : State} (hstate : (t.seq k).state = (s.seq k).state) (hplu : t.plu = s.plu)
    (htmx : t.tmx = s.tmx) : restoreOutcome k t = restoreOutcome k s := by
  unfold restoreOutcome State.stripPresent State.presence State.openCover
  rw [hstate, hplu, htmx]

/-! ## A restored stand (R125, R126, R128) -/

/-- A MILL_STOP record covers every stand (R150). -/
theorem not_millStop_of_uncovered {k : Stand} {s : State} (h : s.openCover k = false) : s.millStopExists = false := by
  unfold State.openCover at h
  unfold State.millStopExists
  rw [List.any_eq_false] at h ⊢
  intro r hr haction
  refine h r hr ?_
  rw [beq_iff_eq] at haction
  unfold TripRecord.covers
  rw [haction]
  rfl

/-- The FAST_OPEN output of a stand is released, with no MILL_STOP record that would assert it (R125). -/
structure Released (k : Stand) (s : State) : Prop where
  fast : (s.seq k).fastOpen = false
  interval : (s.seq k).nonOverlap = none
  state : (s.seq k).state ≠ .tripped
  noStop : s.millStopExists = false

theorem fastOpenDemand_released {st : StandState} (h : st ≠ .tripped) : fastOpenDemand st false = false := by
  cases st with
  | tripped => exact absurd rfl h
  | _ => rfl

theorem evalDemand_released {q : SeqRecord} {tNo : Nat} (h : q.state ≠ .tripped) :
    (q.evalDemand false tNo).fastOpen = false ∧ (q.evalDemand false tNo).nonOverlap = none := by
  unfold SeqRecord.evalDemand
  dsimp only
  rw [if_neg (by rw [fastOpenDemand_released h]; simp)]
  exact ⟨rfl, rfl⟩

theorem Released.congr {k : Stand} {s t : State} (hseq : t.seq k = s.seq k) (hstop : t.millStopExists = false) (h : Released k s) :
    Released k t where
  fast := hseq ▸ h.fast
  interval := hseq ▸ h.interval
  state := hseq ▸ h.state
  noStop := hstop

theorem released_demand {k : Stand} {s : State} (hstate : (s.seq k).state ≠ .tripped) (hstop : s.millStopExists = false) :
    Released k (eachStand evalDemand s) := by
  have hseq : (eachStand evalDemand s).seq k = (s.seq k).evalDemand s.millStopExists (s.tNo k) := eachStand_evalDemand_seq s k
  rw [hstop] at hseq
  obtain ⟨hfast, hinterval⟩ := evalDemand_released (q := s.seq k) (tNo := s.tNo k) hstate
  exact { fast := by rw [hseq]; exact hfast
          interval := by rw [hseq]; exact hinterval
          state := by rw [hseq, (evalDemand_record_keeps _ _ _).1]; exact hstate
          noStop := by simpa [State.millStopExists] using hstop }

theorem millStopExists_modRecord {key : Key} {f : TripRecord → TripRecord} (hf : ∀ r, (f r).action = r.action) (s : State) :
    (s.modRecord key f).millStopExists = s.millStopExists := by
  unfold State.millStopExists State.modRecord
  simp only [State.withTmx, List.any_map]
  refine congrArg s.tmx.table.any (funext fun r => ?_)
  simp only [Function.comp_apply]
  split
  · rw [hf]
  · rfl

theorem released_removeRecord {k : Stand} {s : State} (r : TripRecord) (h : Released k s) : Released k (removeRecord r s) := by
  unfold removeRecord
  dsimp only
  generalize hv : evalStopLine (s.withTmx { s.tmx with table := s.tmx.table.filter fun q => !(q.key == r.key) }) = v
  have hstop : v.millStopExists = false := by
    have hs := h.noStop
    rw [← hv]
    unfold State.millStopExists at hs ⊢
    rw [List.any_eq_false] at hs ⊢
    exact fun q hq => hs q (List.mem_of_mem_filter hq)
  have hstate : ((eachStand evalFrozen v).seq k).state ≠ .tripped := by
    rw [eachStand_evalFrozen_seq, ← hv]
    exact h.state
  refine (released_demand hstate ?_).congr (seq_congr (by simp) k) ?_
  · simpa [State.millStopExists] using hstop
  · simpa [State.millStopExists] using hstop

theorem released_evalScopes {k : Stand} {s : State} (h : Released k s) : Released k (evalScopes s) := by
  refine foldl_inv (P := Released k) (fun t key => goneOutOfScope key t) (fun key {t} ht => ?_) _
    (h.congr (t := clearCounters s) (seq_congr (by simp) k) h.noStop)
  unfold goneOutOfScope
  split
  · obtain ⟨-, e⟩ | ⟨r, -, ⟨-, e⟩ | ⟨-, e⟩ | ⟨-, e⟩⟩ := goneKey_cases key t <;> rw [e]
    · exact ht
    · refine ht.congr (seq_congr (by simp [State.modRecord, State.withTmx]) k) ?_
      have hstop := (millStopExists_modRecord (key := key) (f := fun r => { r with state := .held }) (fun _ => rfl) t).trans ht.noStop
      simpa [State.millStopExists] using hstop
    · exact released_removeRecord r ht
    · exact ht
  · exact ht

/-- The state that a restored stand enters (R128). -/
def restoredState (k : Stand) (s : State) : StandState := if s.inSet k then .setup else .out

theorem restored_other {k j : Stand} (hj : j ≠ k) (s : State) : (restored k s).seq j = s.seq j := by
  unfold restored
  dsimp only
  split
  · rw [modSeq_seq, if_neg hj, setStandState_seq, if_neg hj, modSeq_seq, if_neg hj]
  · rw [setStandState_seq, if_neg hj, modSeq_seq, if_neg hj]

theorem restored_released {k : Stand} {s : State} (hcover : s.openCover k = false) : Released k (restored k s) := by
  have hstop := not_millStop_of_uncovered hcover
  have htable : (restored k s).millStopExists = false := by
    unfold State.millStopExists at hstop ⊢
    rw [(restored_keeps k s).2.2.2.2.1]
    exact hstop
  have hdemand (st : StandState) (hst : st ≠ .tripped) (t : State) (ht : t.millStopExists = false) :
      ((setStandState k st t).seq k).fastOpen = false ∧ ((setStandState k st t).seq k).nonOverlap = none ∧
        ((setStandState k st t).seq k).state ≠ .tripped := by
    rw [setStandState_seq, if_pos rfl, ht]
    obtain ⟨hfast, hinterval⟩ := evalDemand_released (q := (t.seq k).enter st) (tNo := t.tNo k) hst
    exact ⟨hfast, hinterval, by rw [(evalDemand_record_keeps _ _ _).1]; exact hst⟩
  suffices h : ((restored k s).seq k).fastOpen = false ∧ ((restored k s).seq k).nonOverlap = none ∧
      ((restored k s).seq k).state ≠ .tripped from ⟨h.1, h.2.1, h.2.2, htable⟩
  unfold restored
  dsimp only
  split
  · rw [modSeq_seq_self]
    exact hdemand .setup (by decide) _ hstop
  · exact hdemand .out (by decide) _ hstop

/-! ## One stand -/

/-- What a RESTORE of one stand leaves (R125, R126, R128). -/
theorem restoreStand_leaves {k : Stand} {s : State} (hcover : s.openCover k = false) :
    ((restoreStand k s).seq k).state = restoredState k s ∧ ((restoreStand k s).seq k).fastOpen = false ∧
      ((restoreStand k s).seq k).nonOverlap = none ∧ (restoreStand k s).gce = s.gce ∧
      ((restoreStand k s).seq k).equalize =
        (match s.inSet k, s.record k with
          | true, some r => if 0 < r.tEq then some r.tEq else none
          | _, _ => none) ∧
      ∀ j, j ≠ k → ((restoreStand k s).seq j).state = (s.seq j).state := by
  have hstanding : (restoreStand k s).standing = (restored k s).standing := by
    rw [restoreStand_eq, evalScopes_standing]
    exact standing_congr (by simp)
  have hreleased : Released k (restoreStand k s) := by
    rw [restoreStand_eq]
    refine released_evalScopes ((restored_released hcover).congr (seq_congr (by simp) k) ?_)
    simpa [State.millStopExists] using (restored_released hcover).noStop
  have hself := restored_seq k k s
  rw [if_pos rfl] at hself
  obtain ⟨hstate, -, -, hequalize⟩ := standing_iff.mp (congrFun hstanding k)
  refine ⟨hstate.trans (congrArg (·.1) hself), hreleased.fast, hreleased.interval, ?_, hequalize.trans ?_, fun j hj => ?_⟩
  · rw [restoreStand_eq]
    simp [(restored_keeps k s).2.2.1]
  · refine (congrArg (·.2.2.2) hself).trans ?_
    cases s.inSet k with
    | true => cases s.record k <;> rfl
    | false => cases s.record k <;> rfl
  · rw [(standing_iff.mp (congrFun hstanding j)).1, restored_other hj]

/-! ## All stands -/

theorem restoreOne_other {j k : Stand} (hj : j ≠ k) (s : State) : ((restoreOne k s).seq j).state = (s.seq j).state := by
  unfold restoreOne
  split
  · rw [restoreStand_eq, evalScopes_state, standNotice_seq, restored_other hj]
  · rfl

/-- The outcomes of a RESTORE of several stands, in their order. -/
def restoreOutcomes : List Stand → State → List (Stand × ReplyCode)
  | [], _ => []
  | k :: rest, s => (k, restoreOutcome k s) :: restoreOutcomes rest (restoreOne k s)

/-- Several stands restored in order. -/
def restoreEach (l : List Stand) (s : State) : State := l.foldl (fun t k => restoreOne k t) s

theorem restoreAll_foldl (l : List Stand) (s : State) (acc : List (Stand × ReplyCode)) :
    l.foldl (fun t k => (restoreOne k t.1, t.2 ++ [(k, restoreOutcome k t.1)])) (s, acc) =
      (restoreEach l s, acc ++ restoreOutcomes l s) := by
  induction l generalizing s acc with
  | nil => simp [restoreEach, restoreOutcomes]
  | cons k rest ih => simp [ih, restoreEach, restoreOutcomes]

theorem restoreAll_eq (s : State) : restoreAll s = (restoreEach allStands s, restoreOutcomes allStands s) :=
  restoreAll_foldl allStands s []

theorem length_restoreOutcomes (l : List Stand) (s : State) : (restoreOutcomes l s).length = l.length := by
  induction l generalizing s with
  | nil => rfl
  | cons k rest ih => rw [restoreOutcomes, List.length_cons, ih, List.length_cons]

theorem restoreOutcomes_append (before after : List Stand) (s : State) :
    restoreOutcomes (before ++ after) s = restoreOutcomes before s ++ restoreOutcomes after (restoreEach before s) := by
  induction before generalizing s with
  | nil => rfl
  | cons k rest ih => rw [List.cons_append, restoreOutcomes, ih]; rfl

theorem restoreEach_append (before after : List Stand) (s : State) :
    restoreEach (before ++ after) s = restoreEach after (restoreEach before s) := List.foldl_append

theorem restoreEach_other {j : Stand} {l : List Stand} (hj : j ∉ l) (s : State) :
    ((restoreEach l s).seq j).state = (s.seq j).state := by
  induction l generalizing s with
  | nil => rfl
  | cons k rest ih =>
    obtain ⟨hne, hrest⟩ := List.ne_and_not_mem_of_not_mem_cons hj
    exact (ih hrest (restoreOne k s)).trans (restoreOne_other hne s)

/-- A stand stands once among all. -/
theorem allStands_split (j : Stand) :
    allStands = allStands.take j.val ++ j :: allStands.drop (j.val + 1) ∧ (allStands.take j.val).length = j.val ∧
      j ∉ allStands.take j.val ∧ j ∉ allStands.drop (j.val + 1) := by
  revert j
  decide

theorem length_restoreContent (t : State) (l : List (Stand × ReplyCode)) : (restoreAllContent t l).length = 2 * l.length := by
  unfold restoreAllContent
  induction l with
  | nil => rfl
  | cons o rest ih =>
    rw [List.map_cons, List.flatten_cons, List.length_append, ih, List.length_append, length_enc8, length_enc8, List.length_cons]
    omega

/-- The pair of a stand in a RESTORE reply: its outcome, and its state after the request (R128). -/
theorem rd8_restoreContent (t : State) (before after : List (Stand × ReplyCode)) (j : Stand) (c : ReplyCode) :
    rd8 (restoreAllContent t (before ++ (j, c) :: after)) (2 * before.length) = c.num ∧
      rd8 (restoreAllContent t (before ++ (j, c) :: after)) (2 * before.length + 1) = standCode (t.seq j).state := by
  have hsplit : restoreAllContent t (before ++ (j, c) :: after) =
      restoreAllContent t before ++ (enc8 c.num ++ (enc8 (standCode (t.seq j).state) ++ restoreAllContent t after)) := by
    simp [restoreAllContent]
  rw [hsplit, ← length_restoreContent t]
  refine ⟨?_, ?_⟩
  · refine (rd8_append_right _ _ 0).trans (rd8_of_enc8 ?_ _)
    cases c <;> decide
  · refine (rd8_append_right _ _ 1).trans ?_
    refine (rd8_append_right (enc8 c.num) _ 0).trans (rd8_of_enc8 ?_ _)
    cases (t.seq j).state <;> decide

/-- The state in which a RESTORE of all comes to stand `j`. -/
def restoreBefore (j : Stand) (s : State) : State := restoreEach (allStands.take j.val) s

theorem restoreAll_seq (j : Stand) (s : State) :
    (((restoreEach allStands s).seq j).state = ((restoreOne j (restoreBefore j s)).seq j).state) ∧
      ((restoreBefore j s).seq j).state = (s.seq j).state := by
  obtain ⟨hsplit, -, hbefore, hafter⟩ := allStands_split j
  refine ⟨?_, restoreEach_other hbefore s⟩
  rw [hsplit, restoreEach_append]
  exact restoreEach_other hafter _

theorem restoreAll_content (j : Stand) (s t : State) :
    rd8 (restoreAllContent t (restoreOutcomes allStands s)) (2 * j.val) = (restoreOutcome j (restoreBefore j s)).num ∧
      rd8 (restoreAllContent t (restoreOutcomes allStands s)) (2 * j.val + 1) = standCode (t.seq j).state := by
  obtain ⟨hsplit, hlen, -, -⟩ := allStands_split j
  have h := rd8_restoreContent t (restoreOutcomes (allStands.take j.val) s)
    (restoreOutcomes (allStands.drop (j.val + 1)) (restoreOne j (restoreBefore j s))) j (restoreOutcome j (restoreBefore j s))
  rw [length_restoreOutcomes, hlen] at h
  rw [hsplit, restoreOutcomes_append]
  exact h

/-! ## All stands, with every present key in scope -/

/-- A loop scope reads the active set and which stands roll (R147). -/
theorem loopScope_of_roll {j : Stand} {s t : State} (hset : t.activeSet = s.activeSet)
    (hroll : ∀ {i : Stand}, ((s.seq i).state == .roll) = true → ((t.seq i).state == .roll) = true)
    (h : loopScope j s = true) : loopScope j t = true := by
  have hprev : t.prevActive j = s.prevActive j := by simp only [State.prevActive, hset]
  simp only [loopScope, Bool.and_eq_true, State.inSet, State.isFirst, State.firstActive, hset, hprev] at h ⊢
  obtain ⟨⟨hplace, hself⟩, hbefore⟩ := h
  refine ⟨⟨hplace, hroll hself⟩, ?_⟩
  cases hp : s.prevActive j with
  | none => rw [hp] at hbefore; exact hbefore
  | some i =>
    rw [hp] at hbefore
    exact hroll hbefore

/-- A restored stand leaves no scope (R139). -/
theorem scopesOk_restored {k : Stand} {s : State} (htripped : (s.seq k).state = .tripped) (h : ScopesOk s) :
    ScopesOk (restored k s) := by
  obtain ⟨hkeys, hforce, hgap, hcounts⟩ := h
  obtain ⟨hstk, hsch, hgce, -, htmx, hplu, -⟩ := restored_keeps k s
  have hstate {j : Stand} (hj : (s.seq j).state ≠ .tripped) : ((restored k s).seq j).state = (s.seq j).state := by
    rw [restored_other]
    rintro rfl
    exact hj htripped
  have hrec (key : Key) : (restored k s).present key = s.present key := present_congr (recordOf_congr (by rw [htmx]) key)
  have hpass {j : Stand} (hj : (s.seq j).state.inPass = true) : ((restored k s).seq j).state.inPass = true := by
    rw [hstate (fun e => by rw [e] at hj; exact nomatch hj)]
    exact hj
  have hthreaded {j : Stand} (hj : (s.seq j).state.threaded = true) : ((restored k s).seq j).state.threaded = true := by
    rw [hstate (fun e => by rw [e] at hj; exact nomatch hj)]
    exact hj
  have hroll {j : Stand} (hj : ((s.seq j).state == .roll) = true) : (((restored k s).seq j).state == .roll) = true := by
    rw [beq_iff_eq] at hj ⊢
    rw [hstate (by rw [hj]; decide), hj]
  have hset : (restored k s).activeSet = s.activeSet := by simp only [State.activeSet, State.millRec, hsch]
  have hscope (key : Key) (hk : scopeHolds s key = true) : scopeHolds (restored k s) key = true := by
    cases key with
    | resetStop => rfl
    | hostStop => rfl
    | stopInput n => rfl
    | exitStale =>
      unfold scopeHolds at hk ⊢
      rw [hstk]
      exact hk
    | stand c j =>
      cases c with
      | forceHigh => exact hpass hk
      | gapWindow =>
        simp only [scopeHolds, Bool.and_eq_true, State.gap, hgce] at hk ⊢
        exact ⟨⟨hpass hk.1.1, hk.1.2⟩, hk.2⟩
      | sampleStale => exact hthreaded hk
      | driveFault => rfl
      | headOverdue =>
        simp only [scopeHolds, Bool.and_eq_true, beq_iff_eq, State.inSet, State.isFirst, State.firstActive, hset,
          State.stripPresent, State.presence, hplu] at hk ⊢
        obtain ⟨⟨hplace, hready⟩, hstrip⟩ := hk
        exact ⟨⟨hplace, (hstate (by rw [hready]; decide)).trans hready⟩, hstrip⟩
      | loopGrow => exact loopScope_of_roll hset hroll hk
      | loopPull => exact loopScope_of_roll hset hroll hk
      | unready => rfl
  refine ⟨fun key hp => hscope key (hkeys key ((hrec key).symm.trans hp)), fun j hj => ?_, fun j hj => ?_, ?_⟩
  · rw [htmx]
    refine hforce j (Bool.eq_false_iff.mpr fun hk => ?_)
    exact nomatch hj.symm.trans (hscope _ hk)
  · rw [htmx]
    refine hgap j (Bool.eq_false_iff.mpr fun hk => ?_)
    exact nomatch hj.symm.trans (hscope _ hk)
  · rw [htmx]
    exact hcounts

/-- What a RESTORE leaves of every other stand and of the outcomes, with every present key in scope. -/
structure RestoreKeeps (s t : State) : Prop where
  scopes : ScopesOk t
  tmx : t.tmx = s.tmx
  plu : t.plu = s.plu
  sch : t.sch = s.sch
  gce : t.gce = s.gce

theorem restoreOne_of_ok {k : Stand} {s : State} (hok : restoreOutcome k s = .ok) (h : ScopesOk s) :
    restoreOne k s = standNotice k (restored k s) := by
  unfold restoreOne
  rw [if_pos hok, restoreStand_eq]
  exact evalScopes_of_scopesOk _
    (scopesOk_updateNotice _ _ (scopesOk_restored (restoreOutcome_ok hok).1 h))

theorem restoreOne_keeps (k : Stand) {s : State} (h : ScopesOk s) :
    RestoreKeeps s (restoreOne k s) ∧ ∀ j, j ≠ k → (restoreOne k s).seq j = s.seq j := by
  by_cases hok : restoreOutcome k s = .ok
  · obtain ⟨-, hsch, hgce, -, htmx, hplu, -⟩ := restored_keeps k s
    rw [restoreOne_of_ok hok h]
    refine ⟨⟨?_, by simp [htmx], by simp [hplu], by simp [hsch], by simp [hgce]⟩, fun j hj => ?_⟩
    · exact scopesOk_updateNotice _ _ (scopesOk_restored (restoreOutcome_ok hok).1 h)
    · rw [standNotice_seq, restored_other hj]
  · have e : restoreOne k s = s := if_neg hok
    rw [e]
    exact ⟨⟨h, rfl, rfl, rfl, rfl⟩, fun _ _ => rfl⟩

theorem restoreEach_keeps (l : List Stand) {s : State} (h : ScopesOk s) :
    RestoreKeeps s (restoreEach l s) ∧ ∀ j, j ∉ l → (restoreEach l s).seq j = s.seq j := by
  induction l generalizing s with
  | nil => exact ⟨⟨h, rfl, rfl, rfl, rfl⟩, fun _ _ => rfl⟩
  | cons k rest ih =>
    obtain ⟨hone, hother⟩ := restoreOne_keeps k h
    obtain ⟨hrest, hothers⟩ := ih hone.scopes
    refine ⟨⟨hrest.scopes, hrest.tmx.trans hone.tmx, hrest.plu.trans hone.plu, hrest.sch.trans hone.sch,
      hrest.gce.trans hone.gce⟩, fun j hj => ?_⟩
    obtain ⟨hne, hmem⟩ := List.ne_and_not_mem_of_not_mem_cons hj
    exact (hothers j hmem).trans (hother j hne)

/-- A RESTORE of all takes each stand as it stood before the request (R128). -/
theorem restoreAll_stand (j : Stand) {s : State} (h : ScopesOk s) :
    restoreOutcome j (restoreBefore j s) = restoreOutcome j s ∧
      (restoreOutcome j s ≠ .ok → (restoreEach allStands s).seq j = s.seq j) ∧
      (restoreOutcome j s = .ok →
        ((restoreEach allStands s).seq j).state = restoredState j s ∧ ((restoreEach allStands s).seq j).fastOpen = false ∧
          ((restoreEach allStands s).seq j).nonOverlap = none ∧
          ((restoreEach allStands s).seq j).equalize =
            (match s.inSet j, s.record j with
              | true, some r => if 0 < r.tEq then some r.tEq else none
              | _, _ => none)) := by
  obtain ⟨hsplit, -, hbefore, hafter⟩ := allStands_split j
  obtain ⟨hkeeps, hother⟩ := restoreEach_keeps (allStands.take j.val) h
  have hself : (restoreBefore j s).seq j = s.seq j := hother j hbefore
  have hout : restoreOutcome j (restoreBefore j s) = restoreOutcome j s :=
    restoreOutcome_congr (by rw [hself]) hkeeps.plu hkeeps.tmx
  have hlast : (restoreEach allStands s).seq j = (restoreOne j (restoreBefore j s)).seq j := by
    conv_lhs => rw [hsplit, restoreEach_append]
    exact (restoreEach_keeps _ (restoreOne_keeps j hkeeps.scopes).1.scopes).2 j hafter
  refine ⟨hout, fun hnot => ?_, fun hok => ?_⟩
  · rw [hlast, restoreOne, if_neg (by rw [hout]; exact hnot), hself]
  · have hokBefore := hout.trans hok
    obtain ⟨hstate, hfast, hinterval, -, hequalize, -⟩ := restoreStand_leaves (restoreOutcome_ok hokBefore).2.2
    have hin : (restoreBefore j s).inSet j = s.inSet j := by
      simp only [State.inSet, State.activeSet, State.millRec, restoreBefore, hkeeps.sch]
    have hrecord : (restoreBefore j s).record j = s.record j := by simp only [State.record, restoreBefore, hkeeps.sch]
    rw [hlast, restoreOne, if_pos hokBefore]
    rw [hin, hrecord] at hequalize
    refine ⟨hstate.trans ?_, hfast, hinterval, hequalize⟩
    unfold restoredState
    rw [hin]

theorem restoreOutcome_num (k : Stand) (s : State) :
    (restoreOutcome k s).num =
      if (s.seq k).state = .local_ ∨ (s.seq k).state = .handover then 6
      else if (s.seq k).state ≠ .tripped ∨ s.stripPresent k = true ∨ s.openCover k = true then 5
      else 0 := by
  rw [restoreOutcome_eq]
  split
  · rfl
  · split <;> rfl

theorem okNum {c : ReplyCode} (h : c.num = 0) : c = .ok := by
  cases c with
  | ok => rfl
  | _ => exact nomatch h

/-! ## The request -/

theorem reqRestore_all {body : List Byte} {s : State} (hlen : body.length = 1) (hpos : rd8 body 0 = 0) :
    reqRestore body s = (restoreEach allStands s,
      okReply (restoreAllContent (restoreEach allStands s) (restoreOutcomes allStands s))) := by
  unfold reqRestore
  refine (withLength_of_eq hlen s _).trans ?_
  have hnone : standOfPos 0 = none := by decide
  rw [hpos, hnone, if_neg (by decide), restoreAll_eq]

theorem reqRestore_one {k : Stand} (s : State) :
    reqRestore (enc8 (Stand.pos k)) s =
      if restoreOutcome k s = .ok then
        (restoreStand k s, okReply (enc8 (Stand.pos k) ++ enc8 (standCode ((restoreStand k s).seq k).state)))
      else (s, codeReply (restoreOutcome k s)) := by
  unfold reqRestore
  refine (withLength_of_eq (length_enc8 _) s _).trans ?_
  have hread : rd8 (enc8 (Stand.pos k)) 0 = Stand.pos k := (rd8_enc8_end _).trans (Nat.mod_eq_of_lt (by unfold Stand.pos; omega))
  rw [hread, standOfPos_pos]
  exact if_neg (by unfold Stand.pos; omega)

theorem exec_restore_refused {tag : Byte} {k : Stand} {s : State} (hf : HostFree s) (h : restoreOutcome k s ≠ .ok) :
    exec (.restore tag (enc8 (Stand.pos k))) s = .next (reply 0x12 tag (codeReply (restoreOutcome k s)) s) :=
  exec_of_request (c := .restore tag _) (kind := 0x12) (tag := tag) rfl (by decide) hf ((reqRestore_one s).trans (if_neg h))

theorem restoreStand_line (k : Stand) (s : State) :
    (restoreStand k s).hlk.tx = s.hlk.tx ∧ (restoreStand k s).hlk.slot = s.hlk.slot := by
  rw [restoreStand_eq]
  simp [(restored_keeps k s).2.2.2.2.2.2]

theorem restoreEach_line (l : List Stand) (s : State) :
    (restoreEach l s).hlk.tx = s.hlk.tx ∧ (restoreEach l s).hlk.slot = s.hlk.slot := by
  have hone (t : State) (k : Stand) : (restoreOne k t).hlk.tx = t.hlk.tx ∧ (restoreOne k t).hlk.slot = t.hlk.slot := by
    unfold restoreOne
    split
    · exact restoreStand_line k t
    · exact ⟨rfl, rfl⟩
  exact ⟨foldl_keeps (fun t => t.hlk.tx) _ (fun t k => (hone t k).1) l s,
    foldl_keeps (fun t => t.hlk.slot) _ (fun t k => (hone t k).2) l s⟩

namespace Settled

/-- Settles O47: the outcome by R127's table, what a restored stand is left with, and the pairs of a RESTORE of all. -/
theorem restore : Obligations.Restore := by
  intro tag k s hf
  refine ⟨fun haway => ?_, fun hlocal hhand hnot => ?_, fun htripped hstrip hcover => ?_, ?_⟩
  · have hout : restoreOutcome k s = .standInLocal := (restoreOutcome_eq k s).trans (if_pos haway)
    have hexec := exec_restore_refused (tag := tag) hf (by rw [hout]; decide)
    rw [hout] at hexec
    exact hexec
  · have hout : restoreOutcome k s = .wrongState :=
      (restoreOutcome_eq k s).trans ((if_neg (by simp [hlocal, hhand])).trans (if_pos hnot))
    have hexec := exec_restore_refused (tag := tag) hf (by rw [hout]; decide)
    rw [hout] at hexec
    exact hexec
  · have hout : restoreOutcome k s = .ok :=
      (restoreOutcome_eq k s).trans ((if_neg (by simp [htripped])).trans (if_neg (by simp [htripped, hstrip, hcover])))
    obtain ⟨htx, hslot⟩ := restoreStand_line k s
    obtain ⟨l, hexec, hreplied⟩ := exec_replied (c := .restore tag _) (kind := 0x12) (tag := tag) rfl (by decide) hf
      ((reqRestore_one (k := k) s).trans (if_pos hout)) htx hslot
    obtain ⟨hstate, hfast, hinterval, hgce, hequalize, hothers⟩ := restoreStand_leaves hcover
    rw [hstate] at hreplied
    refine ⟨_, _, hexec, rfl, ?_, hstate, hfast, hinterval, hgce, hequalize, hothers⟩
    rw [List.append_assoc]
    exact hreplied
  · obtain ⟨htx, hslot⟩ := restoreEach_line allStands s
    have hans := reqRestore_all (body := [0]) (s := s) rfl rfl
    obtain ⟨l, hexec, hreplied⟩ := exec_replied (c := .restore tag [0]) (kind := 0x12) (tag := tag) rfl (by decide) hf
      hans htx hslot
    have hlen : (restoreAllContent (restoreEach allStands s) (restoreOutcomes allStands s)).length = 16 := by
      rw [length_restoreContent, length_restoreOutcomes]
      decide
    refine ⟨_, _, hexec, hreplied, hlen, fun j => ?_⟩
    · obtain ⟨hcode, hstateCode⟩ := restoreAll_content j s (restoreEach allStands s)
      obtain ⟨hafter, hbefore⟩ := restoreAll_seq j s
      have hseq (v : State) : (v.withHlk l).seq j = v.seq j := rfl
      have hgce (v : State) : (v.withHlk l).gce = v.gce := rfl
      rw [hseq, hgce]
      refine ⟨hstateCode, fun hne => ?_, fun hscopes => ?_⟩
      · rw [hcode] at hne
        have hnot : restoreOutcome j (restoreBefore j s) ≠ .ok := fun e => hne (by rw [e]; rfl)
        rw [restoreOne, if_neg hnot] at hafter
        exact hafter.trans hbefore
      · obtain ⟨hcodeEq, hkept, htaken⟩ := restoreAll_stand j hscopes
        refine ⟨(restoreEach_keeps allStands hscopes).1.gce, fun code hcodeIs => ?_⟩
        rw [hcode, hcodeEq, restoreOutcome_num, ← hcodeIs]
        refine ⟨rfl, fun hne => hkept fun hok => hne ?_, fun hzero => htaken ?_⟩
        · rw [hcodeIs, ← restoreOutcome_num, hok]
          rfl
        · rw [hcodeIs, ← restoreOutcome_num] at hzero
          exact okNum hzero

end Settled

end Sys2Proof.Machine
end

section
/-! PROOFS. The requests to the trip matrix, STOP and ACK_TRIP: O45, O46. -/

namespace Sys2Proof.Machine

/-! ## STOP (R158) -/

/-- Once HOST_STOP has a record, the stop line follows the MILL_STOP records (R162). -/
def StopFollows (s : State) : Prop :=
  s.recordOf .hostStop ≠ none → s.tmx.stopLine = s.millStopExists

theorem stopFollows_modRecord {key : Key} {f : TripRecord → TripRecord} (hkey : ∀ r, (f r).key = r.key)
    (haction : ∀ r, (f r).action = r.action) {s : State} (h : StopFollows s) : StopFollows (s.modRecord key f) := by
  intro hrec
  rw [millStopExists_modRecord haction]
  refine h fun hnone => hrec ?_
  rw [recordOf_modRecord key _ f hkey, hnone]
  simp

theorem keeps_stopFollows : Kept StopFollows where
  mark key st s h := stopFollows_modRecord (f := fun r => { r with state := st }) (fun _ => rfl) (fun _ => rfl) h
  reraise key s h :=
    stopFollows_modRecord (f := fun r => { r with state := .raised, occ := satSucc 255 r.occ }) (fun _ => rfl) (fun _ => rfl) h
  add _ _ _ _ _ := rfl
  drop _ _ _ _ := rfl

/-- A stand in TRIPPED stays there under a creation (R122). -/
theorem createRecord_keeps_tripped (inTracker : Bool) (key : Key) {s : State} {k : Stand} (h : (s.seq k).state = .tripped) :
    ((createRecord inTracker key s).seq k).state = .tripped := by
  have htripped : ((handed key s).seq k).state = .tripped := by
    unfold handed
    rw [handCreation_seq]
    refine (evalDemand_record_keeps _ _ _).1.trans ?_
    split
    · show ((s.seq k).opened _ _ _).state = .tripped
      unfold SeqRecord.opened
      rw [if_neg (by rw [h]; decide), if_neg (by rw [h]; decide)]
      exact h
    · exact h
  rw [createRecord_eq, evalScopes_state, tripNotice_seq]
  unfold handedTest
  split
  · exact tripped_millEmptyTest k htripped
  · exact htripped

theorem goneKey_state (key : Key) (s : State) (k : Stand) : ((goneKey key s).seq k).state = (s.seq k).state :=
  (standing_iff.mp (congrFun (goneKey_standing key s) k)).1

theorem reqStop_eq (s : State) :
    reqStop [] s =
      (pulseKey .hostStop s, okReply (enc8 (((pulseKey .hostStop s).recordOf .hostStop).elim 0 (·.occ)))) :=
  withLength_of_eq rfl s _

theorem pulseKey_line (key : Key) (s : State) :
    (pulseKey key s).hlk.tx = s.hlk.tx ∧ (pulseKey key s).hlk.slot = s.hlk.slot := by simp

/-- A new HOST_STOP record (R153, R154, R158). -/
theorem pulse_hostStop_new {s : State} (hnew : s.recordOf .hostStop = none) :
    (pulseKey .hostStop s).recordOf .hostStop = some { newRecord .hostStop s with state := .held } := by
  unfold pulseKey
  rw [raiseKey_of_none false hnew, recordOf_goneKey, if_pos rfl]
  obtain e | ⟨hscope, -⟩ := createRecord_record false .hostStop hnew
  · rw [e]
    rfl
  · exact nomatch hscope

/-- A HELD HOST_STOP record re-raised (R154, R158). -/
theorem pulse_hostStop_held {s : State} {r : TripRecord} (hr : s.recordOf .hostStop = some r) (hheld : r.state = .held) :
    (pulseKey .hostStop s).recordOf .hostStop = some { r with occ := min 255 (r.occ + 1) } := by
  have hraised := (raiseKey_of_record false hr).2.2.2.2 .hostStop
  unfold pulseKey
  rw [recordOf_goneKey, if_pos rfl, hraised, if_pos rfl, reraised, if_pos hheld, satSucc_min]
  obtain ⟨key, state, action, stampMs, stampCoil, stampSeg, occ, firstOut⟩ := r
  obtain rfl : state = .held := hheld
  rfl

/-- The gone of a raised record changes no stand and no stop line (R155). -/
theorem goneKey_raised {key : Key} {s : State} {r : TripRecord} (hr : s.recordOf key = some r) (hraised : r.state = .raised) :
    (goneKey key s).ssq = s.ssq ∧ (goneKey key s).stk = s.stk ∧ (goneKey key s).tmx.stopLine = s.tmx.stopLine := by
  unfold goneKey
  rw [hr]
  dsimp only
  rw [hraised]
  simp [State.modRecord]

/-- Settles O45: the creation opens every stand in the pass, and the record is HELD when the event is over. -/
theorem stopTripsEveryStand : Obligations.StopTripsEveryStand := by
  intro tag s hf haction
  obtain ⟨htx, hslot⟩ := pulseKey_line .hostStop s
  obtain ⟨l, hexec, hreplied⟩ := exec_replied (c := .stop tag []) (kind := 0x10) (tag := tag) rfl (by decide) hf
    (reqStop_eq s) htx hslot
  refine ⟨fun hnew => ?_, fun r hr hheld => ?_⟩
  · have hrec := pulse_hostStop_new hnew
    have hopen : (newRecord .hostStop s).action = .millStop := haction
    rw [hrec] at hreplied
    refine ⟨_, hexec, hreplied, hrec.trans ?_, ?_, fun k hk => ?_⟩
    · rw [newRecord, show vget s.sch.config.actions Key.hostStop.row = .millStop from haction]
    · have hfollows : StopFollows (pulseKey .hostStop s) :=
        keeps_stopFollows.after_pulseKey .hostStop fun h => absurd hnew h
      refine (hfollows (by rw [hrec]; exact Option.some_ne_none _)).trans ?_
      rw [millStopExists_iff]
      exact ⟨_, List.mem_of_find?_eq_some hrec, haction⟩
    · have hcreated : ((createRecord false .hostStop s).seq k).state = .tripped := by
        obtain hpass | htripped := hk
        · refine createRecord_trips false .hostStop k (by rw [hopen]; rfl) ?_ hpass
          unfold TripRecord.covers
          rw [hopen]
        · exact createRecord_keeps_tripped false .hostStop htripped
      refine (goneKey_state .hostStop _ k).trans ?_
      rw [raiseKey_of_none false hnew]
      exact hcreated
  · have hrec := pulse_hostStop_held hr hheld
    obtain ⟨hssq, hstk, -, -, hraised⟩ := raiseKey_of_record false hr
    obtain ⟨hgoneSsq, hgoneStk, -⟩ := goneKey_raised ((hraised .hostStop).trans (if_pos rfl))
      (by rw [reraised, if_pos hheld])
    rw [hrec] at hreplied
    exact ⟨_, hexec, hreplied, hrec, hgoneSsq.trans hssq, hgoneStk.trans hstk⟩

/-! ## ACK_TRIP (R156) -/

/-- What an acknowledgment makes of a record (R156). -/
def TripRecord.acknowledged (r : TripRecord) : TripRecord := { r with state := .acked }

theorem ackKey_idle {key : Key} {s : State} (h : s.recordOf key = none ∨ ∃ r, s.recordOf key = some r ∧ r.state = .acked) :
    ackKey key s = (s, 0) := by
  unfold ackKey
  obtain h | ⟨r, hr, hacked⟩ := h
  · rw [h]
  · rw [hr]
    dsimp only
    rw [hacked]

theorem ackKey_raised {key : Key} {s : State} {r : TripRecord} (hr : s.recordOf key = some r) (hraised : r.state = .raised) :
    ackKey key s = (tripNotice key (s.modRecord key fun r => { r with state := .acked }), 1) := by
  unfold ackKey
  rw [hr]
  dsimp only
  rw [hraised]

theorem ackKey_held {key : Key} {s : State} {r : TripRecord} (hr : s.recordOf key = some r) (hheld : r.state = .held) :
    ackKey key s = (removeRecord r s, 1) := by
  unfold ackKey
  rw [hr]
  dsimp only
  rw [hheld]

theorem reqAckTrip_one {key : Key} {s : State} :
    reqAckTrip (enc8 key.num) s = ((ackKey key s).1, okReply (enc8 (ackKey key s).2)) := by
  have hnum : key.num ≤ 70 := by
    cases key with
    | stand c k => cases c <;> simp [Key.num, condNum] <;> omega
    | stopInput n => simp [Key.num]; omega
    | _ => simp [Key.num]
  unfold reqAckTrip
  refine (withLength_of_eq (length_enc8 _) s _).trans ?_
  have hread : rd8 (enc8 key.num) 0 = key.num := (rd8_enc8_end _).trans (Nat.mod_eq_of_lt (by omega))
  rw [hread, ackTargets, if_neg (by omega), keyOfNum_num]
  simp [ackKeys]

theorem reqAckTrip_all (s : State) :
    reqAckTrip [255] s =
      ((ackKeys (s.tmx.table.map (·.key)) s).1, okReply (enc8 (ackKeys (s.tmx.table.map (·.key)) s).2)) :=
  withLength_of_eq rfl s _

theorem ackKey_line (key : Key) (s : State) :
    (ackKey key s).1.hlk.tx = s.hlk.tx ∧ (ackKey key s).1.hlk.slot = s.hlk.slot ∧ (ackKey key s).1.stk = s.stk ∧
      (ackKey key s).1.standing = s.standing := by
  unfold ackKey
  split
  · exact ⟨rfl, rfl, rfl, rfl⟩
  · split
    · refine ⟨by simp [State.modRecord], by simp [State.modRecord], by simp [State.modRecord], standing_congr (by simp [State.modRecord])⟩
    · exact ⟨by simp, by simp, by simp, removeRecord_standing _ _⟩
    · exact ⟨rfl, rfl, rfl, rfl⟩

/-- The stop line follows the MILL_STOP records (R162). -/
def LineFollows (s : State) : Prop := s.tmx.stopLine = s.millStopExists

theorem lineFollows_iff (s : State) : LineFollows s ↔ (s.tmx.stopLine = true ↔ ∃ q ∈ s.tmx.table, q.action = .millStop) := by
  rw [← millStopExists_iff, ← Bool.eq_iff_iff]
  rfl

theorem lineFollows_removeRecord (r : TripRecord) (s : State) : LineFollows (removeRecord r s) := by
  unfold LineFollows State.millStopExists
  rw [removeRecord_tmx]
  rfl

theorem ackKey_lineFollows (key : Key) {s : State} (h : LineFollows s) : LineFollows (ackKey key s).1 := by
  unfold ackKey
  split
  · exact h
  · split
    · unfold LineFollows State.millStopExists
      rw [tripNotice_tmx]
      exact h.trans (millStopExists_modRecord (f := fun r => { r with state := .acked }) (fun _ => rfl) s).symm
    · exact lineFollows_removeRecord _ s
    · exact h

/-- A record found in a table whose keys are all different. -/
theorem recordOf_of_split {s : State} {done rest : List TripRecord} {r : TripRecord} (htable : s.tmx.table = done ++ r :: rest)
    (hnodup : ((done ++ r :: rest).map (·.key)).Nodup) :
    s.recordOf r.key = some r ∧ (∀ q ∈ done, q.key ≠ r.key) ∧ ∀ q ∈ rest, q.key ≠ r.key := by
  rw [List.map_append, List.map_cons, List.nodup_append, List.nodup_cons] at hnodup
  obtain ⟨-, ⟨hrest, -⟩, hdone⟩ := hnodup
  have hbefore : ∀ q ∈ done, q.key ≠ r.key := fun q hq => hdone q.key (List.mem_map_of_mem hq) r.key List.mem_cons_self
  refine ⟨?_, hbefore, fun q hq e => hrest (e ▸ List.mem_map_of_mem hq)⟩
  unfold State.recordOf
  rw [htable, List.find?_append, List.find?_eq_none.mpr fun q hq => by simp [hbefore q hq]]
  simp

/-- The acknowledgment of the first record not yet taken (R156). -/
theorem ackKey_table {s : State} {done rest : List TripRecord} {r : TripRecord} (htable : s.tmx.table = done ++ r :: rest)
    (hnodup : ((done ++ r :: rest).map (·.key)).Nodup) :
    (ackKey r.key s).1.tmx.table = done ++ (if r.state = .held then [] else [r.acknowledged]) ++ rest ∧
      (ackKey r.key s).2 = if r.state = .acked then 0 else 1 := by
  obtain ⟨hr, hdone, hrest⟩ := recordOf_of_split htable hnodup
  cases hstate : r.state with
  | raised =>
    rw [ackKey_raised hr hstate, tripNotice_tmx]
    refine ⟨?_, rfl⟩
    have hsame (l : List TripRecord) (hl : ∀ q ∈ l, q.key ≠ r.key) :
        (l.map fun q => if q.key == r.key then { q with state := .acked } else q) = l := by
      conv_rhs => rw [← List.map_id l]
      exact List.map_congr_left fun q hq => if_neg (by rw [beq_iff_eq]; exact hl q hq)
    show s.tmx.table.map (fun q => if q.key == r.key then { q with state := .acked } else q) = _
    rw [htable, List.map_append, List.map_cons, hsame done hdone, hsame rest hrest]
    simp [TripRecord.acknowledged]
  | held =>
    rw [ackKey_held hr hstate, removeRecord_tmx]
    refine ⟨?_, rfl⟩
    have hsame (l : List TripRecord) (hl : ∀ q ∈ l, q.key ≠ r.key) : (l.filter fun q => !(q.key == r.key)) = l :=
      List.filter_eq_self.mpr fun q hq => by simp [hl q hq]
    show s.tmx.table.filter (fun q => !(q.key == r.key)) = _
    rw [htable, List.filter_append, List.filter_cons, hsame done hdone, hsame rest hrest]
    simp
  | acked =>
    rw [ackKey_idle (.inr ⟨r, hr, hstate⟩), htable]
    refine ⟨?_, rfl⟩
    have hsame : r.acknowledged = r := by
      unfold TripRecord.acknowledged
      rw [← hstate]
    simp [hsame]

/-- The acknowledgment of the rest of the table, record by record in its order (R156). -/
theorem ackRest_table (todo done : List TripRecord) (s : State) (n : Nat) (htable : s.tmx.table = done ++ todo)
    (hnodup : ((done ++ todo).map (·.key)).Nodup) :
    ((todo.map (·.key)).foldl (fun t key => let u := ackKey key t.1; (u.1, t.2 + u.2)) (s, n)).1.tmx.table =
        done ++ (todo.filter fun q => decide (q.state ≠ .held)).map TripRecord.acknowledged ∧
      ((todo.map (·.key)).foldl (fun t key => let u := ackKey key t.1; (u.1, t.2 + u.2)) (s, n)).2 =
        n + (todo.filter fun q => decide (q.state ≠ .acked)).length := by
  induction todo generalizing done s n with
  | nil => simpa using htable
  | cons r rest ih =>
    obtain ⟨hafter, hcount⟩ := ackKey_table htable hnodup
    rw [List.map_cons, List.foldl_cons]
    dsimp only
    have hkept : ((done ++ (if r.state = .held then [] else [r.acknowledged]) ++ rest).map (·.key)).Nodup := by
      refine hnodup.sublist ?_
      split
      · simp
      · simp [TripRecord.acknowledged]
    obtain ⟨htableRest, hcountRest⟩ := ih _ _ (n + (ackKey r.key s).2) hafter hkept
    rw [htableRest, hcountRest, hcount]
    cases hstate : r.state <;> simp [hstate] <;> omega

theorem ackKeys_keeps (keys : List Key) (s : State) :
    (ackKeys keys s).1.hlk.tx = s.hlk.tx ∧ (ackKeys keys s).1.hlk.slot = s.hlk.slot ∧ (ackKeys keys s).1.stk = s.stk ∧
      (ackKeys keys s).1.standing = s.standing ∧ (LineFollows s → LineFollows (ackKeys keys s).1) := by
  unfold ackKeys
  generalize hn : (0 : Nat) = n
  clear hn
  induction keys generalizing s n with
  | nil => exact ⟨rfl, rfl, rfl, rfl, id⟩
  | cons key rest ih =>
    obtain ⟨htx, hslot, hstk, hstanding⟩ := ackKey_line key s
    obtain ⟨htxRest, hslotRest, hstkRest, hstandingRest, hfollows⟩ := ih (ackKey key s).1 (n + (ackKey key s).2)
    exact ⟨htxRest.trans htx, hslotRest.trans hslot, hstkRest.trans hstk, hstandingRest.trans hstanding,
      fun h => hfollows (ackKey_lineFollows key h)⟩

theorem exec_ackTrip_one {tag : Byte} {key : Key} {s : State} (hf : HostFree s) :
    ∃ l, exec (.ackTrip tag (enc8 key.num)) s = .next ((ackKey key s).1.withHlk l) ∧
      Replied s ((ackKey key s).1.withHlk l) 0x11 tag (okReply (enc8 (ackKey key s).2)) := by
  obtain ⟨htx, hslot, -⟩ := ackKey_line key s
  exact exec_replied (c := .ackTrip tag _) (kind := 0x11) (tag := tag) rfl (by decide) hf reqAckTrip_one htx hslot

/-- Settles O46: the acknowledgment of one record by its state, and of the whole table record by record. -/
theorem ackTrip : Obligations.AckTrip := by
  intro tag s hf htable
  obtain ⟨hline, hnodup, -⟩ := (tableOk_iff s hf.1).mp htable
  refine ⟨fun key hidle => ?_, fun key r hr hraised => ?_, fun key r hr hheld => ?_, ?_⟩
  · have hans : reqAckTrip (enc8 key.num) s = (s, okReply (enc8 0)) := by rw [reqAckTrip_one, ackKey_idle hidle]
    exact exec_of_request (c := .ackTrip tag _) (kind := 0x11) (tag := tag) rfl (by decide) hf hans
  · obtain ⟨l, hexec, hreplied⟩ := exec_ackTrip_one (tag := tag) (key := key) hf
    rw [ackKey_raised hr hraised] at hexec hreplied
    refine ⟨_, hexec, hreplied, ?_, ?_, ?_⟩
    · refine (tripNotice_tmx key _).trans ?_
      simp [State.modRecord, State.withTmx]
    · show (tripNotice key (s.modRecord key fun r => { r with state := .acked })).ssq = s.ssq
      simp [State.modRecord]
    · show (tripNotice key (s.modRecord key fun r => { r with state := .acked })).stk = s.stk
      simp [State.modRecord]
  · obtain ⟨l, hexec, hreplied⟩ := exec_ackTrip_one (tag := tag) (key := key) hf
    obtain ⟨-, -, hstk, hstanding⟩ := ackKey_line key s
    rw [ackKey_held hr hheld] at hexec hreplied hstk hstanding
    have hkey : r.key = key := by simpa using List.find?_some hr
    refine ⟨_, hexec, hreplied, ?_, (lineFollows_iff _).mp (lineFollows_removeRecord r s),
      fun k => (standing_iff.mp (congrFun hstanding k)).1, hstk⟩
    refine (congrArg TripMatrix.table (removeRecord_tmx r s)).trans ?_
    show s.tmx.table.filter (fun q => !(q.key == r.key)) = _
    rw [hkey]
    exact List.filter_congr fun q _ => by by_cases h : q.key = key <;> simp [h]
  · obtain ⟨htx, hslot, hstk, hstanding, hfollows⟩ := ackKeys_keeps (s.tmx.table.map (·.key)) s
    obtain ⟨hafter, hcount⟩ := ackRest_table s.tmx.table [] s 0 rfl hnodup
    have hans := reqAckTrip_all s
    rw [show (ackKeys (s.tmx.table.map (·.key)) s).2 = _ from hcount.trans (Nat.zero_add _)] at hans
    obtain ⟨l, hexec, hreplied⟩ := exec_replied (c := .ackTrip tag [255]) (kind := 0x11) (tag := tag) rfl (by decide) hf hans
      htx hslot
    exact ⟨_, hexec, hreplied, hafter, (lineFollows_iff _).mp (hfollows ((lineFollows_iff s).mpr hline)),
      fun k => (standing_iff.mp (congrFun hstanding k)).1, hstk⟩

end Sys2Proof.Machine
end

section
/-! PROOFS. The CLEAR_MILL request: O43. -/

namespace Sys2Proof.Machine

/-! ## The retirements (R81) -/

theorem retireAll_append (a b : List Segment) (t : Tracker) (hn : t.retired ≤ 65535) (hr : t.ring.length ≤ 32) :
    retireAll b (retireAll a t) = retireAll (a ++ b) t := by
  induction a generalizing t with
  | nil => rw [retireAll_nil t hr hn, List.nil_append]
  | cons g rest ih =>
    rw [retireAll_cons g rest t hn, List.cons_append, retireAll_cons g (rest ++ b) t hn]
    exact ih _ (by simp [retireAll]) (by simp [retireAll]; omega)

theorem retireAll_bounds (gone : List Segment) (t : Tracker) :
    (retireAll gone t).ring.length ≤ 32 ∧ (retireAll gone t).retired ≤ 65535 := by
  constructor
  · simp [retireAll]
    omega
  · simp [retireAll]

theorem givenUp_append (a b : List Segment) : givenUp (a ++ b) = givenUp a ++ givenUp b := List.map_append

/-- The bites emptied in order, their records retired (R81). -/
theorem discardBites_stk (l : List Stand) (hl : l.Nodup) (s : State) (hr : s.stk.ring.length ≤ 32) (hn : s.stk.retired ≤ 65535) :
    (l.foldl (fun t k => discardBite k t) s).stk =
      retireAll (givenUp (l.filterMap fun k => vget s.stk.bites k))
        { s.stk with bites := (l.foldl (fun t k => discardBite k t) s).stk.bites } := by
  induction l generalizing s with
  | nil => exact (retireAll_nil s.stk hr hn).symm
  | cons k rest ih =>
    obtain ⟨hk, hrest⟩ := List.nodup_cons.mp hl
    have hsame : (rest.filterMap fun j => vget (discardBite k s).stk.bites j) = rest.filterMap fun j => vget s.stk.bites j :=
      List.filterMap_congr fun j hj => by rw [discardBite_bites, if_neg fun e : j = k => hk (e ▸ hj)]
    rw [List.foldl_cons]
    cases hbite : vget s.stk.bites k with
    | none =>
      have hidle : discardBite k s = s := by
        unfold discardBite
        rw [hbite]
      rw [List.filterMap_cons_none hbite, hidle]
      exact ih hrest s hr hn
    | some g =>
      have hstep : (discardBite k s).stk = retireAll (givenUp [g]) { s.stk with bites := vset s.stk.bites k none } := by
        unfold discardBite
        rw [hbite]
        exact retire_stk g.asDiscarded (s.setBite k none) hr hn
      obtain ⟨hr', hn'⟩ := retireAll_bounds (givenUp [g]) { s.stk with bites := vset s.stk.bites k none }
      have hrec := ih hrest (discardBite k s) (by rw [hstep]; exact hr') (by rw [hstep]; exact hn')
      rw [hsame] at hrec
      generalize (rest.foldl (fun t k => discardBite k t) (discardBite k s)).stk.bites = bites at hrec ⊢
      rw [List.filterMap_cons_some hbite, hrec, hstep]
      have hcommute := retireAll_append (givenUp [g]) (givenUp (rest.filterMap fun j => vget s.stk.bites j))
        { s.stk with bites := bites } hn hr
      rw [← givenUp_append] at hcommute
      exact hcommute

/-- The spans emptied in order, their records retired (R81). -/
theorem discardSpans_stk (l : List SpanId) (hl : l.Nodup) (s : State) (hr : s.stk.ring.length ≤ 32) (hn : s.stk.retired ≤ 65535) :
    (l.foldl (fun t j => discardSpan j t) s).stk =
      retireAll (givenUp (l.map fun j => s.span j).flatten)
        { s.stk with spans := (l.foldl (fun t j => discardSpan j t) s).stk.spans } := by
  induction l generalizing s with
  | nil => exact (retireAll_nil s.stk hr hn).symm
  | cons j rest ih =>
    obtain ⟨hj, hrest⟩ := List.nodup_cons.mp hl
    have hsame : (rest.map fun i => (discardSpan j s).span i) = rest.map fun i => s.span i :=
      List.map_congr_left fun i hi => by rw [discardSpan_spans, if_neg fun e : i = j => hj (e ▸ hi)]
    have hstep := discardSpan_stk j s hr hn
    obtain ⟨hr', hn'⟩ := retireAll_bounds (givenUp (s.span j)) { s.stk with spans := vset s.stk.spans j [] }
    have hrec := ih hrest (discardSpan j s) (by rw [hstep]; exact hr') (by rw [hstep]; exact hn')
    rw [hsame] at hrec
    rw [List.foldl_cons]
    generalize (rest.foldl (fun t j => discardSpan j t) (discardSpan j s)).stk.spans = spans at hrec ⊢
    rw [hrec, hstep, List.map_cons, List.flatten_cons, givenUp_append]
    exact retireAll_append (givenUp (s.span j)) (givenUp (rest.map fun i => s.span i).flatten) { s.stk with spans := spans } hn hr

/-- The records of the bites and then of the spans, in the order in which CLEAR_MILL retires them (R81). -/
def heldRecords (s : State) : List Segment :=
  (allStands.filterMap fun k => vget s.stk.bites k) ++ (allStands.map fun j => s.span j).flatten

theorem discardRecords_stk (s : State) (hr : s.stk.ring.length ≤ 32) (hn : s.stk.retired ≤ 65535) :
    (discardRecords s).stk =
      retireAll (givenUp (heldRecords s))
        { s.stk with bites := Vector.replicate 8 none, spans := Vector.replicate 8 [] } := by
  have hbites : (eachStand discardBite s).stk =
      retireAll (givenUp (allStands.filterMap fun k => vget s.stk.bites k))
        { s.stk with bites := (eachStand discardBite s).stk.bites } := by
    unfold eachStand
    exact discardBites_stk allStands allStands_nodup s hr hn
  have hempty : (eachStand discardBite s).stk.bites = Vector.replicate 8 none := vec_ext fun k => by
    unfold eachStand
    rw [discardBites_bites, if_pos (mem_allStands k), vget_replicate]
  rw [hempty] at hbites
  have hspan (j : SpanId) : (eachStand discardBite s).span j = s.span j := by
    unfold State.span
    rw [hbites]
    rfl
  unfold discardRecords
  generalize eachStand discardBite s = u at hbites hspan
  obtain ⟨hr', hn'⟩ := retireAll_bounds (givenUp (allStands.filterMap fun k => vget s.stk.bites k))
    { s.stk with bites := Vector.replicate 8 none }
  have hspans := discardSpans_stk allStands allStands_nodup u (by rw [hbites]; exact hr') (by rw [hbites]; exact hn')
  have hemptySpans : (allStands.foldl (fun t j => discardSpan j t) u).stk.spans = Vector.replicate 8 [] := vec_ext fun j => by
    have h := discardSpans_span allStands j u
    rw [if_pos (mem_allStands j)] at h
    rw [vget_replicate]
    exact h
  rw [hemptySpans, hbites, funext hspan] at hspans
  rw [hspans, heldRecords, givenUp_append]
  exact retireAll_append _ _ { s.stk with bites := Vector.replicate 8 none, spans := Vector.replicate 8 [] } hn hr

theorem length_heldRecords (s : State) : (heldRecords s).length = s.stk.heldCount := by
  unfold heldRecords Tracker.heldCount State.span
  rw [List.length_append, List.length_flatten, List.map_map]
  refine congrArg₂ (· + ·) ?_ rfl
  induction allStands with
  | nil => rfl
  | cons k rest ih =>
    cases h : vget s.stk.bites k with
    | none => rw [List.filterMap_cons_none h, List.filter_cons_of_neg (by simp [h]), ih]
    | some g => rw [List.filterMap_cons_some h, List.filter_cons_of_pos (by simp [h]), List.length_cons, List.length_cons, ih]

/-! ## The request (R81) -/

theorem canClearMill_iff (s : State) :
    canClearMill s = true ↔ (s.stk.mill = .rolling ∨ s.stk.mill = .tailout) ∧
      ∀ k, (s.seq k).state ≠ .thread ∧ (s.seq k).state ≠ .roll ∧ (s.seq k).state ≠ .tail := by
  unfold canClearMill
  rw [Bool.and_eq_true, Bool.not_eq_true']
  refine and_congr ?_ ?_
  · cases s.stk.mill <;> simp [MillState.running]
  · unfold State.anyThreaded
    rw [List.any_eq_false]
    refine ⟨fun h k => ?_, fun h k _ hk => ?_⟩
    · have hk := h k (mem_allStands k)
      rw [threaded_iff_or] at hk
      exact ⟨fun e => hk (.inl e), fun e => hk (.inr (.inl e)), fun e => hk (.inr (.inr e))⟩
    · obtain ⟨hthread, hroll, htail⟩ := h k
      obtain e | e | e := (threaded_iff_or _).mp hk
      · exact hthread e
      · exact hroll e
      · exact htail e

/-- The retirements change neither the presence unit nor what is in transmission. -/
theorem discardRecords_line (s : State) :
    ((discardRecords s).plu, (discardRecords s).hlk.tx, (discardRecords s).hlk.slot) = (s.plu, s.hlk.tx, s.hlk.slot) := by
  have hbite (t : State) (k : Stand) : ((discardBite k t).plu, (discardBite k t).hlk.tx, (discardBite k t).hlk.slot) =
      (t.plu, t.hlk.tx, t.hlk.slot) := by simp
  have hspan (t : State) (j : SpanId) : ((discardSpan j t).plu, (discardSpan j t).hlk.tx, (discardSpan j t).hlk.slot) =
      (t.plu, t.hlk.tx, t.hlk.slot) := by simp
  unfold discardRecords eachStand
  rw [foldl_keeps (fun t : State => (t.plu, t.hlk.tx, t.hlk.slot)) _ hspan,
    foldl_keeps (fun t : State => (t.plu, t.hlk.tx, t.hlk.slot)) _ hbite]

/-- The mill is IDLE behind CLEAR_MILL, so that the event's end changes nothing of the tracker and the presence unit (R79, R81). -/
theorem clearMill_leaves (s : State) :
    (clearMill s).stk = { (clearStrip (discardRecords s)).stk with mill := .idle } ∧
      (clearMill s).plu = clearMeasurers s.plu ∧ (clearMill s).hlk.tx = s.hlk.tx ∧ (clearMill s).hlk.slot = s.hlk.slot := by
  have hkept := discardRecords_line s
  rw [Prod.mk.injEq, Prod.mk.injEq] at hkept
  obtain ⟨hplu, htx, hslot⟩ := hkept
  rw [clearMill_eq]
  generalize discardRecords s = u at hplu htx hslot
  obtain ⟨hstk, -, hcountPlu⟩ := handCounts_inTracker s (setMill .idle (clearStrip u))
  have hmill : (setMill .idle (clearStrip u)).stk = { (clearStrip u).stk with mill := .idle } := by simp [setMill]
  have hidle : endTracker s (setMill .idle (clearStrip u)) = handCounts s (setMill .idle (clearStrip u)) := by
    unfold endTracker millEmptyTest State.millIsEmpty
    rw [hstk, hmill]
    rfl
  rw [hidle]
  refine ⟨hstk.trans hmill, ?_, ?_, ?_⟩
  · rw [hcountPlu, ← hplu]
    simp [setMill, clearStrip]
  · simp [setMill, clearStrip, htx]
  · simp [setMill, clearStrip, hslot]

theorem reqClearMill_eq (s : State) :
    reqClearMill [] s =
      if canClearMill s then (clearMill s, okReply (enc8 s.stk.heldCount)) else (s, codeReply .wrongState) :=
  withLength_of_eq rfl s _

/-- Settles O43: the retirements in their order, and the clears that follow. -/
theorem clearMillRetiresAll : Obligations.ClearMillRetiresAll := by
  intro tag s hf
  refine ⟨fun hnot => ?_, fun all hall hrunning hthreaded hring hretired => ?_⟩
  · have hans := (reqClearMill_eq s).trans (if_neg (mt (canClearMill_iff s).mp hnot))
    exact exec_of_request (c := .clearMill tag []) (kind := 0x0E) (tag := tag) rfl (by decide) hf hans
  · obtain ⟨hstk, hplu, htx, hslot⟩ := clearMill_leaves s
    have hans := (reqClearMill_eq s).trans (if_pos ((canClearMill_iff s).mpr ⟨hrunning, hthreaded⟩))
    obtain ⟨l, hexec, hreplied⟩ := exec_replied (c := .clearMill tag []) (kind := 0x0E) (tag := tag) rfl (by decide) hf hans
      htx hslot
    refine ⟨_, hexec, hreplied, ?_, fun k => ?_⟩
    · have hrecords := discardRecords_stk s hring hretired
      refine hstk.trans ?_
      unfold clearStrip
      dsimp only [State.withStk, State.withPlu]
      rw [hrecords, ← length_heldRecords, hall]
      simp only [retireAll, heldRecords, givenUp, List.length_map]
    · show vget (clearMill s).plu.acc k = 0 ∧ vget (clearMill s).plu.pres k = _
      rw [hplu]
      refine ⟨vget_replicate _ _, ?_⟩
      exact vget_vtab _ _

end Sys2Proof.Machine
end

section
/-! PROOFS. Heads at stands that do not thread: O11. -/

namespace Sys2Proof.Machine

/-! ## The head that is taken (R48) -/

/-- Strip present at a stand, its filter settled (R42, R48). -/
def stripEntered (k : Stand) (s : State) : State :=
  (takeLevel k true s).modPresence k fun _ => { state := .present, measurer := 0 }

theorem exec_filterAccept_head {k : Stand} {s : State} (hrun : Running s) (hdue : (s.filter (.hmd k)).due = true)
    (hon : pinActive s.plu.pins (.hmd k) = true) (habsent : (s.presence k).state = .absent) :
    exec (.filterAccept (.hmd k)) s = .next (endEvent (headEvent k (stripEntered k s))) := by
  rw [exec_filterAccept_due _ s hrun.1 hdue, acceptFilter_hmd_on k s hon, hmdOn, takeLevel_presence, habsent]
  rfl

/-- Behind a head's own work the line goes on as at every event's end. -/
theorem endEvent_head {k : Stand} {s : State} (hrun : Running s) :
    ∃ l, endEvent (headEvent k (stripEntered k s)) = (headEvent k (stripEntered k s)).withHlk l ∧
      (s.hlk.tx ≠ none → l = (headEvent k (stripEntered k s)).hlk) :=
  endEvent_after hrun.2 (by simp [headEvent, stripEntered, takeLevel, State.setFilter, State.withPlu, State.modPresence])
    (by simp [headEvent, stripEntered, takeLevel, State.setFilter, State.withPlu, State.modPresence])

/-! ## Records that a tracker event does not count -/

/-- The conditions that a span's count raises (R146, R147). -/
def Key.counted : Key → Bool
  | .stand .headOverdue _ => true
  | .stand .loopGrow _ => true
  | .stand .loopPull _ => true
  | _ => false

theorem aged_takeCount {key key' : Key} (hne : key' ≠ key) (beyond : Bool) (s : State) : Aged key' s (takeCount key beyond s) := by
  unfold takeCount
  split
  · split
    · exact raiseKey_other true hne s
    · exact .refl key' s
  · exact goneKey_other hne s

theorem aged_handCount {key : Key} (hkey : key.counted = false) (k : Stand) (n : Nat) (s : State) : Aged key s (handCount k n s) := by
  have hne (c : StandCond) (hc : (Key.stand c k).counted = true) : key ≠ .stand c k := by
    rintro rfl
    exact nomatch hkey.symm.trans hc
  unfold handCount
  split
  · exact ((aged_takeCount (hne _ rfl) _ s).trans (aged_takeCount (hne _ rfl) _ _)).trans (aged_takeCount (hne _ rfl) _ _)
  · exact .refl key s

theorem aged_handCounts {key : Key} (hkey : key.counted = false) (before s : State) : Aged key s (handCounts before s) :=
  foldl_inv (P := Aged key s) (fun t k => handCount k (s.span (spanInto k)).length t)
    (fun k {t} ht => ht.trans (aged_handCount hkey k _ t)) _ (.refl key s)

/-- The end of a tracker event makes a record that no count raises gone at most (R63, R79). -/
theorem aged_endTracker {key : Key} (hkey : key.counted = false) (before s : State) : Aged key s (endTracker before s) :=
  (aged_handCounts hkey before s).trans (aged_millEmptyTest key _)

theorem takeIntoBite_tmx (k : Stand) (s : State) : (takeIntoBite k s).tmx = s.tmx := by
  unfold takeIntoBite
  split <;> rfl

theorem aged_trackHead {key : Key} (hkey : key.counted = false) (k : Stand) (s : State) : Aged key s (trackHead k s) := by
  unfold trackHead
  split
  · unfold threadEntry
    dsimp only
    refine Aged.trans (aged_of_table ?_) (aged_endTracker hkey s _)
    split
    · rfl
    · rw [takeIntoBite_tmx]
      rfl
  · exact .refl key s

/-! ## A stand that is not ready to thread (R116, R148) -/

theorem headThreads_iff (k : Stand) (s : State) :
    headThreads k s = true ↔ s.stk.mill = (if s.firstActive = some k then .armed else .rolling) := by
  unfold headThreads
  by_cases h : s.firstActive = some k
  · rw [if_pos ((isFirst_iff s k).mpr h), if_pos h, beq_iff_eq]
  · rw [if_neg (mt (isFirst_iff s k).mp h), if_neg h, beq_iff_eq]

theorem sequenceHead_unready {k : Stand} {s : State}
    (h : (s.seq k).state = .setup ∨ (s.seq k).state = .tail ∨
      (s.seq k).state = .ready ∧ s.stk.mill ≠ (if s.firstActive = some k then .armed else .rolling)) :
    sequenceHead k s = pulseKey (.stand .unready k) s := by
  unfold sequenceHead
  obtain h | h | ⟨h, hmill⟩ := h
  · rw [h]
  · rw [h]
  · rw [h]
    exact if_neg (mt (headThreads_iff k s).mp hmill)

/-- A momentary condition without a scope leaves its record HELD, new or with its occurrences increased (R138, R154, R155). -/
theorem pulseKey_record {key : Key} {s : State} (hkey : key.hasScope = false)
    (hheld : ∀ r, s.recordOf key = some r → r.state = .held) :
    ∃ r, (pulseKey key s).recordOf key = some r ∧ r.state = .held ∧
      (s.recordOf key = none → r = { newRecord key s with state := .held }) ∧
      ∀ q, s.recordOf key = some q → r = { q with occ := min 255 (q.occ + 1) } := by
  unfold pulseKey
  rw [recordOf_goneKey, if_pos rfl]
  cases h : s.recordOf key with
  | none =>
    rw [raiseKey_of_none false h]
    obtain e | ⟨hscope, -⟩ := createRecord_record false key h
    · rw [e]
      exact ⟨_, rfl, rfl, fun _ => rfl, fun _ hq => nomatch hq⟩
    · exact nomatch hkey.symm.trans hscope
  | some q =>
    have hq := hheld q h
    rw [(raiseKey_of_record false h).2.2.2.2 key, if_pos rfl, reraised, if_pos hq, satSucc_min]
    refine ⟨{ q with state := .held, occ := min 255 (q.occ + 1) }, rfl, rfl, (fun hnone => nomatch hnone), fun p hp => ?_⟩
    obtain rfl := Option.some.inj hp
    rw [← hq]

theorem unready_aged {k : Stand} {s : State} (hset : s.inSet k = true)
    (h : (s.seq k).state = .setup ∨ (s.seq k).state = .tail ∨
      (s.seq k).state = .ready ∧ s.stk.mill ≠ (if s.firstActive = some k then .armed else .rolling)) :
    (headEvent k (stripEntered k s)).recordOf (.stand .unready k) =
      (pulseKey (.stand .unready k) (stripEntered k s)).recordOf (.stand .unready k) := by
  have hseq : seqHead k (stripEntered k s) = evalScopes (pulseKey (.stand .unready k) (stripEntered k s)) := by
    unfold seqHead
    rw [if_pos (show (stripEntered k s).inSet k = true from hset)]
    exact congrArg evalScopes (sequenceHead_unready (s := stripEntered k s) h)
  have haged : Aged (.stand .unready k) (pulseKey (.stand .unready k) (stripEntered k s)) (headEvent k (stripEntered k s)) := by
    unfold headEvent
    rw [hseq]
    refine ((aged_evalScopes _ _).trans (aged_trackHead rfl k _)).trans (aged_of_table (by simp))
  exact haged.unscoped rfl

/-! ## A stand to which a head gives no result (R69, R116) -/

theorem stripEntered_stripPresent (k j : Stand) (s : State) :
    (stripEntered k s).stripPresent j = if j = k then true else s.stripPresent j := by
  unfold State.stripPresent stripEntered
  rw [modPresence_presence]
  split
  · rfl
  · rfl

theorem sequenceHead_none {k : Stand} {s : State}
    (h : (s.seq k).state = .tripped ∨ (s.seq k).state = .local_ ∨ (s.seq k).state = .handover) : sequenceHead k s = s := by
  unfold sequenceHead
  obtain h | h | h := h <;> rw [h]

/-- Strip at a stand that is not READY ends no scope (R139, R146). -/
theorem scopesOk_stripEntered {k : Stand} {s : State} (h : (s.seq k).state ≠ .ready) (hok : ScopesOk s) :
    ScopesOk (stripEntered k s) := by
  refine scopesOk_view (s := s) (fun key => ?_) rfl hok
  cases key with
  | stand c j =>
    cases c
    case headOverdue =>
      by_cases hj : j = k
      · subst hj
        have hoff (u : State) (hu : (u.seq j).state = (s.seq j).state) : scopeHolds u (.stand .headOverdue j) = false := by
          have hnot : ((u.seq j).state == .ready) = false := by rw [hu]; exact beq_eq_false_iff_ne.mpr h
          simp only [scopeHolds, hnot, Bool.and_false, Bool.false_and]
        exact (hoff (stripEntered j s) rfl).trans (hoff s rfl).symm
      · have hstrip : (stripEntered k s).stripPresent j = s.stripPresent j := by rw [stripEntered_stripPresent, if_neg hj]
        simp only [scopeHolds, hstrip]
        rfl
    all_goals rfl
  | _ => rfl

/-- Such a head updates the stand's notice alone. -/
theorem headEvent_none {k : Stand} {s : State}
    (h : s.inSet k = false ∨
      ScopesOk s ∧ ((s.seq k).state = .tripped ∨ (s.seq k).state = .local_ ∨ (s.seq k).state = .handover)) :
    headEvent k (stripEntered k s) = standNotice k (stripEntered k s) := by
  have hseq : seqHead k (stripEntered k s) = stripEntered k s := by
    unfold seqHead
    obtain h | ⟨hok, h⟩ := h
    · exact if_neg (by rw [show (stripEntered k s).inSet k = false from h]; simp)
    · split
      · rw [sequenceHead_none (s := stripEntered k s) h]
        refine evalScopes_of_scopesOk _ (scopesOk_stripEntered ?_ hok)
        obtain h | h | h := h <;> rw [h] <;> decide
      · rfl
  have htrack : trackHead k (stripEntered k s) = stripEntered k s := by
    refine if_neg ?_
    rw [Bool.and_eq_true, beq_iff_eq]
    rintro ⟨hset, hthread⟩
    obtain h | ⟨-, h⟩ := h
    · exact nomatch hset.symm.trans (show (stripEntered k s).inSet k = false from h)
    · rw [show ((stripEntered k s).seq k).state = (s.seq k).state from rfl] at hthread
      rw [hthread] at h
      obtain h | h | h := h <;> exact nomatch h
  unfold headEvent
  rw [hseq, htrack]

/-- A stand's notice changes the queue alone (R114). -/
theorem standNotice_eq (k : Stand) (s : State) : ∃ queue, standNotice k s = s.withHlk { s.hlk with queue := queue } := by
  unfold standNotice
  obtain ⟨-, e⟩ | ⟨-, e⟩ := updateNotice_cases (.standState k (s.seq k).state (s.seq k).frozen (s.stripPresent k)) s <;> rw [e]
  · exact ⟨_, rfl⟩
  · exact ⟨s.hlk.queue, rfl⟩

/-- Settles O11: UNREADY as a momentary condition, and the heads that only strip present takes. -/
theorem headRaisesUnready : Obligations.HeadRaisesUnready := by
  intro k s hrun hdue hon habsent
  have hexec := exec_filterAccept_head hrun hdue hon habsent
  obtain ⟨l, hend, hbusyEnd⟩ := endEvent_head (k := k) hrun
  refine ⟨fun hset hstate hheld => ?_, fun hnone => ?_⟩
  · obtain ⟨r, hr, hrheld, hnew, hold⟩ := pulseKey_record (key := .stand .unready k) (s := stripEntered k s) rfl hheld
    refine ⟨_, r, hexec, ?_, hrheld, ?_⟩
    · rw [hend]
      exact (unready_aged hset hstate).trans hr
    · cases hrec : s.recordOf (.stand .unready k) with
      | none =>
        obtain rfl := hnew hrec
        exact ⟨rfl, rfl, rfl⟩
      | some q => exact hold q hrec
  · have hhead := headEvent_none hnone
    obtain ⟨queue, hnotice⟩ := standNotice_eq k (stripEntered k s)
    rw [hhead, hnotice] at hend hbusyEnd
    refine ⟨_, hexec, ?_, fun hbusy => ?_⟩
    · rw [hhead, hnotice, hend]
      rfl
    · rw [hhead, hnotice, hend, hbusyEnd hbusy]
      refine ⟨rfl, fun hkind => ?_⟩
      have hstrip : (stripEntered k s).stripPresent k = true := by rw [stripEntered_stripPresent, if_pos rfl]
      have hnoticed : Noticed (.standState k (s.seq k).state (s.seq k).frozen true) (standNotice k (stripEntered k s)) := by
        rw [← hstrip]
        exact noticed_updateNotice _ _ fun old => by cases old <;> rfl
      rw [hnotice] at hnoticed
      exact hnoticed hkind

end Sys2Proof.Machine
end

section
/-! PROOFS. The first tick: O6. -/

namespace Sys2Proof.Machine

/-! ## The inputs settled (R54, R55) -/

/-- What the takers of the first tick begin with: the inputs settled, and the notices updated. -/
def settledInputs (pins : InputPins) (s : State) : State :=
  eachStand standNotice (evalScopes (settleInputs pins (countDown s)))

/-- The inputs of a part and its settling mark. -/
def State.inputs (s : State) : Bool × Vector Filter 8 × Vector Filter 4 × Vector Filter 8 × Vector Presence 8 :=
  (s.plu.settled, s.plu.hmd, s.plu.stop, s.plu.panel, s.plu.pres)

theorem settledInputs_keeps (pins : InputPins) (s : State) :
    (settledInputs pins s).inputs = (settleInputs pins s).inputs ∧ (settledInputs pins s).stk = s.stk ∧
      (∀ k, ((settledInputs pins s).seq k).state = (s.seq k).state) ∧
      (settledInputs pins s).hlk.tx = s.hlk.tx ∧ (settledInputs pins s).hlk.held = s.hlk.held := by
  unfold settledInputs
  have hview (t : State) (k : Stand) : ((standNotice k t).plu, (standNotice k t).stk, (standNotice k t).ssq,
      (standNotice k t).hlk.tx, (standNotice k t).hlk.held) = (t.plu, t.stk, t.ssq, t.hlk.tx, t.hlk.held) := by simp
  have hall := foldl_keeps (fun t : State => (t.plu, t.stk, t.ssq, t.hlk.tx, t.hlk.held)) (fun t k => standNotice k t) hview
    allStands (evalScopes (settleInputs pins (countDown s)))
  simp only [Prod.mk.injEq] at hall
  obtain ⟨hplu, hstk, hssq, htx, hheld⟩ := hall
  have hscopes := evalScopes_keeps (settleInputs pins (countDown s))
  unfold eachStand
  refine ⟨?_, ?_, fun k => ?_, ?_, ?_⟩
  · unfold State.inputs
    rw [hplu]
    simp [settleInputs, countDown]
  · rw [hstk]
    simp [settleInputs, countDown]
  · rw [seq_congr hssq, evalScopes_state]
    have hcount : (settleInputs pins (countDown s)).seq k = (s.seq k).countDown := vget_vtab _ _
    rw [hcount]
    rfl
  · rw [htx]
    simp [settleInputs, countDown]
  · rw [hheld]
    simp [settleInputs, countDown]

theorem settleStop_inputs (pins : InputPins) (s : State) (n : StopNo) :
    (settleStop pins s n).inputs = s.inputs ∧ (settleStop pins s n).hlk.tx = s.hlk.tx ∧
      (settleStop pins s n).hlk.held = s.hlk.held := by
  unfold settleStop State.inputs
  split
  · simp
  · exact ⟨rfl, rfl, rfl⟩

theorem settleStop_off {pins : InputPins} {n : StopNo} (h : pinActive pins (.stop n) = false) (s : State) :
    settleStop pins s n = s := by
  unfold settleStop
  rw [h]
  rfl

theorem mem_allStops (n : StopNo) : n ∈ allStops := by
  revert n
  decide

/-- A stop input settled active is present, and stays so while the others are raised (R54, R140). -/
theorem settleStops_present (pins : InputPins) (l : List StopNo) (n : StopNo) (hon : pinActive pins (.stop n) = true) (s : State)
    (h : n ∈ l ∨ s.present (.stopInput n) = true) : (l.foldl (settleStop pins) s).present (.stopInput n) = true := by
  induction l generalizing s with
  | nil => exact h.resolve_left List.not_mem_nil
  | cons m rest ih =>
    refine ih _ ?_
    by_cases hmn : n = m
    · subst hmn
      refine .inr ?_
      unfold settleStop
      rw [if_pos hon]
      exact raiseKey_present false rfl s
    · refine (h.imp (fun hmem => (List.mem_cons.mp hmem).resolve_left hmn) fun hpresent => ?_)
      unfold settleStop
      split
      · have haged : Aged (.stopInput n) s (raiseKey false (.stopInput m) s) :=
          raiseKey_other false (fun e => hmn (Key.stopInput.inj e)) s
        rw [present_congr (haged.unscoped rfl)]
        exact hpresent
      · exact hpresent

/-- Settles O6: the inputs settle before the takers, and each stop input's key outlives the others' raises. -/
theorem firstTickSettles : Obligations.FirstTickSettles := by
  intro pins s ⟨hrun, hline⟩
  have hfirst : exec (.firstTick pins) s = .next (if s.plu.settled then s else settle pins s) :=
    event_of_not_inReset (fun s => if s.plu.settled then s else settle pins s) s hrun
  refine ⟨fun hsettled => hfirst.trans (by rw [if_pos hsettled]), fun hsettled => ?_⟩
  rw [if_neg (by rw [hsettled]; simp)] at hfirst
  refine ⟨?_, ?_⟩
  · rw [hfirst]
    rw [exec_tick pins s hrun, if_neg (by rw [hsettled]; simp)]
  obtain ⟨hinputs, hstk, hstate, htx, hheld⟩ := settledInputs_keeps pins s
  have hfold := foldl_keeps (fun t : State => (t.inputs, t.hlk.tx, t.hlk.held)) (settleStop pins) (fun t n => by
    obtain ⟨e1, e2, e3⟩ := settleStop_inputs pins t n
    rw [e1, e2, e3]) allStops (settledInputs pins s)
  simp only [Prod.mk.injEq] at hfold
  obtain ⟨hfoldInputs, hfoldTx, hfoldHeld⟩ := hfold
  obtain ⟨l, hend, -⟩ := endEvent_after (t := allStops.foldl (settleStop pins) (settledInputs pins s)) hline
    (hfoldTx.trans htx) (hfoldHeld.trans hheld)
  have hall := hfoldInputs.trans hinputs
  simp only [State.inputs, Prod.mk.injEq] at hall
  obtain ⟨hmark, hhmd, hstop, hpanel, hpres⟩ := hall
  have hstops (n : StopNo) (hon : pinActive pins (.stop n) = true) :
      (allStops.foldl (settleStop pins) (settledInputs pins s)).present (.stopInput n) = true :=
    settleStops_present pins allStops n hon _ (.inl (mem_allStops n))
  have hoff (hno : ∀ n, pinActive pins (.stop n) = false) :
      allStops.foldl (settleStop pins) (settledInputs pins s) = settledInputs pins s :=
    foldl_fixed (settleStop pins) allStops _ fun n => settleStop_off (hno n) _
  have hnext : exec (.firstTick pins) s =
      .next ((allStops.foldl (settleStop pins) (settledInputs pins s)).withHlk l) := hfirst.trans (congrArg _ hend)
  generalize allStops.foldl (settleStop pins) (settledInputs pins s) = u at hnext hmark hhmd hstop hpanel hpres hstops hoff
  refine ⟨_, hnext, hmark, fun i => ?_, fun k => ?_, fun n hon => ?_, fun hno => ?_⟩
  · cases i with
    | hmd k => exact (congrArg (vget · k) hhmd).trans (vget_vtab _ _)
    | stop n => exact (congrArg (vget · n) hstop).trans (vget_vtab _ _)
    | panel k => exact (congrArg (vget · k) hpanel).trans (vget_vtab _ _)
  · exact (congrArg (vget · k) hpres).trans (vget_vtab _ _)
  · exact hstops n hon
  · rw [hoff hno]
    exact ⟨hstk, hstate⟩

end Sys2Proof.Machine
end

section
/-! PROOFS. The accept of a filter: O8. -/

namespace Sys2Proof.Machine

/-! ## Handovers aborted by a creation (R133) -/

/-- Content that no creation's hand-over updates. -/
def NoticeBody.outlasts (b : NoticeBody) (k : Stand) : Prop := b.lasting ∧ b.source ≠ .handoverDone k

theorem noticed_endHandover {b : NoticeBody} {k : Stand} (hb : b.outlasts k) (dir : Direction) (st : StandState)
    (result : HandoverResult) {s : State} (h : Noticed b s) : Noticed b (endHandover k dir st result s) := by
  refine noticed_other _ hb.2 (noticed_standNotice hb.1 k (h.congr ?_ ?_)) <;> simp

theorem noticed_openCreationAt {b : NoticeBody} {k : Stand} (hb : b.outlasts k) {s : State} (h : Noticed b s) :
    Noticed b (openCreationAt k s) := by
  have htrip : Noticed b (enterTripped k s) := noticed_standNotice hb.1 k (h.congr (by simp) (by simp))
  unfold openCreationAt
  cases (s.seq k).state with
  | setup => exact htrip
  | ready => exact htrip
  | thread => exact htrip
  | roll => exact htrip
  | tail => exact htrip
  | handover =>
    show Noticed b (abortHandover k s)
    unfold abortHandover
    split
    · exact noticed_endHandover hb _ _ _ h
    · exact h
  | tripped => exact h
  | out => exact h
  | local_ => exact h

/-- The hand-over of a creation to one stand. -/
def openCovered (r : TripRecord) (k : Stand) (s : State) : State := if r.covers k then openCreationAt k s else s

theorem openCovered_other {r : TripRecord} {j k : Stand} (hj : j ≠ k) (s : State) : (openCovered r k s).seq j = s.seq j := by
  unfold openCovered
  split
  · rw [openCreationAt_seq, if_neg hj]
  · rfl

theorem openEach_other {r : TripRecord} {l : List Stand} {j : Stand} (hj : j ∉ l) (s : State) :
    (l.foldl (fun s k => openCovered r k s) s).seq j = s.seq j := by
  induction l generalizing s with
  | nil => rfl
  | cons k rest ih =>
    obtain ⟨hne, hrest⟩ := List.ne_and_not_mem_of_not_mem_cons hj
    exact (ih hrest _).trans (openCovered_other hne s)

theorem noticed_openEach {b : NoticeBody} {r : TripRecord} {l : List Stand} (hb : ∀ k, k ∈ l → b.outlasts k) {s : State}
    (h : Noticed b s) : Noticed b (l.foldl (fun s k => openCovered r k s) s) := by
  induction l generalizing s with
  | nil => exact h
  | cons k rest ih =>
    have hone : Noticed b (openCovered r k s) := by
      unfold openCovered
      split
      · exact noticed_openCreationAt (hb k List.mem_cons_self) h
      · exact h
    exact ih (fun j hj => hb j (List.mem_cons_of_mem _ hj)) hone

/-- The creation of an OPEN-class record that covers a stand in HANDOVER notices the abort (R133, R180). -/
theorem noticed_handCreation {r : TripRecord} {k : Stand} {h : Handover} {s : State} (hopen : r.action.openClass = true)
    (hcovers : r.covers k = true) (hstate : (s.seq k).state = .handover) (hpending : (s.seq k).handover = some h) :
    Noticed (.handoverDone k h.dir .abortedTrip) (handCreation r s) := by
  have hlasting := handoverDone_lasting k h.dir .abortedTrip
  obtain ⟨hsplit, -, hbefore, hafter⟩ := allStands_split k
  have heach : Noticed (.handoverDone k h.dir .abortedTrip) (eachStand (openCovered r) (evalStopLine s)) := by
    unfold eachStand
    rw [hsplit, List.foldl_append, List.foldl_cons]
    have hself := openEach_other (r := r) hbefore (evalStopLine s)
    generalize (allStands.take k.val).foldl (fun s k => openCovered r k s) (evalStopLine s) = u at hself
    have hu : u.seq k = s.seq k := hself
    refine noticed_openEach (fun j hj => ⟨hlasting, fun e => hafter ?_⟩) ?_
    · obtain rfl : k = j := NoticeSource.handoverDone.inj e
      exact hj
    · unfold openCovered openCreationAt abortHandover
      rw [if_pos hcovers, hu, hstate, hpending]
      exact endHandover_noticed k h.dir _ .abortedTrip u
  unfold handCreation
  dsimp only
  rw [if_pos hopen]
  have hfrozen := eachStand_inv (Noticed (.handoverDone k h.dir .abortedTrip)) evalFrozen
    (fun j t ht => noticed_evalFrozen hlasting j ht) _ heach
  exact eachStand_inv (Noticed (.handoverDone k h.dir .abortedTrip)) evalDemand (fun j t ht => ht.congr (by simp) (by simp)) _
    hfrozen

/-- Outside TAILOUT a creation brings about no mill empty (R79). -/
theorem createRecord_outside {inTracker : Bool} {key : Key} {s : State} (hmill : s.stk.mill ≠ .tailout) :
    createRecord inTracker key s = evalScopes (tripNotice key (handed key s)) := by
  have hnot : (handed key s).millIsEmpty = false := by
    have hkept : (handed key s).stk.mill = s.stk.mill := by simp [handed]
    unfold State.millIsEmpty
    rw [hkept, beq_eq_false_iff_ne.mpr hmill]
    rfl
  rw [createRecord_eq]
  unfold handedTest
  split
  · rw [millEmptyTest, if_neg (by rw [hnot]; simp)]
  · rfl

/-- What a creation outside TAILOUT leaves of a pending handover that it covers (R131 to R133). -/
theorem createRecord_aborts {key : Key} {k : Stand} {h : Handover} {s : State} (hmill : s.stk.mill ≠ .tailout)
    (hopen : (newRecord key s).action.openClass = true) (hcovers : (newRecord key s).covers k = true)
    (hstate : (s.seq k).state = .handover) (hpending : (s.seq k).handover = some h) :
    ((createRecord false key s).seq k).state = unconfirmedState h (s.inSet k) true ∧
      ((createRecord false key s).seq k).handover = none ∧ ((createRecord false key s).seq k).localReq = false ∧
      Noticed (.handoverDone k h.dir .abortedTrip) (createRecord false key s) := by
  have hseq : ((s.seq k).opened (s.inSet k)
      (s.withTmx { s.tmx with table := s.tmx.table ++ [newRecord key s] }).millStopExists (s.tNo k)) =
      ((s.seq k).released.enter (unconfirmedState h (s.inSet k) true)).evalDemand
        (s.withTmx { s.tmx with table := s.tmx.table ++ [newRecord key s] }).millStopExists (s.tNo k) := by
    unfold SeqRecord.opened
    rw [if_neg (by rw [hstate]; decide), if_pos hstate, hpending]
    rfl
  have hhanded := handCreation_seq (newRecord key s) k (s.withTmx { s.tmx with table := s.tmx.table ++ [newRecord key s] })
  rw [hopen, hcovers] at hhanded
  have hstanding : (createRecord false key s).standing k = (handed key s).standing k := by
    rw [createRecord_outside hmill, evalScopes_standing, tripNotice_standing]
  obtain ⟨est, eho, ereq, -⟩ := standing_iff.mp hstanding
  obtain ⟨dst, -, dho, -, dreq⟩ := evalDemand_record_keeps
    ({ ((s.seq k).opened (s.inSet k)
      (s.withTmx { s.tmx with table := s.tmx.table ++ [newRecord key s] }).millStopExists (s.tNo k)) with
      frozen := (s.withTmx { s.tmx with table := s.tmx.table ++ [newRecord key s] }).freezeCover k } : SeqRecord)
    (s.withTmx { s.tmx with table := s.tmx.table ++ [newRecord key s] }).millStopExists (s.tNo k)
  obtain ⟨rst, -, rho, -, rreq⟩ := evalDemand_record_keeps ((s.seq k).released.enter (unconfirmedState h (s.inSet k) true))
    (s.withTmx { s.tmx with table := s.tmx.table ++ [newRecord key s] }).millStopExists (s.tNo k)
  unfold handed at est eho ereq
  rw [hhanded] at est eho ereq
  refine ⟨est.trans (dst.trans ?_), eho.trans (dho.trans ?_), ereq.trans (dreq.trans ?_), ?_⟩
  · show ((s.seq k).opened _ _ _).state = _
    rw [hseq]
    exact rst
  · show ((s.seq k).opened _ _ _).handover = _
    rw [hseq]
    exact rho
  · show ((s.seq k).opened _ _ _).localReq = _
    rw [hseq]
    exact rreq
  · rw [createRecord_outside hmill]
    exact noticed_evalScopes (handoverDone_lasting _ _ _) (noticed_tripNotice (handoverDone_lasting _ _ _) key
      (noticed_handCreation (s := s.withTmx { s.tmx with table := s.tmx.table ++ [newRecord key s] }) hopen hcovers hstate hpending))

/-! ## The accept (R42, R43) -/

/-- A filter that takes the sampled level. -/
def acceptedFilter (i : FilterId) (s : State) : State :=
  s.setFilter i { level := pinActive s.plu.pins i, count := 0, due := false }

/-- The takers of a filtered change touch no filter (R43). -/
theorem filteredChange_filters (i : FilterId) (active : Bool) (s : State) :
    (∀ j, (filteredChange i active s).filter j = s.filter j) ∧ (filteredChange i active s).hlk.tx = s.hlk.tx ∧
      (filteredChange i active s).hlk.held = s.hlk.held ∧ (filteredChange i active s).hlk.mask = s.hlk.mask := by
  have hfilters {t : State} (hhmd : t.plu.hmd = s.plu.hmd) (hstop : t.plu.stop = s.plu.stop) (hpanel : t.plu.panel = s.plu.panel)
      (j : FilterId) : t.filter j = s.filter j := by
    cases j with
    | hmd k => exact congrArg (vget · k) hhmd
    | stop n => exact congrArg (vget · n) hstop
    | panel k => exact congrArg (vget · k) hpanel
  unfold filteredChange
  cases i with
  | hmd k =>
    dsimp only
    split
    · exact ⟨hfilters (by simp) (by simp) (by simp), by simp, by simp, by simp⟩
    · rw [hmdOff_keeps]
      exact ⟨hfilters rfl rfl rfl, rfl, rfl, rfl⟩
  | stop n => exact ⟨hfilters (by simp) (by simp) (by simp), by simp, by simp, by simp⟩
  | panel k => exact ⟨hfilters (by simp) (by simp) (by simp), by simp, by simp, by simp⟩

/-- A stop input's key is present exactly while the input is active (R43, R140). -/
theorem levelKey_present (n : StopNo) (holds : Bool) (s : State) :
    (levelKey (.stopInput n) holds s).present (.stopInput n) = holds := by
  unfold levelKey
  cases holds with
  | true => exact raiseKey_present false rfl s
  | false => exact goneKey_present _ s

/-- A panel change that confirms its stand's pending handover (R131, R135). -/
theorem panelChange_confirms {k : Stand} {h : Handover} {active : Bool} {s : State} (hpending : (s.seq k).handover = some h)
    (hconfirms : h.dir = .toLocal ∧ active = true ∨ h.dir = .toCoord ∧ active = false) :
    panelChange k active s = evalScopes (endHandover k h.dir (match h.dir with
      | .toLocal => .local_
      | .toCoord => coordState (s.inSet k) (s.openCover k)) .granted s) := by
  unfold panelChange
  rw [hpending]
  dsimp only
  obtain ⟨hdir, rfl⟩ | ⟨hdir, rfl⟩ := hconfirms <;> rw [hdir] <;> rfl

theorem panelChange_other {k : Stand} {active : Bool} {s : State}
    (hother : ∀ h, (s.seq k).handover = some h →
      (h.dir = .toLocal ∧ active = false ∨ h.dir = .toCoord ∧ active = true)) : panelChange k active s = s := by
  unfold panelChange
  cases hpending : (s.seq k).handover with
  | none => rfl
  | some h =>
    dsimp only
    obtain ⟨hdir, rfl⟩ | ⟨hdir, rfl⟩ := hother h hpending <;> rw [hdir] <;> rfl

/-- Settles O8: the filter's own step, then the taker of each kind of input. -/
theorem filterAcceptTakesSample : Obligations.FilterAcceptTakesSample := by
  intro i s ⟨hrun, hline⟩
  refine ⟨exec_filterAccept_not_due i s hrun, fun hdue => ?_⟩
  obtain ⟨hfilters, htx, hheld, hmask⟩ := filteredChange_filters i (pinActive s.plu.pins i) (acceptedFilter i s)
  have hsame : (acceptedFilter i s).hlk = s.hlk ∧ (acceptedFilter i s).ssq = s.ssq ∧ (acceptedFilter i s).tmx = s.tmx ∧
      (acceptedFilter i s).sch = s.sch ∧ (acceptedFilter i s).stk = s.stk := by
    unfold acceptedFilter State.setFilter
    cases i <;> exact ⟨rfl, rfl, rfl, rfl, rfl⟩
  obtain ⟨hhlk, hssq, htmx, hsch, hstk⟩ := hsame
  rw [hhlk] at htx hheld hmask
  obtain ⟨l, hend, hbusyEnd⟩ := endEvent_after (t := filteredChange i (pinActive s.plu.pins i) (acceptedFilter i s)) hline htx hheld
  have hexec := (exec_filterAccept_due i s hrun hdue).trans (congrArg Host.Outcome.next hend)
  refine ⟨_, hexec, ?_, fun j hj => ?_, fun n hn => ?_, fun k hk => ⟨fun h hpending hconfirms => ?_, fun hother => ?_⟩,
    fun n k h hn hactive hnew haction hmill hstate hpending => ?_⟩
  · refine (hfilters i).trans ?_
    rw [acceptedFilter, setFilter_filter, if_pos rfl]
  · refine (hfilters j).trans ?_
    rw [acceptedFilter, setFilter_filter, if_neg hj]
  · subst hn
    exact levelKey_present n _ _
  · subst hk
    have hseq (j : Stand) : (acceptedFilter (.panel k) s).seq j = s.seq j := rfl
    have hchange := panelChange_confirms (active := pinActive s.plu.pins (.panel k))
      (s := acceptedFilter (.panel k) s) hpending hconfirms
    have hfiltered : filteredChange (.panel k) (pinActive s.plu.pins (.panel k)) (acceptedFilter (.panel k) s) = _ := hchange
    generalize hst : (match h.dir with
      | .toLocal => StandState.local_
      | .toCoord => coordState ((acceptedFilter (.panel k) s).inSet k) ((acceptedFilter (.panel k) s).openCover k)) = st at hfiltered
    obtain ⟨est, eho, ereq, -⟩ := standing_iff.mp (congrFun (evalScopes_standing
      (endHandover k h.dir st .granted (acceptedFilter (.panel k) s))) k)
    obtain ⟨hstate, hnone, hlow⟩ := endHandover_standing k k h.dir st .granted (acceptedFilter (.panel k) s)
    rw [if_pos rfl] at hstate
    rw [hfiltered] at hbusyEnd ⊢
    refine ⟨eho.trans hnone, ereq.trans hlow, (est.trans hstate).trans ?_, fun j hj => ?_, fun hbusy hkind => ?_⟩
    · rw [← hst]
      cases h.dir with
      | toLocal => rfl
      | toCoord =>
        show coordState (s.inSet k) (s.openCover k) = _
        unfold coordState
        cases s.inSet k <;> rfl
    · refine (evalScopes_state _ j).trans ?_
      rw [(endHandover_standing k j h.dir st .granted _).1, if_neg hj]
      rfl
    · rw [hbusyEnd hbusy]
      have hnoticed := noticed_evalScopes (handoverDone_lasting k h.dir .granted)
        (endHandover_noticed k h.dir st .granted (acceptedFilter (.panel k) s))
      refine hnoticed ?_
      have hkept : (evalScopes (endHandover k h.dir st .granted (acceptedFilter (.panel k) s))).hlk.mask = s.hlk.mask := by
        simp [acceptedFilter, State.setFilter, State.withPlu]
      rw [hkept]
      exact hkind
  · subst hk
    have hfiltered : filteredChange (.panel k) (pinActive s.plu.pins (.panel k)) (acceptedFilter (.panel k) s) =
        acceptedFilter (.panel k) s := panelChange_other (s := acceptedFilter (.panel k) s) hother
    have hidle : endEvent (acceptedFilter (.panel k) s) = acceptedFilter (.panel k) s := endEvent_of_same_hlk hline rfl
    have hl : l = s.hlk := by
      rw [hfiltered, hidle] at hend
      exact (congrArg State.hlk hend).symm
    rw [hfiltered, hl]
    exact ⟨rfl, rfl⟩
  · subst hn
    have hopen : (newRecord (.stopInput n) (acceptedFilter (.stop n) s)).action = .millStop := haction
    have hraise : filteredChange (.stop n) (pinActive s.plu.pins (.stop n)) (acceptedFilter (.stop n) s) =
        createRecord false (.stopInput n) (acceptedFilter (.stop n) s) := by
      unfold filteredChange levelKey
      dsimp only
      rw [if_pos hactive]
      exact raiseKey_of_none false (s := acceptedFilter (.stop n) s) hnew
    obtain ⟨hst, hnone, hlow, hnoticed⟩ := createRecord_aborts (key := .stopInput n) (k := k) (h := h)
      (s := acceptedFilter (.stop n) s) hmill (by rw [hopen]; rfl) (by unfold TripRecord.covers; rw [hopen]) hstate hpending
    rw [hraise] at hbusyEnd hmask ⊢
    generalize createRecord false (.stopInput n) (acceptedFilter (.stop n) s) = u at hst hnone hlow hnoticed hmask hbusyEnd ⊢
    refine ⟨hnone, hlow, fun hdir => hst.trans ?_, fun p hdir hprior => hst.trans ?_, fun hbusy hkind => ?_⟩
    · show unconfirmedState h (s.inSet k) true = _
      unfold unconfirmedState
      rw [hdir]
    · show unconfirmedState h (s.inSet k) true = _
      unfold unconfirmedState returnState
      rw [hdir, hprior]
      by_cases hp : p = .tripped
      · simp [hp]
      · cases s.inSet k <;> simp [hp]
    · have hlink (v : State) (l : HostLink) : (v.withHlk l).hlk = l := rfl
      rw [hlink, hbusyEnd hbusy]
      exact hnoticed (by rw [hmask]; exact hkind)

end Sys2Proof.Machine
end

section
/-! PROOFS. What entries into TRIPPED make of the field-out line and the gap records (R122). -/

namespace Sys2Proof.Machine

/-- The setpoint that an entry into TRIPPED sends (R122). -/
def openSetpoint (r : StandRecord) : Setpoint := ⟨.open_, r.sOpen⟩

/-- The field-out line and the gap records of `t`, which the stands `opened` have entered TRIPPED from `s` on, each once: the
first with a tag begins an idle line, the others wait (R38, R89, R122). -/
structure Openings (opened : Stand → Prop) (s t : State) : Prop where
  sch : t.sch = s.sch
  accept : t.flc.accept = s.flc.accept
  asm : t.flc.asm = s.flc.asm
  busy : s.flc.tx ≠ none → t.flc.tx = s.flc.tx ∧ t.flc.seqs = s.flc.seqs
  idle : s.flc.tx = none → t.flc.seqs = match t.flc.tx with
    | some f => vset s.flc.seqs f.stand (vget s.flc.seqs f.stand + 1)
    | none => s.flc.seqs
  gap : ∀ k, t.gap k =
    { s.gap k with
      sRef := (t.gap k).sRef, lastSent := (t.gap k).lastSent, lockCount := (t.gap k).lockCount }
  count : ∀ k, (s.seq k).state ≠ .thread → (t.gap k).lockCount = (s.gap k).lockCount
  kept : ∀ k, ¬opened k ∨ s.record k = none →
    vget t.flc.slots k = vget s.flc.slots k ∧ (t.gap k).sRef = (s.gap k).sRef ∧ (t.gap k).lastSent = (s.gap k).lastSent ∧
      ∀ f, s.flc.tx = none → t.flc.tx = some f → f.stand ≠ k
  sent : ∀ k r, opened k → s.record k = some r →
    (t.gap k).sRef = r.sOpen ∧
    (vget s.sch.config.tags k = 0 → vget t.flc.slots k = none ∧ (t.gap k).lastSent = (s.gap k).lastSent) ∧
    (vget s.sch.config.tags k ≠ 0 →
      vget t.flc.slots k = some (openSetpoint r) ∧ t.flc.tx ≠ none ∧ (t.gap k).lastSent = (s.gap k).lastSent ∨
      s.flc.tx = none ∧ vget t.flc.slots k = none ∧ (t.gap k).lastSent = some (openSetpoint r) ∧
        t.flc.tx =
          some { stand := k, tag := vget s.sch.config.tags k, seq := vget s.flc.seqs k, setpoint := openSetpoint r })

theorem Openings.refl (s : State) : Openings (fun _ => False) s s where
  sch := rfl
  accept := rfl
  asm := rfl
  busy _ := ⟨rfl, rfl⟩
  idle h := by rw [h]
  gap _ := rfl
  count _ _ := rfl
  kept _ _ := ⟨rfl, rfl, rfl, fun f hidle hf => nomatch hidle.symm.trans hf⟩
  sent _ _ h := h.elim

/-- A change that neither the line nor the gap records see. -/
theorem Openings.congr {opened : Stand → Prop} {s t u : State} (hflc : u.flc = t.flc) (hgce : u.gce = t.gce) (hsch : u.sch = t.sch)
    (h : Openings opened s t) : Openings opened s u := by
  have hgap (k : Stand) : u.gap k = t.gap k := by rw [State.gap, State.gap, hgce]
  refine ⟨hsch.trans h.sch, ?_, ?_, ?_, ?_, fun k => ?_, fun k => ?_, fun k => ?_, fun k => ?_⟩
  · rw [hflc]; exact h.accept
  · rw [hflc]; exact h.asm
  · rw [hflc]; exact h.busy
  · rw [hflc]; exact h.idle
  · rw [hgap]; exact h.gap k
  · rw [hgap]; exact h.count k
  · rw [hflc, hgap]; exact h.kept k
  · rw [hflc, hgap]; exact h.sent k

/-- The set of the opened stands by another description. -/
theorem Openings.of_iff {p q : Stand → Prop} {s t : State} (hpq : ∀ k, p k ↔ q k) (h : Openings p s t) : Openings q s t := by
  obtain rfl : p = q := funext fun k => propext (hpq k)
  exact h

theorem modSeq_produce (k j : Stand) (mode : Mode) (ref : Int) (f : SeqRecord → SeqRecord) (s : State) :
    (produce k mode ref (s.modSeq j f)).flc = (produce k mode ref s).flc ∧
      (produce k mode ref (s.modSeq j f)).gce = (produce k mode ref s).gce := by
  unfold produce
  dsimp only
  have htag : ((s.modSeq j f).modGap k fun g => { g with sRef := ref }).sch.config.tags =
    (s.modGap k fun g => { g with sRef := ref }).sch.config.tags := rfl
  have htx : ((s.modSeq j f).modGap k fun g => { g with sRef := ref }).flc.tx =
    (s.modGap k fun g => { g with sRef := ref }).flc.tx := rfl
  rw [htag, htx]
  split
  · exact ⟨rfl, rfl⟩
  · split <;> exact ⟨rfl, rfl⟩

/-- What an entry into TRIPPED sends, by the stand's record (R122). -/
def sendOpen (k : Stand) (s : State) : State :=
  match s.record k with
  | some r => produce k .open_ r.sOpen s
  | none => s

theorem sendOpen_modSeq (k : Stand) (f : SeqRecord → SeqRecord) (s : State) :
    (sendOpen k (s.modSeq k f)).flc = (sendOpen k s).flc ∧ (sendOpen k (s.modSeq k f)).gce = (sendOpen k s).gce := by
  have hrecord : (s.modSeq k f).record k = s.record k := rfl
  unfold sendOpen
  rw [hrecord]
  cases s.record k with
  | none => exact ⟨rfl, rfl⟩
  | some r => exact modSeq_produce _ _ _ _ _ _

/-- The steps of an entry into TRIPPED (R122). -/
theorem tripStand_eq (k : Stand) (s : State) :
    tripStand k s = evalDemand k
      (if (s.seq k).state = .thread then
        (sendOpen k (s.modSeq k fun q => { q with state := .tripped, equalize := none })).modGap k
          fun g => { g with lockCount := 0 }
      else sendOpen k (s.modSeq k fun q => { q with state := .tripped, equalize := none })) := rfl

/-- The line and the gap records behind an entry into TRIPPED (R122). -/
theorem tripStand_line (k : Stand) (s : State) :
    (tripStand k s).flc = (sendOpen k s).flc ∧ (tripStand k s).sch = s.sch ∧
      ∀ j, (tripStand k s).gap j =
        if j = k ∧ (s.seq k).state = .thread then { (sendOpen k s).gap j with lockCount := 0 } else (sendOpen k s).gap j := by
  obtain ⟨hflc, hgce⟩ := sendOpen_modSeq k (fun q => { q with state := .tripped, equalize := none }) s
  have hgap (j : Stand) : (sendOpen k (s.modSeq k fun q => { q with state := .tripped, equalize := none })).gap j =
      (sendOpen k s).gap j := congrArg (vget · j) hgce
  refine ⟨?_, (tripStand_keeps k s).2.2.2.2.2.1, fun j => ?_⟩
  · rw [tripStand_eq]
    split <;> exact hflc
  · rw [tripStand_eq]
    have hdemand (v : State) : (evalDemand k v).gap j = v.gap j := rfl
    rw [hdemand]
    by_cases hthread : (s.seq k).state = .thread
    · rw [if_pos hthread, modGap_gap]
      by_cases hj : j = k
      · subst hj
        rw [if_pos rfl, if_pos ⟨rfl, hthread⟩, hgap]
      · rw [if_neg hj, if_neg fun h => hj h.1, hgap]
    · rw [if_neg hthread, if_neg fun h => hthread h.2, hgap]

/-! ## One more stand opened -/

section
variable {opened : Stand → Prop} {s t : State} {k : Stand} {r : StandRecord}

/-- What a setpoint OPEN sends, seen from the line and the gap records (R36 to R39, R89, R90). -/
theorem produceOpen_cases (k : Stand) (r : StandRecord) (t : State) :
    (∀ j, (produce k .open_ r.sOpen t).gap j =
      if j = k then { t.gap k with sRef := r.sOpen, lastSent := ((produce k .open_ r.sOpen t).gap k).lastSent } else t.gap j) ∧
    ((vget t.sch.config.tags k = 0 ∧ (produce k .open_ r.sOpen t).flc = { t.flc with slots := vset t.flc.slots k none } ∧
        ((produce k .open_ r.sOpen t).gap k).lastSent = (t.gap k).lastSent) ∨
      (vget t.sch.config.tags k ≠ 0 ∧ t.flc.tx = none ∧
        (produce k .open_ r.sOpen t).flc = { t.flc with
          slots := vset t.flc.slots k none
          tx := some { stand := k, tag := vget t.sch.config.tags k, seq := vget t.flc.seqs k, setpoint := openSetpoint r }
          seqs := vset t.flc.seqs k (vget t.flc.seqs k + 1) } ∧
        ((produce k .open_ r.sOpen t).gap k).lastSent = some (openSetpoint r)) ∨
      (vget t.sch.config.tags k ≠ 0 ∧ t.flc.tx ≠ none ∧
        (produce k .open_ r.sOpen t).flc = { t.flc with slots := vset t.flc.slots k (some (openSetpoint r)) } ∧
        ((produce k .open_ r.sOpen t).gap k).lastSent = (t.gap k).lastSent)) := by
  obtain ⟨htag, e⟩ | ⟨htag, hidle, e⟩ | ⟨htag, hbusy, e⟩ := produce_cases k .open_ r.sOpen t
  · refine ⟨fun j => ?_, .inl ⟨htag, by rw [e]; rfl, by rw [e]; simp [emptySlot]⟩⟩
    rw [e]
    by_cases hj : j = k
    · subst hj
      simp [emptySlot]
    · simp [emptySlot, modGap_gap, hj]
  · refine ⟨fun j => ?_, .inr (.inl ⟨htag, hidle, by rw [e]; rfl, by rw [e]; simp [startSetpoint, openSetpoint]⟩)⟩
    rw [e]
    by_cases hj : j = k
    · subst hj
      simp [startSetpoint]
    · simp [startSetpoint, modGap_gap, hj]
  · refine ⟨fun j => ?_, .inr (.inr ⟨htag, hbusy, by rw [e]; rfl, by rw [e]; simp⟩)⟩
    rw [e]
    by_cases hj : j = k
    · subst hj
      simp
    · simp [modGap_gap, hj]

/-- The line behind one more setpoint OPEN (R38). -/
theorem Openings.produce_flc (h : Openings opened s t) :
    ((produce k .open_ r.sOpen t).flc.accept = s.flc.accept ∧ (produce k .open_ r.sOpen t).flc.asm = s.flc.asm) ∧
      (s.flc.tx ≠ none → (produce k .open_ r.sOpen t).flc.tx = s.flc.tx ∧ (produce k .open_ r.sOpen t).flc.seqs = s.flc.seqs) ∧
      (s.flc.tx = none → (produce k .open_ r.sOpen t).flc.seqs = match (produce k .open_ r.sOpen t).flc.tx with
        | some f => vset s.flc.seqs f.stand (vget s.flc.seqs f.stand + 1)
        | none => s.flc.seqs) := by
  obtain ⟨-, ⟨-, e, -⟩ | ⟨-, hidle, e, -⟩ | ⟨-, -, e, -⟩⟩ := produceOpen_cases k r t <;> rw [e]
  · exact ⟨⟨h.accept, h.asm⟩, h.busy, h.idle⟩
  · have hsidle : s.flc.tx = none := by
      by_contra hbusy
      exact hbusy ((h.busy hbusy).1.symm.trans hidle)
    refine ⟨⟨h.accept, h.asm⟩, fun hbusy => absurd hsidle hbusy, fun _ => ?_⟩
    have hseqs := h.idle hsidle
    rw [hidle] at hseqs
    rw [hseqs]
  · exact ⟨⟨h.accept, h.asm⟩, h.busy, h.idle⟩

/-- A stand that is not the one opened keeps what it has (R38). -/
theorem produceOpen_other {j : Stand} (hj : j ≠ k) :
    vget (produce k .open_ r.sOpen t).flc.slots j = vget t.flc.slots j ∧ (produce k .open_ r.sOpen t).gap j = t.gap j ∧
      ((produce k .open_ r.sOpen t).flc.tx = t.flc.tx ∨
        t.flc.tx = none ∧ ∃ f, (produce k .open_ r.sOpen t).flc.tx = some f ∧ f.stand = k) := by
  obtain ⟨hgap, hline⟩ := produceOpen_cases k r t
  have hself := hgap j
  rw [if_neg hj] at hself
  obtain ⟨-, e, -⟩ | ⟨-, hidle, e, -⟩ | ⟨-, -, e, -⟩ := hline <;> rw [e]
  · exact ⟨by rw [vget_vset, if_neg hj], hself, .inl rfl⟩
  · exact ⟨by rw [vget_vset, if_neg hj], hself, .inr ⟨hidle, _, rfl, rfl⟩⟩
  · exact ⟨by rw [vget_vset, if_neg hj], hself, .inl rfl⟩

/-- One more stand sends its OPEN (R122). -/
theorem Openings.produce (h : Openings opened s t) (hk : ¬opened k) (hr : s.record k = some r) :
    Openings (fun j => opened j ∨ j = k) s (produce k .open_ r.sOpen t) := by
  obtain ⟨hgap, hline⟩ := produceOpen_cases k r t
  have hself := hgap k
  rw [if_pos rfl] at hself
  obtain ⟨⟨haccept, hasm⟩, hbusy, hidle⟩ := h.produce_flc (k := k) (r := r)
  refine ⟨(produce_keeps k _ _ t).2.2.2.2.2.2.1.trans h.sch, haccept, hasm, hbusy, hidle, fun j => ?_, fun j hj => ?_, fun j hj => ?_,
    fun j q hj hq => ?_⟩
  · by_cases hjk : j = k
    · subst hjk
      rw [hself]
      exact (congrArg (fun g : GapRecord => { g with
        sRef := r.sOpen, lastSent := ((Machine.produce j .open_ r.sOpen t).gap j).lastSent }) (h.gap j))
    · rw [(produceOpen_other hjk).2.1]
      exact h.gap j
  · by_cases hjk : j = k
    · subst hjk
      rw [hself]
      exact h.count j hj
    · rw [(produceOpen_other hjk).2.1]
      exact h.count j hj
  · have hjk : j ≠ k := by
      rintro rfl
      obtain hj | hj := hj
      · exact hj (.inr rfl)
      · exact nomatch hj.symm.trans hr
    obtain ⟨hslot, hgapj, htx⟩ := produceOpen_other (r := r) (t := t) hjk
    obtain ⟨kslot, kref, klast, kframe⟩ := h.kept j (hj.imp (fun hn hp => hn (.inl hp)) id)
    rw [hslot, hgapj]
    refine ⟨kslot, kref, klast, fun f hsidle hf => ?_⟩
    obtain htx | ⟨-, f', hf', hstand⟩ := htx
    · exact kframe f hsidle (htx.symm.trans hf)
    · obtain rfl : f' = f := Option.some.inj (hf'.symm.trans hf)
      rw [hstand]
      exact fun e => hjk e.symm
  · by_cases hjk : j = k
    · subst hjk
      obtain rfl : q = r := Option.some.inj (hq.symm.trans hr)
      obtain ⟨kslot, -, klast, -⟩ := h.kept j (.inl hk)
      have htags : vget t.sch.config.tags j = vget s.sch.config.tags j := by rw [h.sch]
      refine ⟨by rw [hself], ?_⟩
      rw [htags] at hline
      obtain ⟨htag, e, elast⟩ | ⟨htag, htidle, e, elast⟩ | ⟨htag, htbusy, e, elast⟩ := hline
      · refine ⟨fun _ => ?_, fun hne => absurd htag hne⟩
        rw [e, elast]
        exact ⟨vget_vset_self _ _ _, klast⟩
      · have hsidle : s.flc.tx = none := by
          by_contra hsbusy
          exact hsbusy ((h.busy hsbusy).1.symm.trans htidle)
        have hseqs := h.idle hsidle
        rw [htidle] at hseqs
        refine ⟨fun h0 => absurd h0 htag, fun _ => .inr ?_⟩
        rw [e, elast, hseqs]
        exact ⟨hsidle, vget_vset_self _ _ _, rfl, rfl⟩
      · refine ⟨fun h0 => absurd h0 htag, fun _ => .inl ?_⟩
        rw [e, elast]
        exact ⟨vget_vset_self _ _ _, htbusy, klast⟩
    · obtain ⟨hslot, hgapj, htx⟩ := produceOpen_other (r := r) (t := t) hjk
      obtain ⟨sref, suntagged, stagged⟩ := h.sent j q (hj.resolve_right hjk) hq
      rw [hslot, hgapj]
      refine ⟨sref, suntagged, fun htag => ?_⟩
      obtain ⟨kslot, kbusy, klast⟩ | ⟨ksidle, kslot, klast, ktx⟩ := stagged htag
      · refine .inl ⟨kslot, ?_, klast⟩
        obtain htx | ⟨htidle, -⟩ := htx
        · rw [htx]
          exact kbusy
        · exact absurd htidle kbusy
      · obtain htx | ⟨htidle, -⟩ := htx
        · exact .inr ⟨ksidle, kslot, klast, htx.trans ktx⟩
        · exact nomatch ktx.symm.trans htidle

/-- One more stand enters TRIPPED (R122). -/
theorem Openings.trip (h : Openings opened s t) (hk : ¬opened k) (hthread : (t.seq k).state = .thread → (s.seq k).state = .thread) :
    Openings (fun j => opened j ∨ j = k) s (tripStand k t) := by
  have hsend : Openings (fun j => opened j ∨ j = k) s (sendOpen k t) := by
    have hrecord : t.record k = s.record k := by rw [State.record, State.record, h.sch]
    unfold sendOpen
    rw [hrecord]
    cases hr : s.record k with
    | some r => exact h.produce hk hr
    | none =>
      refine { h with kept := fun j hj => h.kept j ?_, sent := fun j r hj hq => h.sent j r ?_ hq }
      · obtain hj | hj := hj
        · exact .inl fun hp => hj (.inl hp)
        · exact .inr hj
      · refine hj.resolve_right ?_
        rintro rfl
        exact nomatch hq.symm.trans hr
  obtain ⟨hflc, hsch, hgap⟩ := tripStand_line k t
  have hview (j : Stand) : ((tripStand k t).gap j).sRef = ((sendOpen k t).gap j).sRef ∧
      ((tripStand k t).gap j).lastSent = ((sendOpen k t).gap j).lastSent := by
    rw [hgap]
    split <;> exact ⟨rfl, rfl⟩
  refine ⟨hsch.trans h.sch, ?_, ?_, ?_, ?_, fun j => ?_, fun j hj => ?_, fun j => ?_, fun j => ?_⟩
  · rw [hflc]; exact hsend.accept
  · rw [hflc]; exact hsend.asm
  · rw [hflc]; exact hsend.busy
  · rw [hflc]; exact hsend.idle
  · rw [(hview j).1, (hview j).2, hgap]
    split
    · exact congrArg (fun g : GapRecord => { g with lockCount := 0 }) (hsend.gap j)
    · exact hsend.gap j
  · rw [hgap, if_neg]
    · exact hsend.count j hj
    · rintro ⟨rfl, e⟩
      exact hj (hthread e)
  · rw [hflc, (hview j).1, (hview j).2]
    exact hsend.kept j
  · rw [hflc, (hview j).1, (hview j).2]
    exact hsend.sent j

end

/-! ## Stands opened one after another -/

/-- The line, the gap records and the schedule store together. -/
def State.outward (s : State) : FieldLine × Vector GapRecord 8 × ScheduleStore := (s.flc, s.gce, s.sch)

theorem Openings.outward_congr {opened : Stand → Prop} {s t u : State} (hsame : u.outward = t.outward) (h : Openings opened s t) :
    Openings opened s u := by
  simp only [State.outward, Prod.mk.injEq] at hsame
  obtain ⟨hflc, hgce, hsch⟩ := hsame
  exact h.congr hflc hgce hsch

theorem tripStand_modSeq (k : Stand) (f : SeqRecord → SeqRecord) (hf : ∀ q, (f q).state = q.state) (s : State) :
    (tripStand k (s.modSeq k f)).outward = (tripStand k s).outward := by
  obtain ⟨hflc, hsch, hgap⟩ := tripStand_line k (s.modSeq k f)
  obtain ⟨hflc', hsch', hgap'⟩ := tripStand_line k s
  obtain ⟨esend, egce⟩ := sendOpen_modSeq k f s
  have hstate : ((s.modSeq k f).seq k).state = (s.seq k).state := by rw [modSeq_seq_self, hf]
  have hsendGap (j : Stand) : (sendOpen k (s.modSeq k f)).gap j = (sendOpen k s).gap j := congrArg (vget · j) egce
  have hgce : (tripStand k (s.modSeq k f)).gce = (tripStand k s).gce := vec_ext fun j => by
    refine (hgap j).trans (Eq.trans ?_ (hgap' j).symm)
    rw [hstate, hsendGap]
  unfold State.outward
  rw [hflc, hflc', hsch, hsch', esend, hgce]
  rfl

/-- A pass over the stands in which those of `opens` enter TRIPPED, and no other changes the line or a gap record; `v` is the
state in which the pass finds each stand. -/
structure OpeningPass (f : Stand → State → State) (opens : Stand → Prop) (v : State) : Prop where
  other : ∀ j k t, j ≠ k → (f k t).seq j = t.seq j
  tmx : ∀ k t, (f k t).tmx = t.tmx
  opening : ∀ k t, t.seq k = v.seq k → t.tmx = v.tmx → t.sch = v.sch → opens k → (f k t).outward = (tripStand k t).outward
  quiet : ∀ k t, t.seq k = v.seq k → t.tmx = v.tmx → t.sch = v.sch → ¬opens k → (f k t).outward = t.outward

theorem Openings.pass {f : Stand → State → State} {opens opened : Stand → Prop} {v s t : State} (hf : OpeningPass f opens v)
    (hthread : ∀ k, opens k → (v.seq k).state = .thread → (s.seq k).state = .thread) (hsch : v.sch = s.sch)
    (l : List Stand) (hl : l.Nodup) (hseq : ∀ k, k ∈ l → t.seq k = v.seq k) (htmx : t.tmx = v.tmx)
    (hfresh : ∀ k, k ∈ l → opens k → ¬opened k) (h : Openings opened s t) :
    Openings (fun j => opened j ∨ j ∈ l ∧ opens j) s (l.foldl (fun s k => f k s) t) := by
  induction l generalizing t opened with
  | nil => exact h.of_iff fun k => by simp
  | cons k rest ih =>
    obtain ⟨hk, hrest⟩ := List.nodup_cons.mp hl
    have hhere := hseq k List.mem_cons_self
    have htsch : t.sch = v.sch := h.sch.trans hsch.symm
    have hstep : Openings (fun j => opened j ∨ j = k ∧ opens j) s (f k t) := by
      by_cases hopens : opens k
      · refine ((h.trip (hfresh k List.mem_cons_self hopens) fun e => hthread k hopens (hhere ▸ e)).of_iff fun j => ?_).outward_congr
          (hf.opening k t hhere htmx htsch hopens)
        exact or_congr_right ⟨fun e => ⟨e, e ▸ hopens⟩, fun e => e.1⟩
      · refine (h.of_iff fun j => ?_).outward_congr (hf.quiet k t hhere htmx htsch hopens)
        refine ⟨.inl, fun e => e.resolve_right ?_⟩
        rintro ⟨rfl, ho⟩
        exact hopens ho
    have hnext := ih hrest (fun j hj => (hf.other j k t fun e => hk (e ▸ hj)).trans (hseq j (List.mem_cons_of_mem _ hj)))
      ((hf.tmx k t).trans htmx) (fun j hj hopens e => ?_) hstep
    · refine hnext.of_iff fun j => ?_
      rw [List.mem_cons]
      tauto
    · obtain e | ⟨rfl, -⟩ := e
      · exact hfresh j (List.mem_cons_of_mem _ hj) hopens e
      · exact hk hj

end Sys2Proof.Machine
end

section
/-! PROOFS. COMMIT where it swaps: O40. -/

namespace Sys2Proof.Machine

/-- The stands that a swap places in TRIPPED (R16). -/
def swapOpens (s : State) (k : Stand) : Prop :=
  (s.seq k).state ≠ .tripped ∧ swapState (s.inSet k) (s.openCover k) (s.seq k).state = .tripped

theorem setStandState_outward (k : Stand) (st : StandState) (s : State) : (setStandState k st s).outward = s.outward := by
  simp [State.outward]

theorem standNotice_outward (k : Stand) (s : State) : (standNotice k s).outward = s.outward := by simp [State.outward]

theorem enterState_outward {k : Stand} {st : StandState} (hst : st ≠ .tripped) (s : State) :
    (enterState k st s).outward = s.outward := by
  unfold enterState
  rw [if_neg hst]
  exact setStandState_outward k st s

theorem openCover_congr {s t : State} (htmx : t.tmx = s.tmx) (k : Stand) : t.openCover k = s.openCover k := by
  rw [State.openCover, State.openCover, htmx]

/-- A stand that a swap may place, by where it stands (R16). -/
theorem placeAtSwap_cases (k : Stand) (s : State) :
    (((s.seq k).state = .local_ ∨ (s.seq k).state = .handover ∨ (s.seq k).state = .tripped) ∧
        (placeAtSwap k s).outward = s.outward) ∨
      (¬((s.seq k).state = .local_ ∨ (s.seq k).state = .handover ∨ (s.seq k).state = .tripped) ∧
        placeAtSwap k s =
          if (s.seq k).state = placement (s.inSet k) (s.openCover k) then s
          else standNotice k (enterState k (placement (s.inSet k) (s.openCover k)) s)) := by
  unfold placeAtSwap
  split
  next h => exact .inl ⟨.inr (.inl h), rfl⟩
  next h => exact .inl ⟨.inl h, rfl⟩
  next h => exact .inl ⟨.inr (.inr h), rfl⟩
  next hh hl ht =>
    refine .inr ⟨?_, rfl⟩
    rintro (h | h | h)
    · exact hl h
    · exact hh h
    · exact ht h

theorem placeAtSwap_pass (v : State) : OpeningPass placeAtSwap (swapOpens v) v where
  other j k t hj := by rw [placeAtSwap_seq, if_neg hj]
  tmx k t := by simp
  opening k t hseq htmx hsch hopens := by
    obtain ⟨hnot, hst⟩ := hopens
    unfold swapState at hst
    obtain ⟨hkept, -⟩ | ⟨hfree, e⟩ := placeAtSwap_cases k t
    · rw [hseq] at hkept
      rw [if_pos hkept] at hst
      exact absurd hst hnot
    · rw [hseq] at hfree e
      rw [if_neg hfree] at hst
      rw [inSet_congr (congrArg ScheduleStore.active hsch), openCover_congr htmx, hst, if_neg hnot] at e
      rw [e, standNotice_outward]
      rfl
  quiet k t hseq htmx hsch hopens := by
    obtain ⟨-, e⟩ | ⟨hfree, e⟩ := placeAtSwap_cases k t
    · exact e
    · rw [hseq] at hfree e
      rw [inSet_congr (congrArg ScheduleStore.active hsch), openCover_congr htmx] at e
      rw [e]
      split
      · rfl
      · rw [standNotice_outward]
        refine enterState_outward (fun hst => hopens ⟨fun h => hfree (.inr (.inr h)), ?_⟩) t
        unfold swapState
        rw [if_neg hfree, hst]

/-- The line and the gap records behind a swap (R15, R16, R113). -/
theorem swapBank_openings (s : State) : Openings (swapOpens (swapStart s)) (swapStart s) (swapBank s) := by
  have h := (Openings.refl (swapStart s)).pass (placeAtSwap_pass (swapStart s)) (fun _ _ h => h) rfl allStands allStands_nodup
    (fun _ _ => rfl) rfl (fun _ _ _ => not_false)
  have hplaced : Openings (swapOpens (swapStart s)) (swapStart s) (eachStand placeAtSwap (swapStart s)) := by
    unfold eachStand
    exact h.of_iff fun k => by simp [mem_allStands]
  rw [swapBank_eq]
  exact hplaced.congr (by simp) (by simp) (by simp)

/-- The gap records and the transmit slots under the new bank, before a stand is placed (R15, R113). -/
theorem swapStart_line (s : State) (k : Stand) :
    (swapStart s).gap k = { s.gap k with trim := 0, integ := 0, timer := ((swapStart s).record k).map (·.tCtl) } ∧
      vget (swapStart s).flc.slots k = swapSlot ((swapStart s).record k) (vget s.flc.slots k) :=
  ⟨vget_vtab _ k, vget_vtab _ k⟩

theorem swapBank_sch (s : State) : (swapBank s).sch = (swapStart s).sch := by
  rw [swapBank_eq]
  simp

/-- What a swap leaves beyond the stands, the line and the gap records (R15, R86, R165). -/
theorem swapBank_leaves (s : State) :
    (swapBank s).stk = { s.stk with hold := 0 } ∧ (∀ k, vget (swapBank s).plu.acc k = 0) ∧
      ∀ k, vget (swapBank s).tmx.forceCnt k = 0 ∧ vget (swapBank s).tmx.gapCnt k = 0 := by
  refine ⟨by rw [swapBank_eq]; simp [swapStart], fun k => ?_, fun k => ?_⟩
  · rw [swapBank_eq]
    simp [swapStart]
  · have hcounts := evalScopes_counts (eachStand placeAtSwap (swapStart s))
    have hplaced : (eachStand placeAtSwap (swapStart s)).tmx = (swapStart s).tmx := by simp
    have hnotice : (swapBank s).tmx = (evalScopes (eachStand placeAtSwap (swapStart s))).tmx := by
      rw [swapBank_eq]
      simp
    rw [hnotice, hcounts.1, hcounts.2, clearCounters_force, clearCounters_gap, hplaced]
    simp [swapStart]

/-- A pending TO_LOCAL handover of prior state READY takes SETUP (R16, R132). -/
theorem swapBank_handover {s : State} {k : Stand} {ho : Handover} (hstate : (s.seq k).state = .handover)
    (hho : (s.seq k).handover = some ho) : ((swapBank s).seq k).handover = some (swapHandover ho) := by
  refine (congrArg (·.2.1) (swapBank_standing k s)).trans ?_
  unfold SeqRecord.swapped
  rw [if_pos hstate]
  simp [SeqRecord.standing, hho]

theorem swapBank_mask (s : State) : (swapBank s).hlk.mask = s.hlk.mask := by
  rw [swapBank_eq]
  simp [swapStart]

/-- The MILL_STATE notice that ends a swap (R15). -/
theorem swapBank_noticed (s : State) :
    Noticed (.millState s.stk.mill s.stk.coil s.sch.pendingBank.serial) (swapBank s) := by
  rw [swapBank_eq]
  have hbody : NoticeBody.millState s.stk.mill s.stk.coil s.sch.pendingBank.serial =
      .millState (evalScopes (eachStand placeAtSwap (swapStart s))).stk.mill
        (evalScopes (eachStand placeAtSwap (swapStart s))).stk.coil
        (evalScopes (eachStand placeAtSwap (swapStart s))).sch.active.serial := by
    simp [swapStart]
  rw [hbody]
  exact noticed_updateNotice _ _ fun old => by cases old <;> rfl

/-- A bank that the COMMIT takes: validated before or now (R13). -/
theorem reqCommit_swaps {serial : Nat} {s : State} (hidle : s.stk.mill = .idle)
    (h : s.sch.pendingBank.state = .committed ∧ serial = s.sch.pendingBank.serial ∨
      s.sch.pendingBank.state = .editing ∧ Validated s.sch.pendingBank.bank ∧ serial = s.sch.counter) :
    ∃ v, reqCommit [] s = (swapBank v, okReply (enc8 0 ++ enc16 serial)) ∧ v = { s with sch := v.sch } ∧
      v.sch.pendingBank.bank = s.sch.pendingBank.bank ∧ v.sch.pendingBank.serial = serial ∧ v.sch.config = s.sch.config := by
  have hswap (v : State) (hv : v.stk.mill = .idle) :
      swapOrDefer v = (swapBank v, okReply (enc8 0 ++ enc16 v.sch.pendingBank.serial)) := by
    unfold swapOrDefer
    refine (if_pos hv).trans ?_
    dsimp only
    rw [swapBank_sch]
    rfl
  obtain ⟨hstate, rfl⟩ | ⟨hstate, hvalid, rfl⟩ := h
  · exact ⟨s, (reqCommit_committed hstate).trans (hswap s hidle), rfl, rfl, rfl, rfl⟩
  · refine ⟨commitPending s, ?_, rfl, rfl, rfl, rfl⟩
    exact (reqCommit_editing hstate (validationFault_of_validated hvalid)).trans (hswap (commitPending s) hidle)

/-- A reply changes the slot and the line alone (R174). -/
theorem exec_replied_line {c : Instr} {kind tag : Byte} {body content : List Byte} {s u : State}
    (h : requestOf c = some { kind := kind, tag := tag, body := body }) (hk : kind.toNat < 128) (hf : HostFree s)
    (hans : answer kind.toNat body s = (u, content)) (htx : u.hlk.tx = s.hlk.tx) (hslot : u.hlk.slot = s.hlk.slot) :
    ∃ l, exec c s = .next (u.withHlk l) ∧ Replied s (u.withHlk l) kind tag content ∧
      l = { u.hlk with tx := l.tx, slot := l.slot } := by
  obtain ⟨l, hexec, hreplied⟩ := exec_replied h hk hf hans htx hslot
  refine ⟨l, hexec, hreplied, ?_⟩
  have e : l = (reply kind tag content u).hlk :=
    congrArg State.hlk (Host.Outcome.next.inj (hexec.symm.trans (exec_of_request h hk hf hans)))
  rw [e]
  unfold reply sendReply
  split <;> rfl

/-- Settles O40: the new bank first, then each stand's place, and the line as the entries into TRIPPED leave it. -/
theorem commitSwaps : Obligations.CommitSwaps := by
  intro tag serial s hf hidle hbank
  obtain ⟨v, hans, hv, hpending, hserial, hconfig⟩ := reqCommit_swaps hidle hbank
  have hvstk : v.stk = s.stk := by rw [hv]
  have hans : answer 9 [] s = (swapBank v, okReply (enc8 0 ++ enc16 serial)) := hans
  obtain ⟨htx, hslot, -⟩ := answer_keeps_line 9 [] s
  rw [hans] at htx hslot
  obtain ⟨l, hexec, hreplied, hline⟩ := exec_replied_line (c := .commit tag []) (kind := 0x09) (tag := tag) rfl (by decide)
    hf hans htx hslot
  have hseq (k : Stand) : v.seq k = s.seq k := by rw [hv]; rfl
  have hflc : v.flc = s.flc := by rw [hv]
  have hcover (k : Stand) : v.openCover k = s.openCover k := by rw [hv]; rfl
  have hopen := swapBank_openings v
  obtain ⟨hstk, hacc, hcounts⟩ := swapBank_leaves v
  have hsch : (swapBank v).sch =
      { v.sch with
        active := { state := .valid, bank := v.sch.pendingBank.bank, serial := v.sch.pendingBank.serial }
        pendingBank := PendingBank.none } := swapBank_sch v
  have hopens (k : Stand) : swapOpens (swapStart v) k ↔ (s.seq k).state ≠ .tripped ∧ ((swapBank v).seq k).state = .tripped := by
    rw [swapBank_state, ← hseq]
    have hset : (swapBank v).inSet k = (swapStart v).inSet k := inSet_congr (by rw [swapBank_sch]) k
    rw [hset]
    exact Iff.rfl
  have hnoticed := swapBank_noticed v
  have hstates (k : Stand) := swapBank_state k v
  have hmask : (swapBank v).hlk.mask = s.hlk.mask := by rw [swapBank_mask, hv]
  have hhand {k : Stand} {ho : Handover} := swapBank_handover (s := v) (k := k) (ho := ho)
  generalize swapBank v = u at *
  have hrecord (k : Stand) : (swapStart v).record k = u.record k := by rw [State.record, State.record, ← hopen.sch]
  refine ⟨_, hexec, hreplied, ?_, ?_, fun k => ?_, hacc, hstk.trans (by rw [hv]), fun k => ?_, fun k hk => ?_,
    fun k r hnot htripped hr => ?_, hcounts, fun k ho hstate hho => ?_, ?_⟩
  · refine (congrArg ScheduleStore.active hsch).trans ?_
    rw [hpending, hserial]
  · exact congrArg ScheduleStore.pendingBank hsch
  · have hgap := hopen.gap k
    rw [(swapStart_line v k).1, hrecord] at hgap
    change (u.gap k).trim = 0 ∧ (u.gap k).integ = 0 ∧ (u.gap k).timer = (u.record k).map (·.tCtl)
    rw [hgap]
    exact ⟨rfl, rfl, rfl⟩
  · refine (hstates k).trans ?_
    unfold swapState placement
    rw [hseq, hcover]
    refine if_congr (by tauto) rfl ?_
    change _ = if u.inSet k = false then _ else _
    cases u.inSet k <;> rfl
  · refine ((hopen.kept k (.inl fun ho => ?_)).1.trans (swapStart_line v k).2).trans ?_
    · obtain ⟨hnot, htripped⟩ := (hopens k).mp ho
      exact hk.elim hnot fun h => h htripped
    · rw [hrecord, hflc]
      rfl
  · have hr' : (swapStart v).record k = some r := (hrecord k).trans hr
    obtain ⟨href, -, htagged⟩ := hopen.sent k r ((hopens k).mpr ⟨hnot, htripped⟩) hr'
    refine ⟨href, fun hbusy htag => ?_⟩
    have htag' : vget (swapStart v).sch.config.tags k ≠ 0 := by
      change vget v.sch.config.tags k ≠ 0
      rwa [hconfig]
    obtain ⟨hslot, -⟩ | ⟨hidle, -⟩ := htagged htag'
    · exact hslot
    · exact absurd (hflc ▸ hidle) hbusy
  · exact hhand ((hseq k).symm ▸ hstate) ((hseq k).symm ▸ hho)
  · intro hkind
    have hn := hnoticed (hmask ▸ hkind)
    rw [hvstk, hserial, hidle] at hn
    change ∃ n ∈ l.queue, _
    rw [hline]
    exact hn

end Sys2Proof.Machine
end

section
/-! PROOFS. The soft reset, stand by stand, and the notices that it enters (R137, R185). -/

namespace Sys2Proof.Machine

/-! ## The stands -/

/-- The blocks as the soft reset leaves them before it takes the stands (R56, R85, R112, R164, R185). -/
def resetStart (s : State) : State := resetCounters (resetGaps (resetLengths (resetSlots (resetReports s))))

/-- What the soft reset makes of the record of a stand whose handover it ends (R137). -/
def SeqRecord.unhanded (q : SeqRecord) (inSet cover millStop : Bool) (tNo : Nat) : SeqRecord :=
  q.handover.elim q fun h => (q.released.enter (unconfirmedState h inSet cover)).evalDemand millStop tNo

/-- What the soft reset makes of the record of a stand that it places (R137). -/
def SeqRecord.placedAtReset (q : SeqRecord) (inSet cover millStop : Bool) (tNo : Nat) : SeqRecord :=
  if q.state = .local_ ∨ q.state = .tripped ∨ q.state = .handover ∨ q.state = placement inSet cover then q
  else (q.enter (placement inSet cover)).evalDemand millStop tNo

theorem resetHandover_seq (k j : Stand) (s : State) :
    (resetHandover k s).seq j =
      if j = k then (s.seq k).unhanded (s.inSet k) (s.openCover k) s.millStopExists (s.tNo k) else s.seq j := by
  unfold resetHandover SeqRecord.unhanded
  split
  next h hpending =>
    rw [hpending]
    exact (updateNotice_seq _ j _).trans (leaveHandover_seq k j _ s)
  next hnone =>
    rw [hnone]
    split
    next e => rw [e]; rfl
    next => rfl

theorem placeAtReset_cases (k : Stand) (s : State) :
    (((s.seq k).state = .local_ ∨ (s.seq k).state = .tripped ∨ (s.seq k).state = .handover ∨
        (s.seq k).state = placement (s.inSet k) (s.openCover k)) ∧ placeAtReset k s = s) ∨
      (¬((s.seq k).state = .local_ ∨ (s.seq k).state = .tripped ∨ (s.seq k).state = .handover ∨
        (s.seq k).state = placement (s.inSet k) (s.openCover k)) ∧
        placeAtReset k s = enterState k (placement (s.inSet k) (s.openCover k)) s) := by
  unfold placeAtReset
  split
  next h => exact .inl ⟨.inl h, rfl⟩
  next h => exact .inl ⟨.inr (.inl h), rfl⟩
  next h => exact .inl ⟨.inr (.inr (.inl h)), rfl⟩
  next hl ht hh =>
    unfold placeIfChanged
    split
    next h => exact .inl ⟨.inr (.inr (.inr h)), rfl⟩
    next h =>
      refine .inr ⟨?_, rfl⟩
      rintro (e | e | e | e)
      · exact hl e
      · exact ht e
      · exact hh e
      · exact h e

theorem placeAtReset_seq (k j : Stand) (s : State) :
    (placeAtReset k s).seq j =
      if j = k then (s.seq k).placedAtReset (s.inSet k) (s.openCover k) s.millStopExists (s.tNo k) else s.seq j := by
  unfold SeqRecord.placedAtReset
  obtain ⟨hkept, e⟩ | ⟨hfree, e⟩ := placeAtReset_cases k s <;> rw [e]
  · rw [if_pos hkept]
    split
    next hj => rw [hj]
    next => rfl
  · rw [if_neg hfree, enterState_seq]

theorem eachStand_resetHandover_seq (j : Stand) (s : State) :
    (eachStand resetHandover s).seq j = (s.seq j).unhanded (s.inSet j) (s.openCover j) s.millStopExists (s.tNo j) :=
  eachStand_view (fun j s => s.seq j) (fun s => (s.tmx, s.sch)) resetHandover
    (fun c k q => q.unhanded ((c.2.active.bank.mill.elim [] (·.activeSet)).contains k)
      (c.1.table.any fun r => r.action.openClass && r.covers k) (c.1.table.any fun r => r.action == .millStop)
      ((vget c.2.active.bank.stands k).elim 0 (·.tNo)))
    (fun k s => by unfold resetHandover; split <;> simp) (fun k j s => resetHandover_seq k j s) j s

theorem eachStand_placeAtReset_seq (j : Stand) (s : State) :
    (eachStand placeAtReset s).seq j =
      (s.seq j).placedAtReset (s.inSet j) (s.openCover j) s.millStopExists (s.tNo j) :=
  eachStand_view (fun j s => s.seq j) (fun s => (s.tmx, s.sch)) placeAtReset
    (fun c k q => q.placedAtReset ((c.2.active.bank.mill.elim [] (·.activeSet)).contains k)
      (c.1.table.any fun r => r.action.openClass && r.covers k) (c.1.table.any fun r => r.action == .millStop)
      ((vget c.2.active.bank.stands k).elim 0 (·.tNo)))
    (fun k s => by obtain ⟨-, e⟩ | ⟨-, e⟩ := placeAtReset_cases k s <;> simp [e]) (fun k j s => placeAtReset_seq k j s) j s

theorem unhanded_standing (q : SeqRecord) (inSet cover millStop : Bool) (tNo : Nat) :
    (q.unhanded inSet cover millStop tNo).state = q.handover.elim q.state (fun h => unconfirmedState h inSet cover) ∧
      (q.unhanded inSet cover millStop tNo).handover = none ∧
      (q.unhanded inSet cover millStop tNo).localReq = if q.handover = none then q.localReq else false := by
  unfold SeqRecord.unhanded
  cases hho : q.handover with
  | none => exact ⟨rfl, hho, rfl⟩
  | some h =>
    obtain ⟨hstate, -, hhandover, -, hreq⟩ :=
      evalDemand_record_keeps (q.released.enter (unconfirmedState h inSet cover)) millStop tNo
    exact ⟨hstate, hhandover, hreq⟩

/-- Where the placement puts a stand (R137). -/
theorem placedAtReset_standing (q : SeqRecord) (inSet cover millStop : Bool) (tNo : Nat) :
    (q.placedAtReset inSet cover millStop tNo).state = swapState inSet cover q.state ∧
      (q.placedAtReset inSet cover millStop tNo).handover = q.handover ∧
      (q.placedAtReset inSet cover millStop tNo).localReq = q.localReq := by
  unfold SeqRecord.placedAtReset swapState
  split
  next h =>
    refine ⟨?_, rfl, rfl⟩
    split
    · rfl
    next hfree =>
      obtain e | e | e | e := h
      · exact absurd (.inl e) hfree
      · exact absurd (.inr (.inr e)) hfree
      · exact absurd (.inr (.inl e)) hfree
      · exact e
  next h =>
    obtain ⟨hstate, -, hhandover, -, hreq⟩ := evalDemand_record_keeps (q.enter (placement inSet cover)) millStop tNo
    rw [if_neg fun e => h (e.elim .inl fun e => e.elim (fun e => .inr (.inr (.inl e))) fun e => .inr (.inl e))]
    exact ⟨hstate, hhandover, hreq⟩

/-- What the soft reset of the sequencer leaves of a stand (R137). -/
theorem resetStands_standing (k : Stand) (s : State) :
    ((resetStands s).seq k).state = swapState (s.inSet k) (s.openCover k)
        ((s.seq k).handover.elim (s.seq k).state fun h => unconfirmedState h (s.inSet k) (s.openCover k)) ∧
      ((resetStands s).seq k).handover = none ∧
      ((resetStands s).seq k).localReq = if (s.seq k).handover = none then (s.seq k).localReq else false := by
  have hkept := eachStand_keeps (fun t : State => (t.tmx, t.sch)) resetHandover
    (fun k t => by unfold resetHandover; split <;> simp) s
  obtain ⟨htmx, hsch⟩ := Prod.mk.inj hkept
  have hstanding : (resetStands s).standing = (eachStand placeAtReset (eachStand resetHandover s)).standing := by
    have hnotices (t : State) : (eachStand standNotice t).standing = t.standing := standing_congr (by simp)
    unfold resetStands
    dsimp only
    rw [evalScopes_standing, hnotices, eachStand_evalDemand_standing]
  obtain ⟨est, eho, ereq, -⟩ := standing_iff.mp (congrFun hstanding k)
  rw [eachStand_placeAtReset_seq] at est eho ereq
  have hcover : (eachStand resetHandover s).openCover k = s.openCover k := by rw [State.openCover, State.openCover, htmx]
  obtain ⟨pst, pho, preq⟩ := placedAtReset_standing ((eachStand resetHandover s).seq k) ((eachStand resetHandover s).inSet k)
    ((eachStand resetHandover s).openCover k) (eachStand resetHandover s).millStopExists ((eachStand resetHandover s).tNo k)
  obtain ⟨ust, uho, ureq⟩ := unhanded_standing (s.seq k) (s.inSet k) (s.openCover k) s.millStopExists (s.tNo k)
  rw [est, eho, ereq, pst, pho, preq, eachStand_resetHandover_seq, inSet_congr (congrArg ScheduleStore.active hsch), hcover]
  exact ⟨by rw [ust], uho, ureq⟩

/-- The soft reset leaves no stand in THREAD, ROLL, TAIL or READY but by no placement (R137). -/
theorem swapState_settled (inSet cover : Bool) (st : StandState) :
    swapState inSet cover st ≠ .ready ∧ (swapState inSet cover st).threaded = false := by
  unfold swapState placement
  cases st <;> cases inSet <;> cases cover <;> decide

/-! ## Notices of the trip table, the states and the mill -/

/-- The sources that the trip matrix, the states and the mill update (R180). -/
def NoticeSource.ofStates : NoticeSource → Bool
  | .trip _ => true
  | .standState _ => true
  | .millState => true
  | _ => false

/-- A property of the report queue that the notices of the trip table, the states and the mill keep. -/
structure Unstirred (P : State → Prop) : Prop where
  same (s : State) {t : State} : t.hlk.mask = s.hlk.mask → t.hlk.queue = s.hlk.queue → P s → P t
  note (b : NoticeBody) {s : State} : b.source.ofStates = true → P s → P (updateNotice b s)

section
variable {P : State → Prop} (hP : Unstirred P) {s : State}
include hP

theorem Unstirred.tripNotice (key : Key) (h : P s) : P (tripNotice key s) := by
  unfold Machine.tripNotice
  split
  · exact hP.note _ rfl h
  · exact h

theorem Unstirred.standNotice (k : Stand) (h : P s) : P (standNotice k s) := hP.note _ rfl h

theorem Unstirred.evalFrozen (k : Stand) (h : P s) : P (evalFrozen k s) := by
  unfold Machine.evalFrozen
  split
  · exact h
  · exact hP.standNotice k (hP.same s rfl rfl h)

theorem Unstirred.evalDemand (k : Stand) (h : P s) : P (evalDemand k s) := hP.same s (by simp) (by simp) h

theorem Unstirred.removeRecord (r : TripRecord) (h : P s) : P (removeRecord r s) := by
  have hfrozen := eachStand_inv P Machine.evalFrozen (fun k t ht => hP.evalFrozen k ht)
    (evalStopLine (s.withTmx { s.tmx with table := s.tmx.table.filter fun q => !(q.key == r.key) })) (hP.same s rfl rfl h)
  exact hP.note _ rfl (eachStand_inv P Machine.evalDemand (fun k t ht => hP.evalDemand k ht) _ hfrozen)

theorem Unstirred.goneKey (key : Key) (h : P s) : P (goneKey key s) := by
  obtain ⟨-, e⟩ | ⟨r, -, ⟨-, e⟩ | ⟨-, e⟩ | ⟨-, e⟩⟩ := goneKey_cases key s <;> rw [e]
  · exact h
  · exact hP.tripNotice key (hP.same s rfl rfl h)
  · exact hP.removeRecord r h
  · exact h

theorem Unstirred.evalScopes (h : P s) : P (evalScopes s) := by
  unfold Machine.evalScopes
  refine foldl_inv (P := P) (fun t key => goneOutOfScope key t) (fun key {t} ht => ?_) _ (hP.same s rfl rfl h)
  unfold goneOutOfScope
  split
  · exact hP.goneKey key ht
  · exact ht

theorem Unstirred.setMill (m : MillState) (h : P s) : P (setMill m s) :=
  hP.evalScopes (hP.note _ rfl (hP.same s rfl rfl h))

/-- A creation that finds no pending handover notices the table and the states alone (R157). -/
theorem Unstirred.handCreation (r : TripRecord) (hho : ∀ k, (s.seq k).handover = none) (h : P s) :
    P (handCreation r s) := by
  have hopened (r : TripRecord) (t : State) (ht : (∀ k, (t.seq k).handover = none) ∧ P t) (k : Stand) :
      (∀ j, ((openCovered r k t).seq j).handover = none) ∧ P (openCovered r k t) := by
    unfold openCovered
    split
    · refine ⟨fun j => ?_, ?_⟩
      · rw [openCreationAt_seq]
        split
        · unfold SeqRecord.opened
          split
          · exact (evalDemand_record_keeps _ _ _).2.2.1.trans (ht.1 k)
          · split
            · rw [ht.1 k]
              exact ht.1 k
            · exact ht.1 k
        · exact ht.1 j
      · have htrip : P (enterTripped k t) := hP.standNotice k (hP.same t (by simp) (by simp) ht.2)
        have habort : abortHandover k t = t := by
          unfold abortHandover
          rw [ht.1 k]
        unfold openCreationAt
        split <;> first | exact htrip | exact ht.2 | (rw [habort]; exact ht.2)
    · exact ht
  have hall (r : TripRecord) (t : State) (hpending : ∀ k, (t.seq k).handover = none) (ht : P t) :
      (∀ k, ((eachStand (openCovered r) t).seq k).handover = none) ∧ P (eachStand (openCovered r) t) :=
    eachStand_inv (fun t => (∀ k, (t.seq k).handover = none) ∧ P t) (openCovered r) (fun k t ht => hopened r t ht k) t ⟨hpending, ht⟩
  have hfollow (t : State) (ht : P t) : P (eachStand Machine.evalDemand (eachStand Machine.evalFrozen t)) :=
    eachStand_inv P Machine.evalDemand (fun k u hu => hP.evalDemand k hu) _
      (eachStand_inv P Machine.evalFrozen (fun k u hu => hP.evalFrozen k hu) t ht)
  unfold Machine.handCreation
  refine hfollow _ ?_
  have hbase : P (evalStopLine s) := hP.same s rfl rfl h
  split
  · exact (hall r (evalStopLine s) hho hbase).2
  · exact hbase

theorem Unstirred.handed (key : Key) (hho : ∀ k, (s.seq k).handover = none) (h : P s) : P (handed key s) :=
  hP.handCreation _ hho (hP.same s rfl rfl h)

/-- A momentary condition outside TAILOUT that finds no pending handover (R138). -/
theorem Unstirred.pulseKey (key : Key) (hmill : s.stk.mill ≠ .tailout) (hho : ∀ k, (s.seq k).handover = none) (h : P s) :
    P (pulseKey key s) := by
  unfold Machine.pulseKey
  refine hP.goneKey key ?_
  cases hr : s.recordOf key with
  | none =>
    rw [raiseKey_of_none false hr, createRecord_outside hmill]
    exact hP.evalScopes (hP.tripNotice key (hP.handed key hho h))
  | some r =>
    unfold raiseKey
    rw [hr]
    dsimp only
    split
    · exact hP.tripNotice key (hP.same s rfl rfl h)
    · exact h
    · exact h

/-- The soft reset of the sequencer once the handovers have ended (R137). -/
theorem Unstirred.resetStands (h : P (eachStand resetHandover s)) : P (resetStands s) := by
  have hplace := eachStand_inv P placeAtReset (fun k t ht => by
    obtain ⟨-, e⟩ | ⟨-, e⟩ := placeAtReset_cases k t <;> rw [e]
    · exact ht
    · exact hP.same t (by simp) (by simp) ht) _ h
  have hdemand := eachStand_inv P Machine.evalDemand (fun k t ht => hP.evalDemand k ht) _ hplace
  exact hP.evalScopes (eachStand_inv P Machine.standNotice (fun k t ht => hP.standNotice k ht) _ hdemand)

end

/-- No notice of the source waits in the queue. -/
def Silent (src : NoticeSource) (s : State) : Prop := ∀ n ∈ s.hlk.queue, n.body.source ≠ src

theorem silent_updateNotice {src : NoticeSource} (b : NoticeBody) (hne : b.source ≠ src) {s : State} (h : Silent src s) :
    Silent src (updateNotice b s) := by
  obtain ⟨-, e⟩ | ⟨-, e⟩ := updateNotice_cases b s <;> rw [e]
  · intro n hn hsrc
    exact h n ((enterNotice_other _ _ n fun e => hne (e.symm.trans hsrc)).mp hn) hsrc
  · exact h

theorem unstirred_silent {src : NoticeSource} (hsrc : src.ofStates = false) : Unstirred (Silent src) where
  same s t _ hqueue h := by
    unfold Silent
    rw [hqueue]
    exact h
  note b {_} hb h := silent_updateNotice b (fun e => by rw [e, hsrc] at hb; contradiction) h

theorem unstirred_noticed {b : NoticeBody} (hb : b.source.ofStates = false) : Unstirred (Noticed b) where
  same s t hmask hqueue h := h.congr hmask hqueue
  note c {_} hc h := noticed_other c (fun e => by rw [← e, hb] at hc; contradiction) h

theorem Silent.resetHandovers {src : NoticeSource} (hsrc : ∀ k, src ≠ .handoverDone k) {s : State} (h : Silent src s) :
    Silent src (eachStand resetHandover s) := by
  refine eachStand_inv (Silent src) resetHandover (fun k t ht => ?_) s h
  unfold resetHandover
  split
  next ho _ =>
    refine silent_updateNotice _ (fun e => hsrc k e.symm) ?_
    unfold Silent at ht ⊢
    simpa using ht
  next => exact ht

/-- The end of a handover by the soft reset is noticed (R131, R137). -/
theorem noticed_resetHandovers {s : State} {k : Stand} {h : Handover} (hpending : (s.seq k).handover = some h) :
    Noticed (.handoverDone k h.dir .abortedReset) (eachStand resetHandover s) := by
  obtain ⟨hsplit, -, hbefore, hafter⟩ := allStands_split k
  have hother (l : List Stand) (hl : k ∉ l) (t : State) : (l.foldl (fun s j => resetHandover j s) t).seq k = t.seq k := by
    induction l generalizing t with
    | nil => rfl
    | cons j rest ih =>
      obtain ⟨hne, hrest⟩ := List.ne_and_not_mem_of_not_mem_cons hl
      refine (ih hrest _).trans ?_
      rw [resetHandover_seq, if_neg hne]
  have hkeeps (l : List Stand) (hl : k ∉ l) (t : State) (ht : Noticed (.handoverDone k h.dir .abortedReset) t) :
      Noticed (.handoverDone k h.dir .abortedReset) (l.foldl (fun s j => resetHandover j s) t) := by
    induction l generalizing t with
    | nil => exact ht
    | cons j rest ih =>
      obtain ⟨hne, hrest⟩ := List.ne_and_not_mem_of_not_mem_cons hl
      refine ih hrest (resetHandover j t) ?_
      unfold resetHandover
      split
      · exact noticed_other _ (fun e => hne (NoticeSource.handoverDone.inj e)) (ht.congr (by simp) (by simp))
      · exact ht
  unfold eachStand
  rw [hsplit, List.foldl_append, List.foldl_cons]
  have hself := hother _ hbefore s
  generalize (allStands.take k.val).foldl (fun s k => resetHandover k s) s = u at hself
  refine hkeeps _ hafter _ ?_
  unfold resetHandover
  rw [hself, hpending]
  exact noticed_updateNotice _ _ fun old => by cases old <;> rfl

end Sys2Proof.Machine
end

section
/-! PROOFS. The field-out line and the gap records under the soft reset (R112, R122, R137). -/

namespace Sys2Proof.Machine

theorem evalScopes_outward (s : State) : (evalScopes s).outward = s.outward := by simp [State.outward]

theorem tripNotice_outward (key : Key) (s : State) : (tripNotice key s).outward = s.outward := by simp [State.outward]

theorem goneKey_outward (key : Key) (s : State) : (goneKey key s).outward = s.outward := by simp [State.outward]

theorem updateNotice_outward (b : NoticeBody) (s : State) : (updateNotice b s).outward = s.outward := by simp [State.outward]

theorem eachStand_evalDemand_outward (s : State) : (eachStand evalDemand s).outward = s.outward := by simp [State.outward]

theorem eachStand_evalFrozen_outward (s : State) : (eachStand evalFrozen s).outward = s.outward := by simp [State.outward]

theorem eachStand_standNotice_outward (s : State) : (eachStand standNotice s).outward = s.outward := by simp [State.outward]

theorem leaveHandover_outward (k : Stand) (st : StandState) (s : State) :
    (leaveHandover k st s).outward = if st = .tripped then (tripStand k s).outward else s.outward := by
  unfold leaveHandover
  split
  next h =>
    subst h
    exact tripStand_modSeq k (fun q => { q with handover := none, localReq := false }) (fun _ => rfl) s
  next h => exact (enterState_outward h _).trans rfl

/-- The stands whose pending handover ends in TRIPPED (R132). -/
def endsOpen (s : State) (k : Stand) : Prop :=
  ∃ h, (s.seq k).handover = some h ∧ unconfirmedState h (s.inSet k) (s.openCover k) = .tripped

theorem resetHandover_outward (k : Stand) (s : State) :
    (endsOpen s k → (resetHandover k s).outward = (tripStand k s).outward) ∧
      (¬endsOpen s k → (resetHandover k s).outward = s.outward) := by
  unfold resetHandover endsOpen
  cases (s.seq k).handover with
  | none => exact ⟨fun ⟨_, h, _⟩ => (nomatch h), fun _ => rfl⟩
  | some ho =>
    dsimp only
    rw [updateNotice_outward, leaveHandover_outward]
    refine ⟨fun ⟨h, hh, htripped⟩ => ?_, fun hnot => if_neg fun e => hnot ⟨ho, rfl, e⟩⟩
    obtain rfl := Option.some.inj hh
    exact if_pos htripped

theorem resetHandover_pass (v : State) : OpeningPass resetHandover (endsOpen v) v := by
  have hsame {k : Stand} {t : State} (hseq : t.seq k = v.seq k) (htmx : t.tmx = v.tmx) (hsch : t.sch = v.sch) :
      endsOpen t k ↔ endsOpen v k := by
    unfold endsOpen
    rw [hseq, inSet_congr (congrArg ScheduleStore.active hsch), openCover_congr htmx]
  exact {
    other := fun j k t hj => by rw [resetHandover_seq, if_neg hj]
    tmx := fun k t => by unfold resetHandover; split <;> simp
    opening := fun k t hseq htmx hsch hopens => (resetHandover_outward k t).1 ((hsame hseq htmx hsch).mpr hopens)
    quiet := fun k t hseq htmx hsch hopens =>
      (resetHandover_outward k t).2 fun h => hopens ((hsame hseq htmx hsch).mp h) }

theorem placeAtReset_pass (v : State) : OpeningPass placeAtReset (swapOpens v) v where
  other j k t hj := by rw [placeAtReset_seq, if_neg hj]
  tmx k t := by obtain ⟨-, e⟩ | ⟨-, e⟩ := placeAtReset_cases k t <;> simp [e]
  opening k t hseq htmx hsch hopens := by
    obtain ⟨hnot, hst⟩ := hopens
    unfold swapState at hst
    split at hst
    · exact absurd hst hnot
    next hfree =>
      obtain ⟨hkept, -⟩ | ⟨-, e⟩ := placeAtReset_cases k t
      · rw [hseq, inSet_congr (congrArg ScheduleStore.active hsch), openCover_congr htmx, hst] at hkept
        tauto
      · rw [inSet_congr (congrArg ScheduleStore.active hsch), openCover_congr htmx, hst] at e
        rw [e]
        rfl
  quiet k t hseq htmx hsch hopens := by
    obtain ⟨-, e⟩ | ⟨hfree, e⟩ := placeAtReset_cases k t
    · rw [e]
    · rw [hseq, inSet_congr (congrArg ScheduleStore.active hsch), openCover_congr htmx] at hfree
      rw [e, inSet_congr (congrArg ScheduleStore.active hsch), openCover_congr htmx]
      refine enterState_outward (fun hst => hopens ⟨fun h => hfree (.inr (.inl h)), ?_⟩) t
      unfold swapState
      rw [if_neg (by tauto), hst]

/-- The stands that a creation opens, where no handover is pending (R122). -/
def creationOpens (r : TripRecord) (s : State) (k : Stand) : Prop :=
  r.action.openClass = true ∧ r.covers k = true ∧ (s.seq k).state.inPass = true

theorem openCreationAt_outward {k : Stand} {s : State} (hho : (s.seq k).handover = none) :
    (openCreationAt k s).outward =
      if (s.seq k).state.inPass = true then (tripStand k s).outward else s.outward := by
  have htrip : (enterTripped k s).outward = (tripStand k s).outward := standNotice_outward k _
  have habort : abortHandover k s = s := by
    unfold abortHandover
    rw [hho]
  unfold openCreationAt
  cases (s.seq k).state with
  | handover => exact congrArg State.outward habort
  | setup => exact htrip
  | ready => exact htrip
  | thread => exact htrip
  | roll => exact htrip
  | tail => exact htrip
  | tripped => rfl
  | out => rfl
  | local_ => rfl

theorem openCovered_pass (r : TripRecord) {v : State} (hopen : r.action.openClass = true) (hho : ∀ k, (v.seq k).handover = none) :
    OpeningPass (openCovered r) (creationOpens r v) v where
  other j k t hj := openCovered_other hj t
  tmx k t := by unfold openCovered; split <;> simp
  opening k t hseq _ _ hopens := by
    unfold openCovered
    rw [if_pos hopens.2.1, openCreationAt_outward (by rw [hseq]; exact hho k), hseq, if_pos hopens.2.2]
  quiet k t hseq _ _ hopens := by
    unfold openCovered
    split
    next hcovers =>
      rw [openCreationAt_outward (by rw [hseq]; exact hho k), hseq, if_neg fun h => hopens ⟨hopen, hcovers, h⟩]
    next => rfl

/-- A pass over every stand. -/
theorem Openings.each {f : Stand → State → State} {opens opened : Stand → Prop} {s t : State} (hf : OpeningPass f opens t)
    (hthread : ∀ k, opens k → (t.seq k).state = .thread → (s.seq k).state = .thread)
    (hfresh : ∀ k, opens k → ¬opened k) (h : Openings opened s t) :
    Openings (fun j => opened j ∨ opens j) s (eachStand f t) := by
  unfold eachStand
  exact (h.pass hf hthread h.sch allStands allStands_nodup (fun _ _ => rfl) rfl fun k _ => hfresh k).of_iff fun k => by
    simp [mem_allStands]

/-- A handover returns no stand to THREAD that the placement would open (R132, R137). -/
theorem unconfirmedState_thread {h : Handover} {inSet cover : Bool} (hthread : unconfirmedState h inSet cover = .thread) :
    swapState inSet cover .thread = .setup := by
  unfold unconfirmedState at hthread
  split at hthread
  · unfold returnState at hthread
    split at hthread
    · contradiction
    · cases inSet with
      | false => contradiction
      | true =>
        cases cover with
        | true => contradiction
        | false => rfl
  · contradiction

/-- The soft reset of the sequencer opens each stand once, by the end of its handover or by its placement (R137). -/
theorem resetStands_openings (s : State) :
    Openings (fun k => endsOpen s k ∨ swapOpens (eachStand resetHandover s) k) s (resetStands s) := by
  have hkept := eachStand_keeps (fun t : State => (t.tmx, t.sch)) resetHandover
    (fun k t => by unfold resetHandover; split <;> simp) s
  obtain ⟨htmx, hsch⟩ := Prod.mk.inj hkept
  have hended := ((Openings.refl s).each (resetHandover_pass s) (fun _ _ h => h) fun _ _ => not_false).of_iff
    fun k => iff_of_eq (false_or (endsOpen s k))
  have hstate (k : Stand) : ((eachStand resetHandover s).seq k).state =
      (s.seq k).handover.elim (s.seq k).state fun h => unconfirmedState h (s.inSet k) (s.openCover k) := by
    rw [eachStand_resetHandover_seq]
    exact (unhanded_standing _ _ _ _ _).1
  have hplaced := hended.each (placeAtReset_pass (eachStand resetHandover s)) (fun k hopens hthread => ?_) fun k hopens hend => ?_
  · refine hplaced.outward_congr ?_
    unfold resetStands
    dsimp only
    rw [evalScopes_outward, eachStand_standNotice_outward, eachStand_evalDemand_outward]
  · obtain ⟨-, hst⟩ := hopens
    rw [hthread, inSet_congr (congrArg ScheduleStore.active hsch), openCover_congr htmx] at hst
    rw [hstate] at hthread
    cases hho : (s.seq k).handover with
    | none => rwa [hho] at hthread
    | some h =>
      rw [hho] at hthread
      exact nomatch (unconfirmedState_thread hthread).symm.trans hst
  · obtain ⟨h, hho, htripped⟩ := hend
    refine hopens.1 ?_
    rw [hstate, hho]
    exact htripped

/-- A creation outside TAILOUT, where no handover is pending and no stand is in THREAD (R122, R157). -/
theorem createRecord_openings {opened : Stand → Prop} {key : Key} {s t : State} (hmill : t.stk.mill ≠ .tailout)
    (hho : ∀ k, (t.seq k).handover = none) (hthread : ∀ k, (t.seq k).state ≠ .thread)
    (hfresh : ∀ k, (t.seq k).state.inPass = true → ¬opened k) (h : Openings opened s t) :
    Openings (fun k => opened k ∨ creationOpens (newRecord key t) t k) s (createRecord false key t) := by
  rw [createRecord_outside hmill]
  refine Openings.outward_congr ((evalScopes_outward _).trans (tripNotice_outward _ _)) ?_
  unfold handed handCreation
  dsimp only
  refine Openings.outward_congr ((eachStand_evalDemand_outward _).trans (eachStand_evalFrozen_outward _)) ?_
  have hstart : Openings opened s (evalStopLine (t.withTmx { t.tmx with table := t.tmx.table ++ [newRecord key t] })) :=
    Openings.outward_congr (t := t) rfl h
  split
  next hopen =>
    have hpass := openCovered_pass (newRecord key t)
      (v := evalStopLine (t.withTmx { t.tmx with table := t.tmx.table ++ [newRecord key t] })) hopen hho
    exact hstart.each hpass (fun k _ e => absurd e (hthread k)) fun k hopens => hfresh k hopens.2.2
  next hclosed => exact hstart.of_iff fun k => ⟨.inl, fun e => e.resolve_right fun hopens => hclosed hopens.1⟩

end Sys2Proof.Machine
end

section
/-! PROOFS. The request RESET: O5. -/

namespace Sys2Proof.Machine

/-! ## What the soft reset leaves as it is -/

/-- The host link's settings, its receiver, the clock and the channels together. -/
def State.settings (s : State) : (BitVec 6 × Vector Stream 4 × Vector AuxPin 2 × RxAssembler × BitVec 2) × BitVec 32 × Vector Channel 32 :=
  ((s.hlk.mask, s.hlk.streams, s.hlk.aux, s.hlk.rx, s.hlk.straps), s.ms, s.mch)

theorem resetStands_settings (s : State) : (resetStands s).settings = s.settings := by
  have hhandover := eachStand_keeps State.settings resetHandover (fun k t => by
    unfold resetHandover
    split <;> simp [State.settings]) s
  have hplace := eachStand_keeps State.settings placeAtReset (fun k t => by
    obtain ⟨-, e⟩ | ⟨-, e⟩ := placeAtReset_cases k t <;> simp [e, State.settings]) (eachStand resetHandover s)
  refine Eq.trans ?_ (hplace.trans hhandover)
  simp [resetStands, State.settings]

theorem softReset_settings (s : State) : (softReset s).settings = s.settings := by
  have hpulse (t : State) : (pulseKey .resetStop t).settings = t.settings := by simp [State.settings]
  have htracker (t : State) : (resetTracker t).settings = t.settings := by simp [State.settings, resetTracker]
  unfold softReset
  rw [hpulse, htracker, resetStands_settings]
  rfl

/-- A momentary condition outside TAILOUT leaves the tracker, the lengths and the banks (R157). -/
theorem pulseKey_outside (key : Key) {s : State} (hmill : s.stk.mill ≠ .tailout) :
    (pulseKey key s).stk = s.stk ∧ (pulseKey key s).plu = s.plu ∧ (pulseKey key s).sch = s.sch := by
  have hgone (t : State) : (goneKey key t).stk = t.stk ∧ (goneKey key t).plu = t.plu ∧ (goneKey key t).sch = t.sch := by simp
  unfold pulseKey
  rw [(hgone _).1, (hgone _).2.1, (hgone _).2.2]
  cases hr : s.recordOf key with
  | none =>
    rw [raiseKey_of_none false hr, createRecord_outside hmill]
    simp [handed]
  | some r =>
    unfold raiseKey
    rw [hr]
    dsimp only
    split <;> simp [State.modRecord]

/-- The soft reset before the RESET_STOP record (R177). -/
def resetQuiet (s : State) : State := resetTracker (resetStands (resetStart s))

theorem softReset_eq (s : State) : softReset s = pulseKey .resetStop (resetQuiet s) := rfl

theorem resetQuiet_blocks (s : State) :
    (resetQuiet s).stk = { Tracker.cleared with coil := s.stk.coil, nextSeg := s.stk.nextSeg, lastAlloc := s.stk.lastAlloc } ∧
      (resetQuiet s).plu =
        { s.plu with
          acc := Vector.replicate 8 0
          pres := vtab fun k => { state := (s.presence k).state, measurer := 0 } } ∧
      (resetQuiet s).sch = s.sch := by
  obtain ⟨hplu, hstk, hsch⟩ := resetStands_keeps (resetStart s)
  unfold resetQuiet resetTracker
  refine ⟨?_, ?_, ?_⟩
  · rw [setMill_mill]
    change { (resetStands (resetStart s)).stk.softReset with mill := .idle } = _
    rw [hstk]
    rfl
  · refine Eq.trans (by simp) (hplu.trans rfl)
  · refine Eq.trans (by simp) (hsch.trans rfl)

theorem resetQuiet_mill (s : State) : (resetQuiet s).stk.mill ≠ .tailout := by
  rw [(resetQuiet_blocks s).1]
  exact (fun h => nomatch h)

theorem softReset_blocks (s : State) :
    (softReset s).stk = { Tracker.cleared with coil := s.stk.coil, nextSeg := s.stk.nextSeg, lastAlloc := s.stk.lastAlloc } ∧
      (softReset s).plu =
        { s.plu with
          acc := Vector.replicate 8 0
          pres := vtab fun k => { state := (s.presence k).state, measurer := 0 } } ∧
      (softReset s).sch = s.sch := by
  obtain ⟨hstk, hplu, hsch⟩ := pulseKey_outside .resetStop (resetQuiet_mill s)
  obtain ⟨qstk, qplu, qsch⟩ := resetQuiet_blocks s
  exact ⟨hstk.trans qstk, hplu.trans qplu, hsch.trans qsch⟩

/-! ## The persistence counters (R164) -/

/-- Every persistence counter is 0. -/
def ZeroCounts (s : State) : Prop := ∀ k, vget s.tmx.forceCnt k = 0 ∧ vget s.tmx.gapCnt k = 0

theorem zeroCounts_evalScopes {s : State} (h : ZeroCounts s) : ZeroCounts (evalScopes s) := fun k => by
  obtain ⟨hforce, hgap⟩ := evalScopes_counts s
  rw [hforce, hgap, clearCounters_force, clearCounters_gap, (h k).1, (h k).2, ite_self, ite_self]
  exact ⟨rfl, rfl⟩

theorem ZeroCounts.congr {s t : State} (hforce : t.tmx.forceCnt = s.tmx.forceCnt) (hgap : t.tmx.gapCnt = s.tmx.gapCnt)
    (h : ZeroCounts s) : ZeroCounts t := fun k => by
  rw [hforce, hgap]
  exact h k

theorem zeroCounts_pulseKey (key : Key) {s : State} (hmill : s.stk.mill ≠ .tailout) (h : ZeroCounts s) :
    ZeroCounts (pulseKey key s) := by
  refine ZeroCounts.congr (goneKey_counts key _).1 (goneKey_counts key _).2 ?_
  cases hr : s.recordOf key with
  | none =>
    rw [raiseKey_of_none false hr, createRecord_outside hmill]
    refine zeroCounts_evalScopes (h.congr ?_ ?_) <;> rw [tripNotice_tmx, handed, handCreation_tmx] <;> rfl
  | some r =>
    unfold raiseKey
    rw [hr]
    dsimp only
    split
    · refine h.congr ?_ ?_ <;> rw [tripNotice_tmx] <;> rfl
    · exact h
    · exact h

theorem zeroCounts_softReset (s : State) : ZeroCounts (softReset s) := by
  have htmx : (eachStand placeAtReset (eachStand resetHandover (resetStart s))).tmx = (resetStart s).tmx := by
    refine (eachStand_keeps State.tmx placeAtReset (fun k t => ?_) _).trans
      (eachStand_keeps State.tmx resetHandover (fun k t => ?_) _)
    · obtain ⟨-, e⟩ | ⟨-, e⟩ := placeAtReset_cases k t <;> simp [e]
    · unfold resetHandover
      split <;> simp
  have hstart : ZeroCounts (resetStart s) := fun k => ⟨vget_replicate _ k, vget_replicate _ k⟩
  have hstands : ZeroCounts (resetStands (resetStart s)) := by
    unfold resetStands
    refine zeroCounts_evalScopes (hstart.congr ?_ ?_) <;> rw [← htmx] <;> simp
  have hquiet : ZeroCounts (resetQuiet s) := by
    unfold resetQuiet resetTracker setMill
    refine zeroCounts_evalScopes (hstands.congr ?_ ?_) <;> simp
  exact zeroCounts_pulseKey .resetStop (resetQuiet_mill s) hquiet

/-! ## The stands and the line (R122, R137) -/

/-- The stands that a momentary condition opens, where no handover is pending (R122). -/
def pulseOpens (key : Key) (s : State) (k : Stand) : Prop :=
  s.recordOf key = none ∧ creationOpens (newRecord key s) s k

theorem opened_standing {q : SeqRecord} (hho : q.handover = none) (taken inSet millStop : Bool) (tNo : Nat) :
    (if taken then q.opened inSet millStop tNo else q).state = (if taken && q.state.inPass then .tripped else q.state) ∧
      (if taken then q.opened inSet millStop tNo else q).handover = none ∧
      (if taken then q.opened inSet millStop tNo else q).localReq = q.localReq := by
  cases taken with
  | false => exact ⟨rfl, hho, rfl⟩
  | true =>
    unfold SeqRecord.opened
    rw [if_pos rfl, hho]
    cases hpass : q.state.inPass with
    | false => simp [hho]
    | true =>
      obtain ⟨hstate, -, hhandover, -, hreq⟩ := evalDemand_record_keeps (q.enter .tripped) millStop tNo
      exact ⟨hstate, hhandover.trans hho, hreq⟩

section
variable {key : Key} {s : State} (hmill : s.stk.mill ≠ .tailout) (hho : ∀ k, (s.seq k).handover = none)
include hmill hho

/-- The stands after a momentary condition that finds no pending handover (R122). -/
theorem pulseKey_standing (k : Stand) :
    (pulseOpens key s k → ((pulseKey key s).seq k).state = .tripped) ∧
      (¬pulseOpens key s k → ((pulseKey key s).seq k).state = (s.seq k).state) ∧
      ((pulseKey key s).seq k).handover = none ∧ ((pulseKey key s).seq k).localReq = (s.seq k).localReq := by
  obtain ⟨gst, gho, greq, -⟩ := standing_iff.mp (congrFun (goneKey_standing key (raiseKey false key s)) k)
  unfold pulseKey
  rw [gst, gho, greq]
  cases hr : s.recordOf key with
  | some r =>
    rw [seq_congr (raiseKey_of_record false hr).1]
    exact ⟨fun h => (nomatch hr.symm.trans h.1), fun _ => rfl, hho k, rfl⟩
  | none =>
    have hstanding : (raiseKey false key s).standing k = (handed key s).standing k := by
      rw [raiseKey_of_none false hr, createRecord_outside hmill, evalScopes_standing, tripNotice_standing]
    obtain ⟨hst, hhandover, hreq, -⟩ := standing_iff.mp hstanding
    have hseq : (handed key s).seq k = _ :=
      handCreation_seq (newRecord key s) k (s.withTmx { s.tmx with table := s.tmx.table ++ [newRecord key s] })
    obtain ⟨dst, -, dho, -, dreq⟩ := evalDemand_record_keeps
      ({ (if (newRecord key s).action.openClass && (newRecord key s).covers k then
          (s.seq k).opened (s.inSet k) (s.withTmx { s.tmx with table := s.tmx.table ++ [newRecord key s] }).millStopExists (s.tNo k)
        else s.seq k) with
        frozen := (s.withTmx { s.tmx with table := s.tmx.table ++ [newRecord key s] }).freezeCover k } : SeqRecord)
      (s.withTmx { s.tmx with table := s.tmx.table ++ [newRecord key s] }).millStopExists (s.tNo k)
    obtain ⟨ost, oho, oreq⟩ := opened_standing (hho k) ((newRecord key s).action.openClass && (newRecord key s).covers k)
      (s.inSet k) (s.withTmx { s.tmx with table := s.tmx.table ++ [newRecord key s] }).millStopExists (s.tNo k)
    have hopens : pulseOpens key s k ↔
        ((newRecord key s).action.openClass && (newRecord key s).covers k && (s.seq k).state.inPass) = true := by
      simp [pulseOpens, creationOpens, hr, and_assoc]
    rw [hst, hhandover, hreq, hseq]
    refine ⟨fun h => (dst.trans ost).trans (if_pos (hopens.mp h)), fun h => (dst.trans ost).trans (if_neg (mt hopens.mpr h)),
      dho.trans oho, dreq.trans oreq⟩

/-- The line and the gap records after a momentary condition that finds no pending handover (R122). -/
theorem pulseKey_openings {opened : Stand → Prop} {b : State} (hthread : ∀ k, (s.seq k).state ≠ .thread)
    (hfresh : ∀ k, (s.seq k).state.inPass = true → ¬opened k) (h : Openings opened b s) :
    Openings (fun k => opened k ∨ pulseOpens key s k) b (pulseKey key s) := by
  unfold pulseKey
  refine Openings.outward_congr (goneKey_outward _ _) ?_
  cases hr : s.recordOf key with
  | none =>
    rw [raiseKey_of_none false hr]
    exact (createRecord_openings hmill hho hthread hfresh h).of_iff fun k => by simp [pulseOpens, hr]
  | some r =>
    have hsame : (raiseKey false key s).outward = s.outward := by
      unfold raiseKey
      rw [hr]
      dsimp only
      split
      · exact tripNotice_outward _ _
      · rfl
      · rfl
    exact (h.outward_congr hsame).of_iff fun k => by simp [pulseOpens, hr]

end

end Sys2Proof.Machine
end

section
/-! PROOFS. The trip records under the soft reset (R139, R155), and O5. -/

namespace Sys2Proof.Machine

/-! ## The scopes under a reset -/

/-- Stands that stay as they are or enter TRIPPED bring no condition into its scope (R139). -/
theorem scopeHolds_mono {s t : State} (hmill : t.stk.mill.running = true → s.stk.mill.running = true)
    (hactive : t.sch.active = s.sch.active) (hpres : t.plu.pres = s.plu.pres)
    (hstand : ∀ k, (t.seq k).state = .tripped ∨ (t.seq k).state = (s.seq k).state ∧
      (t.gap k).windowRef = (s.gap k).windowRef ∧ (t.gap k).lastSent = (s.gap k).lastSent)
    {key : Key} (h : scopeHolds t key = true) : scopeHolds s key = true := by
  have hset : t.activeSet = s.activeSet := by simp only [State.activeSet, State.millRec, hactive]
  have hin : ∀ k, t.inSet k = s.inSet k := fun k => by simp only [State.inSet, hset]
  have hfirst : ∀ k, t.isFirst k = s.isFirst k := fun k => by simp only [State.isFirst, State.firstActive, hset]
  have hprev : ∀ k, t.prevActive k = s.prevActive k := fun k => by simp only [State.prevActive, hset]
  have hstrip : ∀ k, t.stripPresent k = s.stripPresent k := fun k => by
    have h : t.presence k = s.presence k := congrArg (fun p => vget p k) hpres
    rw [State.stripPresent, State.stripPresent, h]
  have hroll (k : Stand) (hk : (t.seq k).state = .roll) : (s.seq k).state = .roll := by
    obtain e | ⟨e, -⟩ := hstand k
    · exact nomatch hk.symm.trans e
    · exact e ▸ hk
  have hloop (k : Stand) (hk : loopScope k t = true) : loopScope k s = true := by
    unfold loopScope at hk ⊢
    rw [hin, hfirst, hprev] at hk
    cases hp : s.prevActive k with
    | none => simp [hp] at hk
    | some j =>
      simp only [hp, Option.elim, Bool.and_eq_true, beq_iff_eq] at hk ⊢
      exact ⟨⟨hk.1.1, hroll k hk.1.2⟩, hroll j hk.2⟩
  cases key with
  | exitStale => exact hmill h
  | resetStop => rfl
  | hostStop => rfl
  | stopInput n => rfl
  | stand c k =>
    cases c with
    | driveFault => rfl
    | unready => rfl
    | loopGrow => exact hloop k h
    | loopPull => exact hloop k h
    | forceHigh =>
      obtain e | ⟨e, -⟩ := hstand k
      · simp [scopeHolds, e, StandState.inPass] at h
      · simpa [scopeHolds, e] using h
    | gapWindow =>
      obtain e | ⟨e, hwindow, hlast⟩ := hstand k
      · simp [scopeHolds, e, StandState.inPass] at h
      · simpa [scopeHolds, e, hwindow, hlast] using h
    | sampleStale =>
      obtain e | ⟨e, -⟩ := hstand k
      · simp [scopeHolds, e, StandState.threaded] at h
      · simpa [scopeHolds, e] using h
    | headOverdue =>
      obtain e | ⟨e, -⟩ := hstand k
      · simp [scopeHolds, e] at h
      · simpa [scopeHolds, e, hin, hfirst, hstrip] using h

/-- The record of a key is as before where its scope holds, and else as after its gone (R139, R155). -/
def GoneTo (key : Key) (s t : State) : Prop :=
  t.recordOf key = if scopeHolds t key = false then (s.recordOf key).bind TripRecord.gone else s.recordOf key

theorem GoneTo.congr {key : Key} {s t u : State} (hrec : u.recordOf key = t.recordOf key) (hscope : scopeHolds u key = scopeHolds t key)
    (h : GoneTo key s t) : GoneTo key s u := by
  unfold GoneTo at h ⊢
  rw [hrec, hscope]
  exact h

/-- One more evaluation of the scopes, with the key in its scope only where it was (R139). -/
theorem GoneTo.evalScopes {key : Key} {s t u : State} (hrec : u.recordOf key = t.recordOf key)
    (hscope : scopeHolds u key = true → scopeHolds t key = true) (h : GoneTo key s t) : GoneTo key s (evalScopes u) := by
  unfold GoneTo at h ⊢
  rw [recordOf_evalScopes, scopeHolds_evalScopes, hrec, h]
  cases hu : scopeHolds u key with
  | true => simp [hscope hu]
  | false =>
    cases scopeHolds t key with
    | true => simp
    | false => simp [gone_gone]

theorem goneTo_resetStands (key : Key) (s : State) : GoneTo key s (resetStands s) := by
  have htable : (eachStand standNotice (eachStand evalDemand (eachStand placeAtReset (eachStand resetHandover s)))).tmx = s.tmx := by
    refine Eq.trans (by simp) ((eachStand_keeps State.tmx placeAtReset (fun k t => ?_) (eachStand resetHandover s)).trans
      (eachStand_keeps State.tmx resetHandover (fun k t => ?_) _))
    · obtain ⟨-, e⟩ | ⟨-, e⟩ := placeAtReset_cases k t <;> simp [e]
    · unfold resetHandover
      split <;> simp
  unfold GoneTo resetStands
  dsimp only
  rw [recordOf_evalScopes, scopeHolds_evalScopes, recordOf_congr (congrArg TripMatrix.table htable)]

theorem goneTo_resetQuiet (key : Key) (s : State) : GoneTo key s (resetQuiet s) := by
  have h : GoneTo key s (resetStands (resetStart s)) := goneTo_resetStands key (resetStart s)
  unfold resetQuiet resetTracker setMill
  refine h.evalScopes (recordOf_congr (by simp) key)
    (scopeHolds_mono (fun hrun => ?_) (by simp) (by simp) fun k => .inr ⟨by simp, by simp [State.gap], by simp [State.gap]⟩)
  simp [MillState.running] at hrun

/-- A momentary condition outside TAILOUT that finds no pending handover makes other records gone by their scopes (R139). -/
theorem goneTo_pulseKey {key key' : Key} (hne : key' ≠ key) {s t : State} (hmill : t.stk.mill ≠ .tailout)
    (hho : ∀ k, (t.seq k).handover = none) (hthread : ∀ k, (t.seq k).state ≠ .thread) (h : GoneTo key' s t) :
    GoneTo key' s (pulseKey key t) := by
  obtain ⟨hstk, hplu, hsch⟩ := pulseKey_outside key hmill
  have hopen := pulseKey_openings (key := key) hmill hho hthread (fun _ _ => not_false) (Openings.refl t)
  have hmono : scopeHolds (pulseKey key t) key' = true → scopeHolds t key' = true := by
    refine scopeHolds_mono (fun hrun => hstk ▸ hrun) (congrArg ScheduleStore.active hsch) (congrArg PresenceUnit.pres hplu) fun k => ?_
    obtain ⟨htripped, hsame, -⟩ := pulseKey_standing (key := key) hmill hho k
    by_cases hk : pulseOpens key t k
    · exact .inl (htripped hk)
    · refine .inr ⟨hsame hk, ?_, (hopen.kept k (.inl fun e => hk (e.resolve_left id))).2.2.1⟩
      rw [hopen.gap k]
  have hgone (u : State) : (goneKey key u).recordOf key' = u.recordOf key' := by rw [recordOf_goneKey, if_neg hne]
  unfold pulseKey at hmono ⊢
  refine GoneTo.congr (hgone _) (scopeHolds_goneKey key key' _) ?_
  rw [scopeHolds_goneKey] at hmono
  cases hr : t.recordOf key with
  | none =>
    rw [raiseKey_of_none false hr, createRecord_outside hmill, scopeHolds_evalScopes] at hmono
    rw [raiseKey_of_none false hr, createRecord_outside hmill]
    refine h.evalScopes ?_ hmono
    rw [recordOf_congr (congrArg TripMatrix.table (tripNotice_tmx key _)), handed_recordOf key key' hr, if_neg hne]
  | some r =>
    obtain ⟨hssq, hrstk, hrgce, hrsch, hrec⟩ := raiseKey_of_record false hr
    refine h.congr ((hrec key').trans (if_neg hne)) (scopeHolds_congr (by rw [hrstk]) (fun k => by rw [seq_congr hssq]) (fun k => ?_) ?_ (by rw [hrsch]) key')
    · rw [State.gap, State.gap, hrgce]
      exact ⟨rfl, rfl⟩
    · unfold raiseKey
      rw [hr]
      dsimp only
      split <;> simp [State.modRecord]

end Sys2Proof.Machine
end

section
/-! PROOFS. The request RESET: O5. -/

namespace Sys2Proof.Machine

/-- Where the soft reset finds a stand once its handover has ended (R131, R137). -/
def endedState (s : State) (k : Stand) : StandState :=
  (s.seq k).handover.elim (s.seq k).state fun h => unconfirmedState h (s.inSet k) (s.openCover k)

theorem resetQuiet_standing (s : State) (k : Stand) :
    ((resetQuiet s).seq k).state = swapState (s.inSet k) (s.openCover k) (endedState s k) ∧
      ((resetQuiet s).seq k).handover = none ∧
      ((resetQuiet s).seq k).localReq = if (s.seq k).handover = none then (s.seq k).localReq else false := by
  have hstanding : (resetQuiet s).standing = (resetStands (resetStart s)).standing := by
    unfold resetQuiet resetTracker
    rw [setMill_standing]
    exact standing_congr rfl
  obtain ⟨hst, hho, hreq, -⟩ := standing_iff.mp (congrFun hstanding k)
  rw [hst, hho, hreq]
  exact resetStands_standing k (resetStart s)

theorem resetQuiet_handover (s : State) (k : Stand) : ((resetQuiet s).seq k).handover = none := (resetQuiet_standing s k).2.1

theorem resetQuiet_not_thread (s : State) (k : Stand) : ((resetQuiet s).seq k).state ≠ .thread := fun h => by
  have hsettled := (swapState_settled (s.inSet k) (s.openCover k) (endedState s k)).2
  rw [← (resetQuiet_standing s k).1, h] at hsettled
  contradiction

/-- A stand in TRIPPED when its handover has ended is not opened by the reset again, and no stand is opened twice. -/
theorem resetQuiet_openings (s : State) :
    Openings (fun k => endsOpen s k ∨ endedState s k ≠ .tripped ∧ ((resetQuiet s).seq k).state = .tripped) (resetStart s)
      (resetQuiet s) := by
  have hkept := eachStand_keeps (fun t : State => (t.tmx, t.sch)) resetHandover
    (fun k t => by unfold resetHandover; split <;> simp) (resetStart s)
  obtain ⟨htmx, hsch⟩ := Prod.mk.inj hkept
  have hstands := resetStands_openings (resetStart s)
  have houtward : (resetQuiet s).outward = (resetStands (resetStart s)).outward := by
    unfold resetQuiet resetTracker
    simp [State.outward]
  refine (hstands.outward_congr houtward).of_iff fun k => or_congr Iff.rfl ?_
  have hended : ((eachStand resetHandover (resetStart s)).seq k).state = endedState s k := by
    rw [eachStand_resetHandover_seq]
    exact (unhanded_standing _ _ _ _ _).1
  unfold swapOpens
  rw [hended, inSet_congr (congrArg ScheduleStore.active hsch), openCover_congr htmx, (resetQuiet_standing s k).1]
  exact Iff.rfl

theorem resetQuiet_tripped {s : State} {k : Stand} (h : endedState s k = .tripped) :
    ((resetQuiet s).seq k).state = .tripped := by
  rw [(resetQuiet_standing s k).1, h]
  rfl

theorem endsOpen_iff (s : State) (k : Stand) :
    endsOpen s k ↔ endedState s k = .tripped ∧ ¬((s.seq k).state = .tripped ∧ (s.seq k).handover = none) := by
  unfold endsOpen endedState
  cases (s.seq k).handover <;> simp

theorem not_pulseOpens {key : Key} {s : State} {k : Stand} (h : (s.seq k).state.inPass = false) : ¬pulseOpens key s k :=
  fun hopens => nomatch h.symm.trans hopens.2.2.2

/-- The stands that the soft reset opens are those in TRIPPED behind it that were not, or that were in HANDOVER (R122). -/
theorem softReset_openings (s : State) :
    Openings (fun k => ((softReset s).seq k).state = .tripped ∧ ¬((s.seq k).state = .tripped ∧ (s.seq k).handover = none))
      (resetStart s) (softReset s) := by
  have hpulse := pulseKey_openings (key := .resetStop) (resetQuiet_mill s) (resetQuiet_handover s) (resetQuiet_not_thread s)
    (fun k hpass hopened => ?_) (resetQuiet_openings s)
  · refine hpulse.of_iff fun k => ?_
    obtain ⟨hopens, hsame, -⟩ := pulseKey_standing (key := .resetStop) (resetQuiet_mill s) (resetQuiet_handover s) k
    rw [softReset_eq, endsOpen_iff]
    by_cases hended : endedState s k = .tripped
    · have hquiet := resetQuiet_tripped hended
      have hnot : ¬pulseOpens .resetStop (resetQuiet s) k := not_pulseOpens (by rw [hquiet]; rfl)
      rw [hsame hnot, hquiet]
      simp only [hended, hnot, true_and, ne_eq, not_true_eq_false, false_and, or_false]
    · have hnot : ¬((s.seq k).state = .tripped ∧ (s.seq k).handover = none) := by
        rintro ⟨hstate, hho⟩
        refine hended ?_
        unfold endedState
        rw [hho]
        exact hstate
      by_cases hopen : pulseOpens .resetStop (resetQuiet s) k
      · rw [hopens hopen]
        simp only [hopen, hnot, or_true, true_and, not_false_eq_true]
      · rw [hsame hopen]
        simp only [hended, hopen, hnot, ne_eq, not_false_eq_true, true_and, false_or, or_false, and_true]
  · have htripped : ((resetQuiet s).seq k).state = .tripped :=
      hopened.elim (fun h => resetQuiet_tripped ((endsOpen_iff s k).mp h).1) (·.2)
    rw [htripped] at hpass
    contradiction

/-! ## The stands and the RESET_STOP record -/

theorem resetQuiet_resetStop (s : State) : (resetQuiet s).recordOf .resetStop = s.recordOf .resetStop := goneTo_resetQuiet .resetStop s

/-- A stand that the reset does not open again stays where its placement puts it (R137). -/
theorem softReset_kept {s : State} {k : Stand} {st : StandState} (hended : endedState s k = st)
    (hst : st = .local_ ∨ st = .tripped) : ((softReset s).seq k).state = st := by
  have hquiet : ((resetQuiet s).seq k).state = st := by
    rw [(resetQuiet_standing s k).1, hended]
    obtain rfl | rfl := hst <;> rfl
  obtain ⟨-, hsame, -⟩ := pulseKey_standing (key := .resetStop) (resetQuiet_mill s) (resetQuiet_handover s) k
  rw [softReset_eq, hsame (not_pulseOpens (by rw [hquiet]; obtain rfl | rfl := hst <;> rfl)), hquiet]

/-- A stand that the reset places, with the RESET_STOP record of MILL_STOP that it creates (R122, R137). -/
theorem softReset_placed {s : State} {k : Stand} (haction : vget s.sch.config.actions 0 = .millStop)
    (hquiet : ((resetQuiet s).seq k).state = placement (s.inSet k) (s.openCover k)) :
    ((softReset s).seq k).state =
      if s.inSet k = false then .out else if s.openCover k = true ∨ s.recordOf .resetStop = none then .tripped else .setup := by
  obtain ⟨hopens, hsame, -⟩ := pulseKey_standing (key := .resetStop) (resetQuiet_mill s) (resetQuiet_handover s) k
  have hact : (newRecord .resetStop (resetQuiet s)).action = .millStop := by
    change vget (resetQuiet s).sch.config.actions 0 = .millStop
    rw [(resetQuiet_blocks s).2.2]
    exact haction
  have hiff : pulseOpens .resetStop (resetQuiet s) k ↔
      s.recordOf .resetStop = none ∧ (placement (s.inSet k) (s.openCover k)).inPass = true := by
    unfold pulseOpens creationOpens TripRecord.covers
    rw [hact, hquiet, resetQuiet_resetStop]
    simp [Action.openClass]
  rw [softReset_eq]
  by_cases hopen : pulseOpens .resetStop (resetQuiet s) k
  · obtain ⟨hnone, hpass⟩ := hiff.mp hopen
    rw [hopens hopen, hnone]
    cases hin : s.inSet k with
    | false => rw [hin] at hpass; contradiction
    | true => simp
  · rw [hsame hopen, hquiet]
    rw [hiff] at hopen
    cases hin : s.inSet k <;> cases hcover : s.openCover k <;> rw [hin, hcover] at hopen
    · rfl
    · rfl
    · have hsome : s.recordOf .resetStop ≠ none := fun h => hopen ⟨h, rfl⟩
      simp [placement, hsome]
    · rfl

theorem swapState_returnState {p : StandState} (hp : p = .out ∨ p = .setup ∨ p = .ready) (inSet cover : Bool) :
    swapState inSet cover (returnState p inSet cover) = placement inSet cover := by
  obtain rfl | rfl | rfl := hp <;> cases inSet <;> cases cover <;> rfl

/-- RESET_STOP is raised and gone (R137, R138). -/
theorem softReset_resetStop {s : State} (h : ∀ r, s.recordOf .resetStop = some r → r.state ≠ .acked) :
    ∃ r, (softReset s).recordOf .resetStop = some r ∧ r.state = .held := by
  rw [← resetQuiet_resetStop] at h
  rw [softReset_eq]
  generalize resetQuiet s = w at h
  cases hr : w.recordOf .resetStop with
  | none =>
    obtain ⟨r, hrec, hheld, -⟩ := pulseKey_record (key := .resetStop) (s := w) rfl fun r hs => nomatch hs.symm.trans hr
    exact ⟨r, hrec, hheld⟩
  | some r =>
    unfold pulseKey
    rw [recordOf_goneKey, if_pos rfl, (raiseKey_of_record false hr).2.2.2.2, if_pos rfl]
    have hnot := h r hr
    unfold reraised
    cases hstate : r.state with
    | acked => exact absurd hstate hnot
    | held => exact ⟨_, rfl, rfl⟩
    | raised => exact ⟨{ r with state := .held }, by simp [TripRecord.gone, hstate], rfl⟩

end Sys2Proof.Machine
end

section
/-! PROOFS. The request RESET: O5. -/

namespace Sys2Proof.Machine

theorem reqReset_refused {s : State} (h : s.anyThreaded = true) : reqReset [] s = (s, [5]) :=
  (withLength_of_eq rfl s _).trans (if_pos h)

theorem reqReset_taken {s : State} (h : s.anyThreaded = false) : reqReset [] s = (softReset s, [0]) :=
  (withLength_of_eq rfl s _).trans (if_neg (by rw [h]; decide))

theorem anyThreaded_iff (s : State) :
    s.anyThreaded = true ↔ ∃ k, (s.seq k).state = .thread ∨ (s.seq k).state = .roll ∨ (s.seq k).state = .tail := by
  unfold State.anyThreaded
  rw [List.any_eq_true]
  exact ⟨fun ⟨k, _, h⟩ => ⟨k, (threaded_iff _).mp h⟩, fun ⟨k, h⟩ => ⟨k, mem_allStands k, (threaded_iff _).mpr h⟩⟩

/-- The handover of a stand ended by the reset: the record gone, LOCAL_REQ deasserted, the end noticed (R131, R137). -/
theorem softReset_handover {s : State} {k : Stand} {h : Handover} (hpending : (s.seq k).handover = some h) :
    ((softReset s).seq k).handover = none ∧ ((softReset s).seq k).localReq = false ∧
      Noticed (.handoverDone k h.dir .abortedReset) (softReset s) := by
  obtain ⟨-, -, hho, hreq⟩ := pulseKey_standing (key := .resetStop) (resetQuiet_mill s) (resetQuiet_handover s) k
  have hkept := unstirred_noticed (b := .handoverDone k h.dir .abortedReset) rfl
  have hended : Noticed (.handoverDone k h.dir .abortedReset) (resetStands (resetStart s)) :=
    hkept.resetStands (noticed_resetHandovers (s := resetStart s) hpending)
  rw [softReset_eq]
  refine ⟨hho, ?_, hkept.pulseKey .resetStop (resetQuiet_mill s) (resetQuiet_handover s) (hkept.setMill .idle (hkept.same _ rfl rfl hended))⟩
  rw [hreq, (resetQuiet_standing s k).2.2, hpending]
  rfl

theorem softReset_silent {src : NoticeSource} (hsrc : src.ofStates = false) (hho : ∀ k, src ≠ .handoverDone k) (s : State) :
    Silent src (softReset s) := by
  have hkept := unstirred_silent hsrc
  have hstart : Silent src (resetStart s) := fun n hn => nomatch hn
  have hstands := hkept.resetStands (hstart.resetHandovers hho)
  rw [softReset_eq]
  exact hkept.pulseKey .resetStop (resetQuiet_mill s) (resetQuiet_handover s) (hkept.setMill .idle (hkept.same _ rfl rfl hstands))

/-- A record and its key's scope after the reset (R139, R155). -/
theorem softReset_record {s : State} {key : Key} (hne : key ≠ .resetStop) : GoneTo key s (softReset s) :=
  goneTo_pulseKey hne (resetQuiet_mill s) (resetQuiet_handover s) (resetQuiet_not_thread s) (goneTo_resetQuiet key s)

theorem softReset_recordOf {s : State} {key : Key} {r : TripRecord} (hne : key ≠ .resetStop) (hr : s.recordOf key = some r) :
    (softReset s).recordOf key =
      if r.state = .held ∨ scopeHolds (softReset s) key = true then some r
      else if r.state = .acked then none
      else some { r with state := .held } := by
  have h : (softReset s).recordOf key = _ := softReset_record hne
  rw [h, hr, Option.bind_some, gone_eq]
  cases scopeHolds (softReset s) key with
  | true => simp
  | false =>
    obtain ⟨key', state, action, stampMs, stampCoil, stampSeg, occ, firstOut⟩ := r
    cases state <;> rfl

theorem softReset_no_record {s : State} {key : Key} (hne : key ≠ .resetStop) (hr : s.recordOf key = none) :
    (softReset s).recordOf key = none := by
  have h : (softReset s).recordOf key = _ := softReset_record hne
  rw [h, hr]
  exact ite_self _

/-- Settles O5: the blocks one by one, each stand opened at most once, and the records by the scopes that the reset leaves. -/
theorem Settled.softReset : Obligations.SoftReset := by
  intro tag s hf
  refine ⟨fun hthreaded => ?_, fun hfree => ?_⟩
  · exact exec_of_request (c := .softReset tag []) (kind := 0x1A) (tag := tag) rfl (by decide) hf
      (reqReset_refused ((anyThreaded_iff s).mpr hthreaded))
  have hnone : s.anyThreaded = false := by
    rw [← Bool.not_eq_true, anyThreaded_iff]
    rintro ⟨k, h⟩
    obtain ⟨hthread, hroll, htail⟩ := hfree k
    exact h.elim hthread fun h => h.elim hroll htail
  have hans : answer 26 [] s = (Machine.softReset s, [0]) := reqReset_taken hnone
  obtain ⟨htx, hslot, -⟩ := answer_keeps_line 26 [] s
  rw [hans] at htx hslot
  obtain ⟨l, hexec, hreplied, hline⟩ := exec_replied_line (c := .softReset tag []) (kind := 0x1A) (tag := tag) rfl (by decide)
    hf hans htx hslot
  have hset := softReset_settings s
  simp only [State.settings, Prod.mk.injEq] at hset
  obtain ⟨⟨hmask, hstreams, haux, hrx, hstraps⟩, hms, hmch⟩ := hset
  have hopen := softReset_openings s
  obtain ⟨hstk, hplu, hsch⟩ := softReset_blocks s
  have hstart (k : Stand) : (resetStart s).gap k = { s.gap k with trim := 0, integ := 0, timer := (s.record k).map (·.tCtl) } :=
    vget_vtab _ k
  have hslots (k : Stand) : vget (resetStart s).flc.slots k = none := vget_replicate _ k
  have hhand {k : Stand} {h : Handover} := softReset_handover (s := s) (k := k) (h := h)
  have hkept {k : Stand} {st : StandState} := softReset_kept (s := s) (k := k) (st := st)
  have hplaced {k : Stand} := softReset_placed (s := s) (k := k)
  have hrecord {key : Key} {r : TripRecord} := softReset_recordOf (s := s) (key := key) (r := r)
  have hnorecord {key : Key} := softReset_no_record (s := s) (key := key)
  have hcounts := zeroCounts_softReset s
  have hretired := softReset_silent (src := .segmentRetired) rfl nofun s
  have hperiodic (i : StreamId) := softReset_silent (src := .channelPeriodic i) rfl nofun s
  have hstop := softReset_resetStop (s := s)
  generalize Machine.softReset s = t at *
  refine ⟨t.withHlk l, hexec, hreplied, hstk, fun k => ?_, ⟨hopen.asm, hopen.busy, hopen.idle⟩, fun k newly hnewly => ⟨fun hk => ?_, fun r p hk hr hp => ?_⟩,
    hplu, hsch, hmch, hopen.accept, ?_, ?_, ?_, ?_, ?_, hms, fun n hn => ?_, hcounts, fun k hk => ?_, fun k hk => ?_,
    fun haction k placed hp => ⟨fun hst hho => ?_, fun h hpending => ?_⟩, fun key r hne hr => hrecord hne hr,
    fun key hne hr => hnorecord hne hr, fun key hkey => ?_, fun h => hstop h⟩
  · have hgap := hopen.gap k
    rw [hopen.count k (hfree k).1, hstart k] at hgap
    exact hgap
  · obtain ⟨kslot, kref, klast, kframe⟩ := hopen.kept k (hk.imp (mt hnewly.mpr) id)
    rw [hslots] at kslot
    rw [hstart] at kref klast
    exact ⟨kslot, kref, klast, kframe⟩
  · subst hp
    obtain ⟨kref, kuntagged, ktagged⟩ := hopen.sent k r (hnewly.mp hk) hr
    rw [hstart] at kuntagged ktagged
    exact ⟨kref, kuntagged, ktagged⟩
  · change l.mask = _
    rw [hline]
    exact hmask
  · change l.streams = _
    rw [hline]
    exact hstreams
  · change l.aux = _
    rw [hline]
    exact haux
  · change l.rx = _
    rw [hline]
    exact hrx
  · change l.straps = _
    rw [hline]
    exact hstraps
  · change n ∈ l.queue at hn
    rw [hline] at hn
    exact ⟨hretired n hn, fun i => hperiodic i n hn⟩
  · refine hkept ?_ (.inl rfl)
    rw [endedState, hk.2]
    exact hk.1
  · refine hkept ?_ (.inr rfl)
    rw [endedState, hk.2]
    exact hk.1
  · rw [hp]
    refine hplaced haction ?_
    rw [(resetQuiet_standing s k).1, endedState, hho]
    obtain e | e | e := hst <;> rw [e] <;> rfl
  · obtain ⟨hno, hreq, hnoticed⟩ := hhand hpending
    have hended (hdir : h.dir = .toLocal) (p : StandState) (hprior : h.prior = some p) :
        endedState s k = returnState p (s.inSet k) (s.openCover k) := by
      rw [endedState, hpending, Option.elim, unconfirmedState, hdir, hprior]
      rfl
    refine ⟨hno, hreq, fun hkind => ?_, fun hdir => hkept ?_ (.inl rfl), fun hdir hprior => hkept ?_ (.inr rfl),
      fun hdir hprior => ?_⟩
    · change ∃ n ∈ l.queue, _
      rw [hline]
      exact hnoticed (hmask ▸ hkind)
    · rw [endedState, hpending, Option.elim, unconfirmedState, hdir]
    · rw [hended hdir _ hprior]
      rfl
    · rw [hp]
      refine hplaced haction ?_
      rw [(resetQuiet_standing s k).1]
      obtain e | e | e := hprior <;> rw [hended hdir _ e] <;> exact swapState_returnState (by decide) _ _
  · have hscope : scopeHolds t key = true := by
      obtain rfl | ⟨n, rfl⟩ | ⟨j, rfl | rfl⟩ := hkey <;> rfl
    have hne : key ≠ .resetStop := by
      rintro rfl
      obtain h | ⟨n, h⟩ | ⟨j, h | h⟩ := hkey <;> contradiction
    change t.recordOf key = _
    cases hr : s.recordOf key with
    | none => exact hnorecord hne hr
    | some r => exact (hrecord hne hr).trans (if_pos (.inr hscope))

end Sys2Proof.Machine
end

section
/-! PROOFS. The counts that a tracker event hands to the trip matrix, where none of them opens a stand (R63, R146, R147). -/

namespace Sys2Proof.Machine

/-- The trip matrix has taken something that opens no stand: the strip, the banks, the line, the gap records and what the stands
are in stay as they were. -/
structure Unopened (s t : State) : Prop where
  stk : t.stk = s.stk
  sch : t.sch = s.sch
  plu : t.plu = s.plu
  gce : t.gce = s.gce
  flc : t.flc = s.flc
  mch : t.mch = s.mch
  ms : t.ms = s.ms
  standing : t.standing = s.standing

theorem Unopened.refl (s : State) : Unopened s s := ⟨rfl, rfl, rfl, rfl, rfl, rfl, rfl, rfl⟩

theorem Unopened.trans {s t u : State} (h : Unopened s t) (g : Unopened t u) : Unopened s u :=
  ⟨g.stk.trans h.stk, g.sch.trans h.sch, g.plu.trans h.plu, g.gce.trans h.gce, g.flc.trans h.flc, g.mch.trans h.mch,
    g.ms.trans h.ms, g.standing.trans h.standing⟩

theorem Unopened.state {s t : State} (h : Unopened s t) (k : Stand) : (t.seq k).state = (s.seq k).state :=
  (standing_iff.mp (congrFun h.standing k)).1

theorem Unopened.gap {s t : State} (h : Unopened s t) (k : Stand) : t.gap k = s.gap k := by rw [State.gap, State.gap, h.gce]

theorem Unopened.scope {s t : State} (h : Unopened s t) (key : Key) : scopeHolds t key = scopeHolds s key :=
  scopeHolds_congr (by rw [h.stk]) h.state (fun k => by rw [h.gap]; exact ⟨rfl, rfl⟩) (by rw [h.plu]) (by rw [h.sch]) key

theorem unopened_goneKey (key : Key) (s : State) : Unopened s (goneKey key s) :=
  ⟨by simp, by simp, by simp, by simp, by simp, by simp, by simp, goneKey_standing key s⟩

theorem unopened_evalScopes (s : State) : Unopened s (evalScopes s) :=
  ⟨by simp, by simp, by simp, by simp, by simp, by simp, by simp, evalScopes_standing s⟩

theorem unopened_notice (b : NoticeBody) (s : State) : Unopened s (updateNotice b s) :=
  ⟨by simp, by simp, by simp, by simp, by simp, by simp, by simp, updateNotice_standing b s⟩

theorem unopened_tripNotice (key : Key) (s : State) : Unopened s (tripNotice key s) := by
  unfold tripNotice
  split
  · exact unopened_notice _ s
  · exact .refl s

theorem unopened_tmx (m : TripMatrix) (s : State) : Unopened s (s.withTmx m) := ⟨rfl, rfl, rfl, rfl, rfl, rfl, rfl, rfl⟩

/-- A record whose action opens no stand is handed on (R115, R157). -/
theorem unopened_handed {key : Key} {s : State} (hlow : (newRecord key s).action.openClass = false) : Unopened s (handed key s) := by
  have hstanding : (handed key s).standing = s.standing := by
    funext k
    have hseq := handCreation_seq (newRecord key s) k (s.withTmx { s.tmx with table := s.tmx.table ++ [newRecord key s] })
    rw [hlow] at hseq
    rw [standing_eq, handed, hseq, evalDemand_record_standing]
    rfl
  unfold handed handCreation at hstanding ⊢
  rw [hlow] at hstanding ⊢
  exact ⟨by simp, by simp, by simp, by simp, by simp, by simp, by simp, hstanding⟩

/-- A raise that creates no record of an action that opens a stand (R122, R154). -/
theorem unopened_raiseKey (inTracker : Bool) {key : Key} {s : State}
    (h : (newRecord key s).action.openClass = false ∨ s.recordOf key ≠ none) : Unopened s (raiseKey inTracker key s) := by
  cases hr : s.recordOf key with
  | none =>
    rw [raiseKey_of_none inTracker hr, createRecord_eq]
    have hlow := h.resolve_right fun hne => hne hr
    rw [handedTest_low inTracker key hlow]
    exact ((unopened_handed hlow).trans (unopened_tripNotice key _)).trans (unopened_evalScopes _)
  | some r =>
    unfold raiseKey
    rw [hr]
    dsimp only
    split
    · exact (unopened_tmx _ s).trans (unopened_tripNotice key _)
    · exact .refl s
    · exact .refl s

/-! ## Counts -/

/-- A condition that a count raises opens no stand: its action is below OPEN, or its record is not ACKED, or it is out of scope
(R146, R147, R154). -/
def NoTripOf (key : Key) (s : State) : Prop :=
  (vget s.sch.config.actions key.row = .note ∨ vget s.sch.config.actions key.row = .freeze) ∨
    (∃ r, s.recordOf key = some r ∧ r.state ≠ .acked) ∨ scopeHolds s key = false

theorem aged_not_acked {key : Key} {s t : State} (h : Aged key s t) (hs : ∃ r, s.recordOf key = some r ∧ r.state ≠ .acked) :
    ∃ r, t.recordOf key = some r ∧ r.state ≠ .acked := by
  obtain ⟨r, hr, hstate⟩ := hs
  obtain e | ⟨-, e⟩ := h
  · exact ⟨r, e.trans hr, hstate⟩
  · rw [hr, Option.bind_some, gone_eq, if_neg hstate] at e
    exact ⟨_, e, (fun h => nomatch h)⟩

theorem NoTripOf.aged {key : Key} {s t : State} (hopen : Unopened s t) (haged : Aged key s t) (h : NoTripOf key s) :
    NoTripOf key t := by
  unfold NoTripOf at h ⊢
  rw [hopen.sch, hopen.scope]
  exact h.imp_right (Or.imp_left (aged_not_acked haged))

theorem Key.hasScope_of_counted {key : Key} (h : key.counted = true) : key.hasScope = true := by
  cases key with
  | stand c k => cases c <;> first | rfl | contradiction
  | _ => contradiction

/-- A condition taken on a count, where it opens no stand. -/
theorem takeCount_unopened {key : Key} (hkey : key.counted = true) (beyond : Bool) {s : State} (h : NoTripOf key s) :
    Unopened s (takeCount key beyond s) ∧ NoTripOf key (takeCount key beyond s) := by
  unfold takeCount
  split
  · split
    next hscope =>
      have hlow : (newRecord key s).action.openClass = false ∨ s.recordOf key ≠ none := by
        obtain hrow | ⟨r, hr, -⟩ | hout := h
        · exact .inl ((openClass_false_iff _).mpr hrow)
        · exact .inr (by rw [hr]; exact Option.some_ne_none r)
        · exact nomatch hscope.symm.trans hout
      have hopen := unopened_raiseKey true hlow
      refine ⟨hopen, ?_⟩
      unfold NoTripOf at h ⊢
      rw [hopen.sch, hopen.scope]
      refine h.imp_right (Or.imp_left fun ⟨r, hr, hstate⟩ => ⟨reraised r, ?_, ?_⟩)
      · rw [(raiseKey_of_record true hr).2.2.2.2, if_pos rfl]
      · unfold reraised
        split
        · exact (fun e => nomatch e)
        · exact hstate
    · exact ⟨.refl s, h⟩
  · refine ⟨unopened_goneKey key s, h.aged (unopened_goneKey key s) ?_⟩
    refine .inr ⟨Key.hasScope_of_counted hkey, ?_⟩
    rw [recordOf_goneKey, if_pos rfl]

/-- A count's condition leaves what the others rest on. -/
theorem noTripOf_takeCount {key key' : Key} (hkey : key.counted = true) (beyond : Bool) {s : State} (h : NoTripOf key s)
    (h' : NoTripOf key' s) : NoTripOf key' (takeCount key beyond s) := by
  obtain ⟨hopen, hself⟩ := takeCount_unopened hkey beyond h
  by_cases e : key' = key
  · rw [e]
    exact hself
  · exact h'.aged hopen (aged_takeCount e beyond s)

/-- No count of the span into the stand opens a stand. -/
def NoTripAt (k : Stand) (s : State) : Prop := ∀ c, (Key.stand c k).counted = true → NoTripOf (.stand c k) s

theorem handCount_unopened {k : Stand} (n : Nat) {s : State} (h : NoTripAt k s) :
    Unopened s (handCount k n s) ∧ ∀ j, NoTripAt j s → NoTripAt j (handCount k n s) := by
  unfold handCount
  split
  next e _ =>
    have htake (c : StandCond) (hc : (Key.stand c k).counted = true) (beyond : Bool) {t : State}
        (ht : Unopened s t ∧ ∀ j, NoTripAt j s → NoTripAt j t) :
        Unopened s (takeCount (.stand c k) beyond t) ∧ ∀ j, NoTripAt j s → NoTripAt j (takeCount (.stand c k) beyond t) := by
      have hk := ht.2 k h c hc
      exact ⟨ht.1.trans (takeCount_unopened hc beyond hk).1, fun j hj c' hc' => noTripOf_takeCount hc beyond hk (ht.2 j hj c' hc')⟩
    exact htake .loopPull rfl _ (htake .loopGrow rfl _ (htake .headOverdue rfl _ ⟨.refl s, fun _ hj => hj⟩))
  next => exact ⟨.refl s, fun _ hj => hj⟩

/-- The counts that an event hands on open no stand (R63). -/
theorem handCounts_unopened {before s : State} (h : ∀ k, k ∈ s.downstream → spanTouched before s k = true → NoTripAt k s) :
    Unopened s (handCounts before s) := by
  have hstep (l : List Stand) (t : State) (ht : Unopened s t) (hl : ∀ k, k ∈ l → NoTripAt k t) :
      Unopened s (l.foldl (fun t k => handCount k (s.span (spanInto k)).length t) t) := by
    induction l generalizing t with
    | nil => exact ht
    | cons k rest ih =>
      obtain ⟨hopen, hkeeps⟩ := handCount_unopened (s.span (spanInto k)).length (hl k List.mem_cons_self)
      exact ih _ (ht.trans hopen) fun j hj => hkeeps j (hl j (List.mem_cons_of_mem _ hj))
  refine hstep _ s (.refl s) fun k hk => ?_
  obtain ⟨hdown, htouched⟩ := List.mem_filter.mp hk
  exact h k hdown htouched

theorem takeCount_outOfScope {key key' : Key} (hne : key' ≠ key) (beyond : Bool) {s : State} (h : scopeHolds s key = false) :
    (takeCount key beyond s).recordOf key' = s.recordOf key' := by
  unfold takeCount
  rw [h]
  split
  · rfl
  · rw [recordOf_goneKey, if_neg hne]

/-- Counts whose conditions are out of scope leave every other record. -/
theorem handCounts_outOfScope {before s : State}
    (h : ∀ k c, k ∈ s.downstream → spanTouched before s k = true → (Key.stand c k).counted = true →
      scopeHolds s (.stand c k) = false) :
    Unopened s (handCounts before s) ∧ ∀ key, key.counted = false → (handCounts before s).recordOf key = s.recordOf key := by
  have hopen := handCounts_unopened fun k hdown htouched c hc => .inr (.inr (h k c hdown htouched hc))
  refine ⟨hopen, fun key hkey => ?_⟩
  have htake (k : Stand) (hk : k ∈ s.downstream.filter fun k => spanTouched before s k) (c : StandCond)
      (hc : (Key.stand c k).counted = true) (beyond : Bool) {t : State} (ht : Unopened s t ∧ t.recordOf key = s.recordOf key) :
      Unopened s (takeCount (.stand c k) beyond t) ∧ (takeCount (.stand c k) beyond t).recordOf key = s.recordOf key := by
    obtain ⟨hdown, htouched⟩ := List.mem_filter.mp hk
    have hscope := (ht.1.scope _).trans (h k c hdown htouched hc)
    refine ⟨ht.1.trans (takeCount_unopened hc beyond (.inr (.inr hscope))).1, (takeCount_outOfScope ?_ beyond hscope).trans ht.2⟩
    rintro rfl
    exact nomatch hkey.symm.trans hc
  have hstep (l : List Stand) (hl : ∀ k, k ∈ l → k ∈ s.downstream.filter fun k => spanTouched before s k) (t : State)
      (ht : Unopened s t ∧ t.recordOf key = s.recordOf key) :
      (l.foldl (fun t k => handCount k (s.span (spanInto k)).length t) t).recordOf key = s.recordOf key := by
    induction l generalizing t with
    | nil => exact ht.2
    | cons k rest ih =>
      refine ih (fun j hj => hl j (List.mem_cons_of_mem _ hj)) _ ?_
      have hk := hl k List.mem_cons_self
      dsimp only
      unfold handCount
      split
      · exact htake k hk .loopPull rfl _ (htake k hk .loopGrow rfl _ (htake k hk .headOverdue rfl _ ht))
      · exact ht
  exact hstep _ (fun _ hk => hk) s ⟨.refl s, rfl⟩

end Sys2Proof.Machine
end

section
/-! PROOFS. A head that threads its stand: O10. -/

namespace Sys2Proof.Machine

/-! ## Allocation (R59, R70) -/

/-- The record that an allocation makes (R70). -/
def newSegment (k : Stand) (s : State) : Segment :=
  { coil := s.stk.coil, seg := freeNumber s.stk.heldNumbers 233 s.stk.nextSeg, entryH := (entryThickness s).1,
    entrySrc := (entryThickness s).2, lastStand := none, estH := none, dev := none, gapRef := (s.gap k).sRef, measH := none,
    flags := { thread := false, limited := false, trip := false, lost := false, discarded := false } }

theorem allocate_eq (k : Stand) (s : State) :
    allocate k s = s.withStk { s.stk with
      bites := vset s.stk.bites k (some (newSegment k s))
      nextSeg := succ65535 (newSegment k s).seg
      lastAlloc := (newSegment k s).seg
      allocated := satSucc 65535 s.stk.allocated } := rfl

/-- The allocation at a stand, from a state with the same banks, entry gauge, S_ref and numbering, and with no more records. -/
theorem allocate_at {k : Stand} {s u : State} (hmill : u.millRec = s.millRec) (hchan : u.chan 24 = s.chan 24)
    (href : (u.gap k).sRef = (s.gap k).sRef) (hnext : u.stk.nextSeg = s.stk.nextSeg)
    (hheld : ∀ n, n ∈ u.stk.heldNumbers → n ∈ s.stk.heldNumbers) :
    ∃ g, AllocatedAt u.stk.coil k s g ∧
      (allocate k u).stk =
        { u.stk with
          bites := vset u.stk.bites k (some g)
          nextSeg := if g.seg < 65535 then g.seg + 1 else 1
          lastAlloc := g.seg
          allocated := min 65535 (u.stk.allocated + 1) } := by
  have hentry : entryThickness u = entryThickness s := by rw [entryThickness, entryThickness, hmill, hchan]
  refine ⟨newSegment k u, ⟨rfl, fun hfree => ?_, fun m hm => ⟨fun hgauge => ?_, fun hsched => ?_⟩, rfl, rfl, href, rfl, rfl, rfl⟩, ?_⟩
  · change freeNumber u.stk.heldNumbers 233 u.stk.nextSeg = s.stk.nextSeg
    unfold freeNumber
    rw [if_neg, hnext]
    rw [List.contains_iff_mem, hnext]
    exact fun h => hfree (hheld _ h)
  · change (entryThickness u).2 = .gauge ∧ (((entryThickness u).1 : Nat) : Int) = _
    rw [hentry, entryThickness, hm]
    dsimp only
    rw [if_pos hgauge]
    have hrange := saturate_range 0 65000 (s.chan 24).value (by decide)
    refine ⟨rfl, ?_⟩
    rw [Int.toNat_of_nonneg hrange.1]
    exact saturate_eq 0 65000 _ (by decide)
  · change (entryThickness u).2 = .schedule ∧ (entryThickness u).1 = _
    rw [hentry, entryThickness, hm]
    dsimp only
    rw [if_neg]
    · exact ⟨rfl, rfl⟩
    · rintro ⟨hg, hf⟩
      obtain h | h := hsched
      · exact nomatch h.symm.trans hg
      · exact h hf
  · rw [allocate_eq, satSucc_min]
    rfl

/-! ## The entry into THREAD (R68, R98, R117) -/

/-- A coil started, before the trip matrix takes it (R68). -/
def coilStarted (s : State) : State :=
  ((s.withStk { s.stk with
    mill := .rolling
    coil := succ65535 s.stk.coil
    allocated := 0
    retired := 0
    tailMarks := Vector.replicate 8 false }).modGaps fun _ g => { g with locked := false })

theorem unopened_startCoil (s : State) : Unopened (coilStarted s) (startCoil s) :=
  (unopened_notice (.millState .rolling (succ65535 s.stk.coil) s.sch.active.serial) (coilStarted s)).trans (unopened_evalScopes _)

/-- A stand in THREAD, its estimate and its marks cleared (R98, R117). -/
def threadEntered (k : Stand) (s : State) : State := (setStandState k .thread s).modGap k GapRecord.enterThread

/-- What a head event that threads its stand makes of the part, before the trip matrix takes it (R68, R98, R117). -/
def threadTaken (k : Stand) (s : State) : State :=
  if s.isFirst k then coilStarted (threadEntered k s) else threadEntered k s

theorem threadEntered_isFirst (k j : Stand) (s : State) : (threadEntered k s).isFirst j = s.isFirst j := by
  simp [threadEntered, State.isFirst, State.firstActive, State.activeSet, State.millRec]

theorem threadTaken_view (k : Stand) (s : State) :
    (threadTaken k s).sch = s.sch ∧ (threadTaken k s).mch = s.mch ∧ (threadTaken k s).plu = s.plu ∧ (threadTaken k s).ms = s.ms ∧
      (threadTaken k s).tmx = s.tmx ∧ (threadTaken k s).seq = (setStandState k .thread s).seq := by
  unfold threadTaken
  split <;> simp [threadEntered, coilStarted] <;> rfl

/-- The stand in THREAD, and the others (R117). -/
theorem threadTaken_standing (k j : Stand) (s : State) :
    ((threadTaken k s).seq j).state = (if j = k then .thread else (s.seq j).state) ∧
      ((threadTaken k s).seq k).equalize = none := by
  rw [(threadTaken_view k s).2.2.2.2.2, setStandState_seq, setStandState_seq, if_pos rfl]
  obtain ⟨hstate, -, -, hequalize, -⟩ := evalDemand_record_keeps ((s.seq k).enter .thread) s.millStopExists (s.tNo k)
  refine ⟨?_, hequalize⟩
  split
  · exact hstate
  · rfl

theorem threadEntered_gap (k j : Stand) (s : State) :
    (threadEntered k s).gap j = if j = k then (s.gap k).enterThread else s.gap j := by
  unfold threadEntered
  rw [modGap_gap]
  have h (i : Stand) : (setStandState k .thread s).gap i = s.gap i := by simp [State.gap]
  rw [h, h]

theorem threadTaken_gap (k j : Stand) (s : State) :
    (threadTaken k s).gap j =
      if s.isFirst k then { (threadEntered k s).gap j with locked := false } else (threadEntered k s).gap j := by
  unfold threadTaken
  split
  · exact vget_vtab _ j
  · rfl

theorem threadTaken_stk (k : Stand) (s : State) :
    (threadTaken k s).stk =
      if s.isFirst k then
        { s.stk with
          mill := .rolling
          coil := succ65535 s.stk.coil
          allocated := 0
          retired := 0
          tailMarks := Vector.replicate 8 false }
      else s.stk := by
  have h : (threadEntered k s).stk = s.stk := by simp [threadEntered]
  unfold threadTaken
  split
  · rw [← h]
    rfl
  · exact h

theorem scopeHolds_sampleStale (k : Stand) (s : State) :
    scopeHolds s (.stand .sampleStale k) = (s.seq k).state.threaded := rfl

/-- The trip matrix takes the entry into THREAD; the stand's SAMPLE_STALE record stays, as its scope begins (R139, R144). -/
theorem threaded_unopened {k : Stand} {s : State} (hmill : s.stk.mill = (if s.firstActive = some k then .armed else .rolling)) :
    Unopened (threadTaken k s) (evalScopes (standNotice k (threaded k s))) ∧
      (evalScopes (standNotice k (threaded k s))).recordOf (.stand .sampleStale k) = s.recordOf (.stand .sampleStale k) := by
  have hscope : scopeHolds (threadTaken k s) (.stand .sampleStale k) = true := by
    rw [scopeHolds_sampleStale, (threadTaken_standing k k s).1, if_pos rfl]
    rfl
  have htaken : (threadTaken k s).recordOf (.stand .sampleStale k) = s.recordOf (.stand .sampleStale k) :=
    recordOf_congr (congrArg TripMatrix.table (threadTaken_view k s).2.2.2.2.1) _
  have hthreaded : Unopened (threadTaken k s) (threaded k s) ∧
      (threaded k s).recordOf (.stand .sampleStale k) = s.recordOf (.stand .sampleStale k) := by
    have hentered : (threadEntered k s).stk.mill = s.stk.mill := by simp [threadEntered]
    change Unopened _ (if (threadEntered k s).isFirst k && (threadEntered k s).stk.mill == .armed then
      startCoil (threadEntered k s) else threadEntered k s) ∧ _
    have e : threaded k s = if (threadEntered k s).isFirst k && (threadEntered k s).stk.mill == .armed then
      startCoil (threadEntered k s) else threadEntered k s := rfl
    rw [e, threadEntered_isFirst, hentered, hmill]
    unfold threadTaken at hscope htaken ⊢
    cases hfirst : s.isFirst k with
    | true =>
      rw [hfirst] at hscope htaken
      rw [if_pos ((isFirst_iff s k).mp hfirst)]
      refine ⟨unopened_startCoil _, ?_⟩
      refine Eq.trans ?_ htaken
      have hnotice := unopened_notice (.millState .rolling (succ65535 (threadEntered k s).stk.coil) (threadEntered k s).sch.active.serial)
        (coilStarted (threadEntered k s))
      exact (evalScopes_inScope ((hnotice.scope _).trans hscope)).trans (recordOf_congr (by simp) _)
    | false =>
      rw [hfirst] at htaken
      exact ⟨.refl _, htaken⟩
  obtain ⟨hopen, hrec⟩ := hthreaded
  have hnotice := hopen.trans (unopened_notice (.standState k ((threaded k s).seq k).state ((threaded k s).seq k).frozen
    ((threaded k s).stripPresent k)) (threaded k s))
  refine ⟨hnotice.trans (unopened_evalScopes _), ?_⟩
  exact (evalScopes_inScope ((hnotice.scope _).trans hscope)).trans ((recordOf_congr (by simp) _).trans hrec)

end Sys2Proof.Machine
end

section
/-! PROOFS. A head that threads its stand: O10. -/

namespace Sys2Proof.Machine

/-! ## SAMPLE_STALE at the entry (R144) -/

/-- The entry opens no stand: the stand's channels are FRESH, or SAMPLE_STALE creates no record of an action that opens it. -/
def EntersThread (k : Stand) (s : State) : Prop :=
  (s.chan (forceCh k)).state = .fresh ∧ (s.chan (gapCh k)).state = .fresh ∨
    vget s.sch.config.actions 5 = .note ∨ vget s.sch.config.actions 5 = .freeze ∨ s.recordOf (.stand .sampleStale k) ≠ none

/-- The record of a key after one more evaluation of the scopes. -/
theorem evalScopes_again (key : Key) {s t : State} (h : t.recordOf key = (evalScopes s).recordOf key)
    (hscope : scopeHolds t key = scopeHolds s key) : (evalScopes t).recordOf key = t.recordOf key := by
  rw [recordOf_evalScopes, h, recordOf_evalScopes, hscope]
  cases scopeHolds s key with
  | true => rfl
  | false => exact gone_gone _

section
variable {k : Stand} {s : State} (hset : s.inSet k = true) (hready : (s.seq k).state = .ready)
  (hmill : s.stk.mill = (if s.firstActive = some k then .armed else .rolling))
include hset hready hmill

/-- The sequencer's work at a head that threads its stand (R117, R139, R144). -/
theorem seqHead_eq : seqHead k s = evalScopes (staleAtThread k (evalScopes (standNotice k (threaded k s)))) := by
  unfold seqHead sequenceHead
  rw [if_pos hset, hready]
  dsimp only
  rw [if_pos ((headThreads_iff k s).mpr hmill), threadStand_eq]

/-- The stand threads. -/
theorem seqHead_threads (h : EntersThread k s) :
    Unopened (threadTaken k s) (seqHead k s) ∧
      ((s.chan (forceCh k)).state ≠ .fresh ∨ (s.chan (gapCh k)).state ≠ .fresh → StaleRecorded k s (seqHead k s)) := by
  rw [seqHead_eq hset hready hmill]
  obtain ⟨hopen, hrec⟩ := threaded_unopened hmill
  obtain ⟨hsch, hmch, -, hms, -, -⟩ := threadTaken_view k s
  generalize evalScopes (standNotice k (threaded k s)) = b at hopen hrec
  have hstate : (b.seq k).state = .thread := by
    rw [hopen.state, (threadTaken_standing k k s).1, if_pos rfl]
  have hchan (c : Chan) : b.chan c = s.chan c := by rw [State.chan, State.chan, hopen.mch, hmch]
  have hactions : b.sch.config.actions = s.sch.config.actions := by rw [hopen.sch, hsch]
  have hscope {t : State} (ht : Unopened b t) : scopeHolds t (.stand .sampleStale k) = true := by
    rw [ht.scope, scopeHolds_sampleStale, hstate]
    rfl
  unfold staleAtThread
  by_cases hfresh : b.inputsFresh k = true
  · rw [if_neg (by simp [hfresh])]
    refine ⟨hopen.trans (unopened_evalScopes b), fun hnot => ?_⟩
    rw [inputsFresh_iff, hchan, hchan] at hfresh
    exact hnot.elim (fun e => absurd hfresh.1 e) fun e => absurd hfresh.2 e
  · rw [if_pos (by simp [hstate, hfresh])]
    have hraise : Unopened b (raiseKey false (.stand .sampleStale k) b) := by
      refine unopened_raiseKey false ?_
      rw [inputsFresh_iff, hchan, hchan] at hfresh
      obtain e | e | e | e := h
      · exact absurd e hfresh
      · refine .inl ((openClass_false_iff _).mpr (.inl ?_))
        rw [← e, ← hactions]
        rfl
      · refine .inl ((openClass_false_iff _).mpr (.inr ?_))
        rw [← e, ← hactions]
        rfl
      · exact .inr (hrec ▸ e)
    refine ⟨(hopen.trans hraise).trans (unopened_evalScopes _), fun _ => ?_⟩
    exact (staleRecorded_raise hrec hactions (hopen.ms.trans hms) (by rw [hstate]; rfl)).congr
      (evalScopes_inScope (hscope hraise))

/-- The stand's own SAMPLE_STALE record opens it before the tracker takes the head (R69, R122). -/
theorem seqHead_opens (h : ¬EntersThread k s) :
    ((seqHead k s).seq k).state = .tripped ∧ (seqHead k s).stk = (threadTaken k s).stk ∧ (seqHead k s).plu = s.plu ∧
      StaleRecorded k s (seqHead k s) := by
  rw [seqHead_eq hset hready hmill]
  obtain ⟨hopen, hrec⟩ := threaded_unopened hmill
  obtain ⟨hsch, hmch, hplu, hms, -, -⟩ := threadTaken_view k s
  generalize evalScopes (standNotice k (threaded k s)) = b at hopen hrec
  have hstate : (b.seq k).state = .thread := by
    rw [hopen.state, (threadTaken_standing k k s).1, if_pos rfl]
  have hchan (c : Chan) : b.chan c = s.chan c := by rw [State.chan, State.chan, hopen.mch, hmch]
  have hactions : b.sch.config.actions = s.sch.config.actions := by rw [hopen.sch, hsch]
  unfold EntersThread at h
  simp only [not_or, not_not] at h
  obtain ⟨hstale, hnote, hfreeze, hnone⟩ := h
  have hfresh : ¬b.inputsFresh k = true := by
    rw [inputsFresh_iff, hchan, hchan]
    exact hstale
  have haction : (newRecord (.stand .sampleStale k) b).action.openClass = true := by
    rw [← Bool.not_eq_false, openClass_false_iff]
    change ¬(vget b.sch.config.actions 5 = .note ∨ vget b.sch.config.actions 5 = .freeze)
    rw [hactions]
    exact not_or.mpr ⟨hnote, hfreeze⟩
  have hbmill : b.stk.mill ≠ .tailout := by
    rw [hopen.stk, threadTaken_stk]
    by_cases hfirst : s.isFirst k = true
    · rw [if_pos hfirst]
      exact (fun e => nomatch e)
    · rw [if_neg hfirst, hmill, if_neg (mt (isFirst_iff s k).mpr hfirst)]
      decide
  have hbnone : b.recordOf (.stand .sampleStale k) = none := hrec.trans hnone
  unfold staleAtThread
  rw [if_pos (by simp [hstate, hfresh])]
  have hraised := staleRecorded_raise hrec hactions (hopen.ms.trans hms) (by rw [hstate]; rfl)
  have htrips := createRecord_trips false (.stand .sampleStale k) (s := b) k haction (covers_stand rfl haction)
    (by rw [hstate]; rfl)
  rw [raiseKey_of_none false hbnone] at hraised ⊢
  have hafter : (createRecord false (.stand .sampleStale k) b).stk = b.stk ∧ (createRecord false (.stand .sampleStale k) b).plu = b.plu := by
    rw [createRecord_outside hbmill]
    simp [handed]
  refine ⟨(evalScopes_state _ k).trans htrips, ?_, ?_, hraised.congr ?_⟩
  · exact ((unopened_evalScopes _).stk.trans hafter.1).trans hopen.stk
  · exact ((unopened_evalScopes _).plu.trans hafter.2).trans (hopen.plu.trans hplu)
  · rw [createRecord_outside hbmill]
    exact evalScopes_again _ rfl (scopeHolds_evalScopes _ _)

end

/-! ## The tracker's part (R69 to R71) -/

theorem spanInto_inj {j k : Stand} : spanInto j = spanInto k ↔ j = k := sub_left_inj

/-- What a thread entry leaves of the strip before its counts are handed on (R69 to R71). -/
def entryTaken (k : Stand) (s : State) : State :=
  let t := s.withStk { s.stk with tailMarks := vset s.stk.tailMarks k false }
  if s.isFirst k then allocate k t else takeIntoBite k t

theorem threadEntry_eq (k : Stand) (s : State) : threadEntry k s = endTracker s (entryTaken k s) := rfl

theorem takeIntoBite_stk (k : Stand) (s : State) :
    (takeIntoBite k s).stk =
      { s.stk with
        bites := match (s.span (spanInto k)).head? with
          | some g => vset s.stk.bites k (some g)
          | none => s.stk.bites
        spans := vset s.stk.spans (spanInto k) (s.span (spanInto k)).tail } := by
  unfold takeIntoBite
  split
  next g rest h =>
    rw [h]
    rfl
  next h =>
    have hspan : vset s.stk.spans (spanInto k) [] = s.stk.spans := by
      rw [← h]
      exact vset_vget _ _
    rw [h]
    change _ = { s.stk with bites := s.stk.bites, spans := vset s.stk.spans (spanInto k) [] }
    rw [hspan]

theorem takeIntoBite_view (k : Stand) (s : State) :
    (takeIntoBite k s).sch = s.sch ∧ (takeIntoBite k s).plu = s.plu ∧ (takeIntoBite k s).gce = s.gce ∧
      (takeIntoBite k s).ssq = s.ssq ∧ (takeIntoBite k s).tmx = s.tmx ∧ (takeIntoBite k s).flc = s.flc ∧
      (takeIntoBite k s).mch = s.mch ∧ (takeIntoBite k s).ms = s.ms := by
  unfold takeIntoBite
  split <;> exact ⟨rfl, rfl, rfl, rfl, rfl, rfl, rfl, rfl⟩

theorem entryTaken_keeps (k : Stand) (s : State) :
    (entryTaken k s).sch = s.sch ∧ (entryTaken k s).plu = s.plu ∧ (entryTaken k s).gce = s.gce ∧
      (entryTaken k s).ssq = s.ssq ∧ (entryTaken k s).tmx = s.tmx ∧ (entryTaken k s).flc = s.flc ∧
      (entryTaken k s).mch = s.mch ∧ (entryTaken k s).ms = s.ms := by
  unfold entryTaken
  dsimp only
  split
  · exact ⟨rfl, rfl, rfl, rfl, rfl, rfl, rfl, rfl⟩
  · exact takeIntoBite_view k _

theorem entryTaken_mill (k : Stand) (s : State) : (entryTaken k s).stk.mill = s.stk.mill := by
  unfold entryTaken
  dsimp only
  split
  · rfl
  · rw [takeIntoBite_stk]
    rfl

theorem entryTaken_span {k j : Stand} {s : State} (h : spanTouched s (entryTaken k s) j = true) : j = k := by
  by_contra hj
  have hspan : (entryTaken k s).span (spanInto j) = s.span (spanInto j) := by
    unfold entryTaken
    dsimp only
    split
    · rfl
    · rw [State.span, takeIntoBite_stk]
      change vget (vset s.stk.spans (spanInto k) _) (spanInto j) = _
      rw [vget_vset, if_neg (mt spanInto_inj.mp hj)]
      rfl
  rw [spanTouched, hspan] at h
  simp at h

/-- Outside TAILOUT the end of a tracker event hands on the counts alone (R63, R79). -/
theorem endTracker_outside {before s : State} (hmill : s.stk.mill ≠ .tailout) : endTracker before s = handCounts before s := by
  have hnot : (handCounts before s).millIsEmpty = false := by
    unfold State.millIsEmpty
    rw [(handCounts_inTracker before s).1, beq_eq_false_iff_ne.mpr hmill]
    rfl
  unfold endTracker millEmptyTest
  rw [if_neg (by rw [hnot]; decide)]

/-- The counts of a thread entry raise nothing: the stand is in THREAD (R146, R147). -/
theorem threadEntry_unopened {k : Stand} {s : State} (hstate : (s.seq k).state = .thread) (hmill : s.stk.mill = .rolling) :
    Unopened (entryTaken k s) (threadEntry k s) ∧
      ∀ key, key.counted = false → (threadEntry k s).recordOf key = s.recordOf key := by
  obtain ⟨-, -, -, hssq, htmx, -⟩ := entryTaken_keeps k s
  have hseq : (entryTaken k s).seq k = s.seq k := seq_congr hssq k
  rw [threadEntry_eq, endTracker_outside (by rw [entryTaken_mill, hmill]; decide)]
  have h := handCounts_outOfScope (before := s) (s := entryTaken k s) fun j c _ htouched hc => ?_
  · exact ⟨h.1, fun key hkey => (h.2 key hkey).trans (recordOf_congr (congrArg TripMatrix.table htmx) key)⟩
  · obtain rfl := entryTaken_span htouched
    have hloop : loopScope j (entryTaken j s) = false := by
      unfold loopScope
      rw [hseq, hstate]
      simp
    cases c with
    | loopGrow => exact hloop
    | loopPull => exact hloop
    | headOverdue =>
      unfold scopeHolds
      dsimp only
      rw [hseq, hstate]
      simp
    | _ => contradiction

end Sys2Proof.Machine
end

section
/-! PROOFS. A head that threads its stand: O10. -/

namespace Sys2Proof.Machine

/-- What the stand's own head leaves of the tracker (R68 to R71). -/
theorem entryTaken_first {k : Stand} {s u : State} (hopen : Unopened (threadTaken k s) u) (hfirst : s.isFirst k = true) :
    ∃ g, AllocatedAt (entryTaken k u).stk.coil k s g ∧
      (entryTaken k u).stk =
        { s.stk with
          mill := .rolling
          coil := if s.stk.coil < 65535 then s.stk.coil + 1 else 1
          allocated := 1
          retired := 0
          tailMarks := Vector.replicate 8 false
          bites := vset s.stk.bites k (some g)
          nextSeg := if g.seg < 65535 then g.seg + 1 else 1
          lastAlloc := g.seg } := by
  obtain ⟨hsch, hmch, -, -, -, -⟩ := threadTaken_view k s
  have husch : u.sch = s.sch := hopen.sch.trans hsch
  have hstk : u.stk = _ := hopen.stk.trans (threadTaken_stk k s)
  rw [if_pos hfirst] at hstk
  have hufirst : u.isFirst k = true := by
    rw [← hfirst]
    simp only [State.isFirst, State.firstActive, State.activeSet, State.millRec, husch]
  have hmarks : vset (Vector.replicate 8 false) k false = Vector.replicate 8 false := vec_ext fun j => by
    rw [vget_vset, vget_replicate]
    split <;> rfl
  have href : (u.gap k).sRef = (s.gap k).sRef := by
    rw [hopen.gap, threadTaken_gap, if_pos hfirst, threadEntered_gap, if_pos rfl]
    rfl
  obtain ⟨g, hg, hafter⟩ := allocate_at (k := k) (s := s) (u := u.withStk { u.stk with tailMarks := vset u.stk.tailMarks k false })
    (by rw [State.millRec, State.millRec, ← husch]; rfl) (by rw [State.chan, State.chan, ← hmch, ← hopen.mch]; rfl) href
    (by rw [← show u.stk.nextSeg = s.stk.nextSeg by rw [hstk]]; rfl)
    (fun n hn => by
      have hheld : u.stk.heldNumbers = s.stk.heldNumbers := by rw [hstk]; rfl
      exact hheld ▸ hn)
  have e : entryTaken k u = allocate k (u.withStk { u.stk with tailMarks := vset u.stk.tailMarks k false }) := by
    unfold entryTaken
    rw [hufirst]
    rfl
  have hcoil : (entryTaken k u).stk.coil = u.stk.coil := by rw [e]; rfl
  refine ⟨g, by rw [hcoil]; exact hg, ?_⟩
  rw [e, hafter]
  change ({ u.stk with
    bites := vset u.stk.bites k (some g)
    nextSeg := if g.seg < 65535 then g.seg + 1 else 1
    lastAlloc := g.seg
    allocated := min 65535 (u.stk.allocated + 1)
    tailMarks := vset u.stk.tailMarks k false } : Tracker) = _
  rw [hstk]
  dsimp only
  rw [hmarks]
  rfl

theorem entryTaken_other {k : Stand} {s u : State} (hopen : Unopened (threadTaken k s) u) (hfirst : s.isFirst k = false) :
    (entryTaken k u).stk =
      { s.stk with
        tailMarks := vset s.stk.tailMarks k false
        bites := match (s.span (spanInto k)).head? with
          | some g => vset s.stk.bites k (some g)
          | none => s.stk.bites
        spans := vset s.stk.spans (spanInto k) (s.span (spanInto k)).tail } := by
  have husch : u.sch = s.sch := hopen.sch.trans (threadTaken_view k s).1
  have hstk : u.stk = s.stk := hopen.stk.trans ((threadTaken_stk k s).trans (if_neg (by rw [hfirst]; decide)))
  have hufirst : u.isFirst k = false := by
    rw [← hfirst]
    simp only [State.isFirst, State.firstActive, State.activeSet, State.millRec, husch]
  unfold entryTaken
  rw [hufirst]
  dsimp only
  rw [if_neg (by decide), takeIntoBite_stk]
  change ({ u.stk with
    tailMarks := vset u.stk.tailMarks k false
    bites := match (vget u.stk.spans (spanInto k)).head? with
      | some g => vset u.stk.bites k (some g)
      | none => u.stk.bites
    spans := vset u.stk.spans (spanInto k) (vget u.stk.spans (spanInto k)).tail } : Tracker) = _
  rw [hstk]
  rfl

/-- Settles O10: the stand is in THREAD before the trip matrix takes the entry, and the tracker takes what it leaves. -/
theorem headStartsCoil : Obligations.HeadStartsCoil := by
  intro k s threads hrun hdue hon habsent hset hready hmill hthreads
  obtain ⟨l, hend, -⟩ := endEvent_head (k := k) hrun
  have hexec := (exec_filterAccept_head hrun hdue hon habsent).trans (congrArg Host.Outcome.next hend)
  have hstrip : ∀ u : State, u.plu = (stripEntered k s).plu → u.stripPresent k = true := fun u hu => by
    have h := stripEntered_stripPresent k k s
    rw [if_pos rfl] at h
    rw [← h]
    exact stripPresent_congr (by rw [State.presence, State.presence, hu])
  have hhead : headEvent k (stripEntered k s) = standNotice k (trackHead k (seqHead k (stripEntered k s))) := rfl
  have hnotice (u : State) : Unopened u (standNotice k u) := unopened_notice _ u
  refine ⟨_, hexec, ?_⟩
  by_cases h : EntersThread k (stripEntered k s)
  · obtain ⟨hopen, hstale⟩ := seqHead_threads (s := stripEntered k s) hset hready hmill h
    have hstate : ((seqHead k (stripEntered k s)).seq k).state = .thread := by
      rw [hopen.state, (threadTaken_standing k k _).1, if_pos rfl]
    have hrolling : (seqHead k (stripEntered k s)).stk.mill = .rolling := by
      rw [hopen.stk, threadTaken_stk]
      by_cases hfirst : (stripEntered k s).isFirst k = true
      · rw [if_pos hfirst]
      · rw [if_neg hfirst]
        exact hmill.trans (if_neg (mt (isFirst_iff s k).mpr hfirst))
    have hin : (seqHead k (stripEntered k s)).inSet k = true := by
      rw [← hset]
      exact inSet_congr (congrArg ScheduleStore.active (hopen.sch.trans (threadTaken_view k _).1)) k
    have htrack : trackHead k (seqHead k (stripEntered k s)) = threadEntry k (seqHead k (stripEntered k s)) := by
      unfold trackHead
      rw [hin, hstate]
      rfl
    have hplu : (seqHead k (stripEntered k s)).plu = (stripEntered k s).plu := hopen.plu.trans (threadTaken_view k _).2.2.1
    obtain ⟨hentry, hrec⟩ := threadEntry_unopened hstate hrolling
    have hfirst := entryTaken_first hopen
    have hother := entryTaken_other hopen
    rw [hhead, htrack]
    generalize seqHead k (stripEntered k s) = d at *
    obtain ⟨-, heplu, hegce, hessq, -⟩ := entryTaken_keeps k d
    have hall := hentry.trans (hnotice (threadEntry k d))
    have hstanding (j : Stand) : (standNotice k (threadEntry k d)).standing j = (threadTaken k (stripEntered k s)).standing j := by
      rw [hall.standing, standing_congr hessq, hopen.standing]
    have hgap (j : Stand) : (standNotice k (threadEntry k d)).gap j = (threadTaken k (stripEntered k s)).gap j := by
      rw [hall.gap, State.gap, hegce, ← State.gap, hopen.gap]
    have hsame (j : Stand) := standing_iff.mp (hstanding j)
    have hself : (threadTaken k (stripEntered k s)).gap k = _ := threadTaken_gap k k (stripEntered k s)
    rw [threadEntered_gap, if_pos rfl] at hself
    generalize hg : (if (stripEntered k s).isFirst k = true then
      { ((stripEntered k s).gap k).enterThread with locked := false } else ((stripEntered k s).gap k).enterThread) = g at hself
    have hcleared : g.lockCount = 0 ∧ g.hGm = none ∧ g.locked = false := by
      rw [← hg]
      split <;> exact ⟨rfl, rfl, rfl⟩
    refine ⟨hstrip _ (hall.plu.trans (heplu.trans hplu)), fun hnot => (hstale hnot).congr ?_, fun hnot => absurd (hthreads.mpr h) hnot,
      fun _ => ⟨?_, ?_, fun j hj => ?_, ?_, ?_, ?_, fun hf => ⟨fun j => ?_, ?_⟩, fun hf => ?_⟩⟩
    · exact (recordOf_congr (by simp) _).trans (hrec _ rfl)
    · exact (hsame k).1.trans ((threadTaken_standing k k _).1.trans (if_pos rfl))
    · exact (hsame k).2.2.2.trans (threadTaken_standing k k _).2
    · exact (hsame j).1.trans ((threadTaken_standing k j _).1.trans (if_neg hj))
    · exact (congrArg GapRecord.lockCount ((hgap k).trans hself)).trans hcleared.1
    · exact (congrArg GapRecord.hGm ((hgap k).trans hself)).trans hcleared.2.1
    · exact (congrArg GapRecord.locked ((hgap k).trans hself)).trans hcleared.2.2
    · refine (congrArg GapRecord.locked (hgap j)).trans ?_
      rw [threadTaken_gap, if_pos (show (stripEntered k s).isFirst k = true from (isFirst_iff s k).mpr hf)]
    · obtain ⟨g, hg, hstk⟩ := hfirst ((isFirst_iff s k).mpr hf)
      refine ⟨g, ?_, hall.stk.trans hstk⟩
      have hcoil : (standNotice k (threadEntry k d)).stk.coil = (entryTaken k d).stk.coil := congrArg Tracker.coil hall.stk
      exact hcoil ▸ hg
    · have hnot : s.isFirst k = false := by
        rw [← Bool.not_eq_true, isFirst_iff]
        exact hf
      exact hall.stk.trans (hother hnot)
  · obtain ⟨htripped, hstk, hplu, hstale⟩ := seqHead_opens (s := stripEntered k s) hset hready hmill h
    have hnot : ¬threads := fun ht => h (hthreads.mp ht)
    have htrack : trackHead k (seqHead k (stripEntered k s)) = seqHead k (stripEntered k s) := by
      unfold trackHead
      rw [htripped]
      simp
    rw [hhead, htrack]
    generalize seqHead k (stripEntered k s) = d at *
    have hbites : (threadTaken k (stripEntered k s)).stk.bites = s.stk.bites ∧
        (threadTaken k (stripEntered k s)).stk.spans = s.stk.spans := by
      rw [threadTaken_stk]
      split <;> exact ⟨rfl, rfl⟩
    refine ⟨hstrip _ ((hnotice d).plu.trans hplu), fun _ => hstale.congr (recordOf_congr (by simp) _),
      fun _ => ⟨((hnotice d).state k).trans htripped, ?_, ?_⟩, fun ht => absurd ht hnot⟩
    · exact (congrArg Tracker.bites ((hnotice d).stk.trans hstk)).trans hbites.1
    · exact (congrArg Tracker.spans ((hnotice d).stk.trans hstk)).trans hbites.2

end Sys2Proof.Machine
end

section
/-! PROOFS. What the moves of records make of the tracker, equation by equation (R62, R64, R70 to R76). -/

namespace Sys2Proof.Machine

/-- The change leaves all but the tracker and the report queue. -/
structure Moved (s t : State) : Prop where
  sch : t.sch = s.sch
  plu : t.plu = s.plu
  gce : t.gce = s.gce
  flc : t.flc = s.flc
  mch : t.mch = s.mch
  ms : t.ms = s.ms
  tmx : t.tmx = s.tmx
  ssq : t.ssq = s.ssq

theorem Moved.refl (s : State) : Moved s s := ⟨rfl, rfl, rfl, rfl, rfl, rfl, rfl, rfl⟩

theorem Moved.trans {s t u : State} (h : Moved s t) (g : Moved t u) : Moved s u :=
  ⟨g.sch.trans h.sch, g.plu.trans h.plu, g.gce.trans h.gce, g.flc.trans h.flc, g.mch.trans h.mch, g.ms.trans h.ms,
    g.tmx.trans h.tmx, g.ssq.trans h.ssq⟩

theorem Moved.seq {s t : State} (h : Moved s t) (k : Stand) : t.seq k = s.seq k := seq_congr h.ssq k

theorem Moved.gap {s t : State} (h : Moved s t) (k : Stand) : t.gap k = s.gap k := by rw [State.gap, State.gap, h.gce]

theorem Moved.recordOf {s t : State} (h : Moved s t) (key : Key) : t.recordOf key = s.recordOf key :=
  recordOf_congr (congrArg TripMatrix.table h.tmx) key

theorem Moved.record {s t : State} (h : Moved s t) (k : Stand) : t.record k = s.record k := by
  rw [State.record, State.record, h.sch]

theorem Moved.activeSet {s t : State} (h : Moved s t) : t.activeSet = s.activeSet := by
  rw [State.activeSet, State.activeSet, State.millRec, State.millRec, h.sch]

theorem Moved.isFirst {s t : State} (h : Moved s t) (k : Stand) : t.isFirst k = s.isFirst k := by
  rw [State.isFirst, State.isFirst, State.firstActive, State.firstActive, h.activeSet]

theorem Moved.nextActive {s t : State} (h : Moved s t) (k : Stand) : t.nextActive k = s.nextActive k := by
  rw [State.nextActive, State.nextActive, h.activeSet]

/-- The scopes read the strip of the tracker's mill state alone (R139). -/
theorem Moved.scope {s t : State} (h : Moved s t) (hmill : t.stk.mill = s.stk.mill) (key : Key) :
    scopeHolds t key = scopeHolds s key :=
  scopeHolds_congr (by rw [hmill]) (fun k => by rw [h.seq]) (fun k => by rw [h.gap]; exact ⟨rfl, rfl⟩) (by rw [h.plu]) (by rw [h.sch]) key

theorem moved_withStk (t : Tracker) (s : State) : Moved s (s.withStk t) := ⟨rfl, rfl, rfl, rfl, rfl, rfl, rfl, rfl⟩

theorem moved_retire (g : Segment) (s : State) : Moved s (retire g s) := by
  refine ⟨?_, ?_, ?_, ?_, ?_, ?_, ?_, ?_⟩ <;> simp

/-! ## Retirements (R64) -/

/-- The tracker with at most one record retired (R61, R64). -/
def retireOpt (o : Option Segment) (t : Tracker) : Tracker :=
  match o with
  | none => t
  | some g => { t with ring := (t.ring ++ [g]).drop (t.ring.length - 31), retired := min 65535 (t.retired + 1) }

theorem retire_one (g : Segment) (s : State) (hr : s.stk.ring.length ≤ 32) : (retire g s).stk = retireOpt (some g) s.stk := by
  have hring := enterRing_eq s.stk.ring g hr
  rw [List.length_append, List.length_singleton, show s.stk.ring.length + 1 - 32 = s.stk.ring.length - 31 by omega] at hring
  simp [retire, retireOpt, hring, satSucc_min]

theorem retireOpt_eq (o : Option Segment) (t : Tracker) (hr : t.ring.length ≤ 32) (hn : t.retired ≤ 65535) :
    retireOpt o t = retireAll o.toList t := by
  cases o with
  | none => exact (retireAll_nil t hr hn).symm
  | some g =>
    unfold retireOpt retireAll
    simp

theorem retireOpt_bounds {o : Option Segment} {t : Tracker} (hr : t.ring.length ≤ 32) : (retireOpt o t).ring.length ≤ 32 := by
  cases o with
  | none => exact hr
  | some g =>
    simp [retireOpt]
    omega

/-! ## Pushes (R62, R73, R74, R76) -/

theorem stamp_eq (k : Stand) (s : State) (g : Segment) : stamp k s g = stampOf k s (decide ((s.seq k).state = .tripped)) g := by
  unfold stamp stampOf
  rfl

/-- What a span holds after a push, and the record that it gives up (R62). -/
def spanPush (l : List Segment) (g : Segment) : List Segment × Option Segment :=
  match l with
  | [] => ([g], none)
  | old :: rest => if rest.length < 23 then (old :: rest ++ [g], none) else (rest ++ [g], some old.asLost)

theorem pushOnto_eq (d : Stand) (g : Segment) (s : State) :
    pushOnto d g s =
      if vget s.stk.tailMarks d then (s.span (spanInto d), some g.asDiscarded) else spanPush (s.span (spanInto d)) g := by
  unfold pushOnto spanPush
  rfl

theorem spanPush_ne_nil (l : List Segment) (g : Segment) : (spanPush l g).1 ≠ [] := by
  unfold spanPush
  split
  · simp
  · split <;> simp

theorem vset_vset {α : Type} {n : Nat} (v : Vector α n) (i : Fin n) (a b : α) : vset (vset v i a) i b = vset v i b :=
  vec_ext fun j => by
    rw [vget_vset, vget_vset, vget_vset]
    split <;> rfl

theorem moved_pushSpan (j : SpanId) (g : Segment) (s : State) : Moved s (pushSpan j g s) := by
  refine ⟨?_, ?_, ?_, ?_, ?_, ?_, ?_, ?_⟩ <;> simp

theorem pushSpan_stk (j : SpanId) (g : Segment) (s : State) (hr : s.stk.ring.length ≤ 32) :
    (pushSpan j g s).stk =
      retireOpt (spanPush (s.span j) g).2 { s.stk with spans := vset s.stk.spans j (spanPush (s.span j) g).1 } := by
  unfold pushSpan Config.spanPlaces
  cases hspan : s.span j with
  | nil =>
    dsimp only [List.length_nil]
    rw [if_neg (by decide), hspan]
    rfl
  | cons old rest =>
    unfold spanPush
    rw [List.length_cons]
    dsimp only
    by_cases hlen : rest.length < 23
    · rw [if_neg (by omega), if_pos hlen, hspan]
      rfl
    · have hretire := retire_one old.asLost (s.setSpan j rest) hr
      have hself : (retire old.asLost (s.setSpan j rest)).span j = rest := by
        rw [State.span, hretire]
        exact vget_vset_self _ _ _
      rw [if_pos (by omega), if_neg hlen, hself]
      change ({ (retire old.asLost (s.setSpan j rest)).stk with
        spans := vset (retire old.asLost (s.setSpan j rest)).stk.spans j (rest ++ [g]) } : Tracker) = _
      rw [hretire]
      change ({ (retireOpt (some old.asLost) (s.setSpan j rest).stk) with
        spans := vset (vset s.stk.spans j rest) j (rest ++ [g]) } : Tracker) = _
      rw [vset_vset]
      rfl

/-- The push of a stamped record onto the span into the next stand of the set (R73, R76). -/
theorem pushOut_next {k d : Stand} (g : Segment) {s : State} (hd : s.nextActive k = some d) (hr : s.stk.ring.length ≤ 32) :
    Moved s (pushOut k g s) ∧ (pushOut k g s).stk =
      retireOpt (pushOnto d g s).2 { s.stk with spans := vset s.stk.spans (spanInto d) (pushOnto d g s).1 } := by
  unfold pushOut
  rw [hd, pushOnto_eq]
  dsimp only
  split
  · refine ⟨moved_retire _ s, (retire_one _ s hr).trans ?_⟩
    have hspan : vset s.stk.spans (spanInto d) (s.span (spanInto d)) = s.stk.spans := vset_vget _ _
    rw [hspan]
  · exact ⟨moved_pushSpan _ g s, pushSpan_stk _ g s hr⟩

/-- The push step toward the next stand of the set (R73, R74, R76). -/
theorem pushBite_next {k d : Stand} {s : State} (hd : s.nextActive k = some d) (hr : s.stk.ring.length ≤ 32) :
    Moved s (pushBite k s) ∧ (pushBite k s).stk =
      retireOpt (pushStep k d (vget s.stk.bites k) s).2
        { s.stk with
          bites := vset s.stk.bites k none
          spans := vset s.stk.spans (spanInto d) (pushStep k d (vget s.stk.bites k) s).1 } := by
  unfold pushBite pushStep
  cases hbite : vget s.stk.bites k with
  | none =>
    refine ⟨.refl s, ?_⟩
    have hbites : vset s.stk.bites k none = s.stk.bites := by
      rw [← hbite]
      exact vset_vget _ _
    have hspan : vset s.stk.spans (spanInto d) (s.span (spanInto d)) = s.stk.spans := vset_vget _ _
    dsimp only
    rw [hbites, hspan]
    rfl
  | some g =>
    dsimp only
    rw [stamp_eq]
    obtain ⟨hmoved, hstk⟩ := pushOut_next (stampOf k s (decide ((s.seq k).state = .tripped)) g) (s := s.setBite k none) hd hr
    exact ⟨(moved_withStk _ s).trans hmoved, hstk⟩

/-! ## Refills (R70, R71, R73) -/

theorem moved_refill (k : Stand) (s : State) : Moved s (refill k s) := by
  refine ⟨?_, ?_, ?_, ?_, ?_, ?_, ?_, ?_⟩ <;> simp

theorem refill_other {k : Stand} {s : State} (hfirst : s.isFirst k = false) (hbite : vget s.stk.bites k = none) :
    (refill k s).stk =
      { s.stk with
        bites := vset s.stk.bites k (s.span (spanInto k)).head?
        spans := vset s.stk.spans (spanInto k) (s.span (spanInto k)).tail } := by
  unfold refill
  rw [hfirst]
  refine (takeIntoBite_stk k s).trans ?_
  cases (s.span (spanInto k)).head? with
  | some g => rfl
  | none =>
    have hbites : vset s.stk.bites k none = s.stk.bites := by
      rw [← hbite]
      exact vset_vget _ _
    rw [hbites]

theorem refill_marked {k : Stand} {s : State} (hfirst : s.isFirst k = true) (hmark : vget s.stk.tailMarks k = true) :
    refill k s = s := by
  unfold refill
  rw [hfirst, hmark]
  rfl

theorem refill_first {k : Stand} {s : State} (hfirst : s.isFirst k = true) (hmark : vget s.stk.tailMarks k = false) :
    refill k s = allocate k s := by
  unfold refill
  rw [hfirst, hmark]
  rfl

/-! ## The numbers held (R59) -/

theorem mem_heldNumbers {n : Nat} {t : Tracker} :
    n ∈ t.heldNumbers ↔ (∃ k g, vget t.bites k = some g ∧ g.seg = n) ∨ (∃ j, ∃ g ∈ vget t.spans j, g.seg = n) ∨
      ∃ g ∈ t.ring, g.seg = n := by
  unfold Tracker.heldNumbers
  simp only [List.mem_append, List.mem_filterMap, mem_allStands, true_and, Option.map_eq_some_iff, List.mem_flatten, List.mem_map,
    or_assoc]
  refine or_congr Iff.rfl (or_congr ?_ Iff.rfl)
  constructor
  · rintro ⟨l, ⟨j, rfl⟩, hl⟩
    obtain ⟨g, hg, hn⟩ := List.mem_map.mp hl
    exact ⟨j, g, hg, hn⟩
  · rintro ⟨j, g, hg, hn⟩
    exact ⟨_, ⟨j, rfl⟩, List.mem_map.mpr ⟨g, hg, hn⟩⟩

end Sys2Proof.Machine
end

section
/-! PROOFS. The active set in order (R7, R61), and the numbers that a move of records leaves held (R59). -/

namespace Sys2Proof.Machine

/-! ## The active set -/

theorem spanInto_ne {j k : Stand} (h : j ≠ k) : spanInto j ≠ spanInto k := mt spanInto_inj.mp h

theorem spanInto_exit (k : Stand) : spanInto k = exitSpan ↔ k = 0 := by
  revert k
  decide

/-- The active set with the stands before and behind one of its stands, where it ascends (R6). -/
structure Around (k : Stand) (pre post : List Stand) (s : State) : Prop where
  set : s.activeSet = pre ++ k :: post
  before : ∀ j ∈ pre, j < k
  behind : ∀ j ∈ post, k < j

theorem around_of_ordered {k : Stand} {s : State} (hord : s.activeSet.Pairwise (· < ·)) (hset : s.inSet k = true) :
    ∃ pre post, Around k pre post s := by
  obtain ⟨pre, post, e⟩ := List.append_of_mem (List.contains_iff_mem.mp hset)
  rw [e, List.pairwise_append, List.pairwise_cons] at hord
  obtain ⟨-, ⟨hbehind, -⟩, hbefore⟩ := hord
  exact ⟨pre, post, e, fun j hj => hbefore j hj k List.mem_cons_self, hbehind⟩

section
variable {k d : Stand} {pre post : List Stand} {s : State}

theorem Around.next (h : Around k pre post s) : s.nextActive k = post.head? := by
  have hpre : pre.find? (fun j => decide (k < j)) = none := by
    rw [List.find?_eq_none]
    intro j hj
    simpa using le_of_lt (h.before j hj)
  unfold State.nextActive
  rw [h.set, List.find?_append, hpre, Option.none_or, List.find?_cons_of_neg (by simp)]
  cases hpost : post with
  | nil => rfl
  | cons d rest =>
    rw [List.find?_cons_of_pos (by simpa using h.behind d (by rw [hpost]; exact List.mem_cons_self))]
    rfl

theorem Around.prev (h : Around k pre post s) : s.prevActive k = pre.getLast? := by
  have hpre : pre.filter (fun j => decide (j < k)) = pre := List.filter_eq_self.mpr fun j hj => by simpa using h.before j hj
  have hpost : post.filter (fun j => decide (j < k)) = [] := List.filter_eq_nil_iff.mpr fun j hj => by
    simpa using le_of_lt (h.behind j hj)
  unfold State.prevActive
  rw [h.set, List.filter_append, hpre, List.filter_cons_of_neg (by simp), hpost, List.append_nil]

theorem Around.first (h : Around k pre post s) : s.isFirst k = true ↔ pre = [] := by
  unfold State.isFirst State.firstActive
  rw [h.set, beq_iff_eq]
  cases hpre : pre with
  | nil => simp
  | cons j rest =>
    have hne : j ≠ k := ne_of_lt (h.before j (by rw [hpre]; exact List.mem_cons_self))
    simp [hne]

theorem Around.last (h : Around k pre post s) : s.isLast k = true ↔ post = [] := by
  unfold State.isLast State.lastActive
  rw [h.set, beq_iff_eq]
  cases hpost : post with
  | nil => simp
  | cons j rest =>
    have hmem : (j :: rest).getLast (List.cons_ne_nil j rest) ∈ post := by
      rw [hpost]
      exact List.getLast_mem _
    have hne := (ne_of_lt (h.behind _ hmem)).symm
    rw [List.getLast?_append, List.getLast?_cons_cons, List.getLast?_eq_some_getLast (List.cons_ne_nil j rest)]
    simpa using hne

/-- The set around the stand behind. -/
theorem Around.after {rest : List Stand} (h : Around k pre (d :: rest) s) (hord : s.activeSet.Pairwise (· < ·)) :
    Around d (pre ++ [k]) rest s := by
  have hkd := h.behind d List.mem_cons_self
  refine ⟨by rw [h.set, List.append_assoc, List.singleton_append], fun j hj => ?_, fun j hj => ?_⟩
  · obtain hj | hj := List.mem_append.mp hj
    · exact (h.before j hj).trans hkd
    · rw [List.mem_singleton.mp hj]
      exact hkd
  · rw [h.set, List.pairwise_append, List.pairwise_cons, List.pairwise_cons] at hord
    obtain ⟨-, ⟨-, hrest, -⟩, -⟩ := hord
    exact hrest j hj

end

theorem nextActive_lt {k d : Stand} {s : State} (hd : s.nextActive k = some d) : k < d := by
  simpa using List.find?_some hd

theorem nextActive_mem {k d : Stand} {s : State} (hd : s.nextActive k = some d) : s.inSet d = true :=
  List.contains_iff_mem.mpr (List.mem_of_find?_eq_some hd)

theorem nextActive_last {k : Stand} {s : State} (hord : s.activeSet.Pairwise (· < ·)) (hset : s.inSet k = true) :
    s.nextActive k = none ↔ s.isLast k = true := by
  obtain ⟨pre, post, h⟩ := around_of_ordered hord hset
  rw [h.next, h.last, List.head?_eq_none_iff]

/-- The stand before the next stand of the set is the stand itself. -/
theorem prevActive_next {k d : Stand} {s : State} (hord : s.activeSet.Pairwise (· < ·)) (hset : s.inSet k = true)
    (hd : s.nextActive k = some d) : s.prevActive d = some k ∧ s.isFirst d = false := by
  obtain ⟨pre, post, h⟩ := around_of_ordered hord hset
  rw [h.next] at hd
  obtain ⟨rest, rfl⟩ := List.head?_eq_some_iff.mp hd
  have hafter := h.after hord
  refine ⟨by rw [hafter.prev]; simp, ?_⟩
  rw [← Bool.not_eq_true, hafter.first]
  simp

theorem pos_of_not_first {k : Stand} {s : State} (hord : s.activeSet.Pairwise (· < ·)) (hset : s.inSet k = true)
    (hfirst : s.isFirst k = false) : k ≠ 0 := by
  obtain ⟨pre, post, h⟩ := around_of_ordered hord hset
  rw [← Bool.not_eq_true, h.first] at hfirst
  obtain ⟨j, rest, rfl⟩ := List.exists_cons_of_ne_nil hfirst
  rintro rfl
  exact absurd (h.before j List.mem_cons_self) (Fin.not_lt_zero j)

theorem mem_downstream {j : Stand} {s : State} (hord : s.activeSet.Pairwise (· < ·)) :
    j ∈ s.downstream ↔ s.inSet j = true ∧ s.isFirst j = false := by
  unfold State.downstream State.inSet State.isFirst State.firstActive
  cases hset : s.activeSet with
  | nil => simp
  | cons a rest =>
    rw [hset, List.pairwise_cons] at hord
    obtain ⟨ha, -⟩ := hord
    simp only [List.drop_succ_cons, List.drop_zero, List.head?_cons, List.contains_iff_mem, List.mem_cons, beq_eq_false_iff_ne, ne_eq,
      Option.some.injEq]
    constructor
    · intro hj
      exact ⟨.inr hj, ne_of_lt (ha j hj)⟩
    · rintro ⟨rfl | hj, hne⟩
      · exact absurd rfl hne
      · exact hj

theorem downstream_ordered {s : State} (hord : s.activeSet.Pairwise (· < ·)) : s.downstream.Pairwise (· < ·) :=
  hord.sublist (List.drop_sublist 1 _)

/-- The exit span is the span into no stand that has one (R62). -/
theorem downstream_not_exit {j : Stand} {s : State} (hord : s.activeSet.Pairwise (· < ·)) (hj : j ∈ s.downstream) :
    spanInto j ≠ exitSpan := by
  obtain ⟨hset, hfirst⟩ := (mem_downstream hord).mp hj
  exact mt (spanInto_exit j).mp (pos_of_not_first hord hset hfirst)

/-! ## The numbers held (R59) -/

/-- Every number that the tracker holds is one of these. -/
structure Within (nums : Nat → Prop) (t : Tracker) : Prop where
  bites : ∀ k g, vget t.bites k = some g → nums g.seg
  spans : ∀ j, ∀ g ∈ vget t.spans j, nums g.seg
  ring : ∀ g ∈ t.ring, nums g.seg

theorem within_iff {nums : Nat → Prop} {t : Tracker} : Within nums t ↔ ∀ n ∈ t.heldNumbers, nums n := by
  simp only [mem_heldNumbers]
  constructor
  · rintro h n (⟨k, g, hg, rfl⟩ | ⟨j, g, hg, rfl⟩ | ⟨g, hg, rfl⟩)
    · exact h.bites k g hg
    · exact h.spans j g hg
    · exact h.ring g hg
  · exact fun h => ⟨fun k g hg => h _ (.inl ⟨k, g, hg, rfl⟩), fun j g hg => h _ (.inr (.inl ⟨j, g, hg, rfl⟩)),
      fun g hg => h _ (.inr (.inr ⟨g, hg, rfl⟩))⟩

section
variable {nums : Nat → Prop} {s : State}

theorem Within.congr {t u : Tracker} (hbites : u.bites = t.bites) (hspans : u.spans = t.spans) (hring : u.ring = t.ring)
    (h : Within nums t) : Within nums u :=
  ⟨by rw [hbites]; exact h.bites, by rw [hspans]; exact h.spans, by rw [hring]; exact h.ring⟩

theorem Within.biteOut (k : Stand) (h : Within nums s.stk) : Within nums (s.setBite k none).stk := by
  refine ⟨fun j g hg => ?_, h.spans, h.ring⟩
  change vget (vset s.stk.bites k none) j = some g at hg
  rw [vget_vset] at hg
  split at hg
  · exact nomatch hg
  · exact h.bites j g hg

theorem Within.setSpan (j : SpanId) {l : List Segment} (hl : ∀ g ∈ l, nums g.seg) (h : Within nums s.stk) :
    Within nums (s.setSpan j l).stk := by
  refine ⟨h.bites, fun i g hg => ?_, h.ring⟩
  change g ∈ vget (vset s.stk.spans j l) i at hg
  rw [vget_vset] at hg
  split at hg
  · exact hl g hg
  · exact h.spans i g hg

theorem Within.retire {g : Segment} (hg : nums g.seg) (h : Within nums s.stk) : Within nums (Machine.retire g s).stk := by
  have hring : (Machine.retire g s).stk.ring = enterRing s.stk.ring g := by simp [Machine.retire]
  refine ⟨fun k q hq => ?_, fun j q hq => ?_, fun q hq => ?_⟩
  · exact h.bites k q (by simpa [Machine.retire] using hq)
  · exact h.spans j q (by simpa [Machine.retire] using hq)
  · rw [hring, enterRing] at hq
    obtain hq | hq := List.mem_append.mp hq
    · split at hq
      · exact h.ring q hq
      · exact h.ring q (List.mem_of_mem_drop hq)
    · rw [List.mem_singleton.mp hq]
      exact hg

theorem Within.pushSpan {j : SpanId} {g : Segment} (hg : nums g.seg) (h : Within nums s.stk) :
    Within nums (Machine.pushSpan j g s).stk := by
  unfold Machine.pushSpan
  split
  · split
    next old rest hspan =>
      have hall := h.spans j
      rw [show vget s.stk.spans j = old :: rest from hspan] at hall
      have hfreed : Within nums (Machine.retire old.asLost (s.setSpan j rest)).stk :=
        (h.setSpan j fun q hq => hall q (List.mem_cons_of_mem _ hq)).retire (hall old List.mem_cons_self)
      refine hfreed.setSpan j fun q hq => ?_
      obtain hq | hq := List.mem_append.mp hq
      · exact hfreed.spans j q hq
      · rw [List.mem_singleton.mp hq]
        exact hg
    next =>
      refine h.setSpan j fun q hq => ?_
      obtain hq | hq := List.mem_append.mp hq
      · exact h.spans j q hq
      · rw [List.mem_singleton.mp hq]
        exact hg
  · refine h.setSpan j fun q hq => ?_
    obtain hq | hq := List.mem_append.mp hq
    · exact h.spans j q hq
    · rw [List.mem_singleton.mp hq]
      exact hg

theorem Within.popExit (h : Within nums s.stk) : Within nums (Machine.popExit s).stk := by
  unfold Machine.popExit
  split
  next g rest hspan =>
    have hall := h.spans exitSpan
    rw [show vget s.stk.spans exitSpan = g :: rest from hspan] at hall
    have hpopped := h.setSpan (s := s) exitSpan fun q hq => hall q (List.mem_cons_of_mem g hq)
    unfold arrive
    refine Within.retire (hall g List.mem_cons_self) ?_
    have hstale := (takeExitStale_inTracker (exitMeasurement (s.setSpan exitSpan rest)).isSome (s.setSpan exitSpan rest)).1
    have hmonitor (o : Option Nat) (u : State) (hu : Within nums u.stk) : Within nums (offerMonitor o u).stk :=
      hu.congr (by simp) (by simp) (by simp)
    exact hmonitor _ _ (hstale ▸ hpopped)
  next => exact h

theorem Within.pushOut (k : Stand) {g : Segment} (hg : nums g.seg) (h : Within nums s.stk) :
    Within nums (Machine.pushOut k g s).stk := by
  unfold Machine.pushOut
  split
  · split
    · exact h.retire hg
    · exact h.pushSpan hg
  · dsimp only
    split
    · exact (h.pushSpan hg).popExit
    · exact h.pushSpan hg

/-- A push leaves no number held that was not held before (R59). -/
theorem Within.pushBite (k : Stand) (h : Within nums s.stk) : Within nums (Machine.pushBite k s).stk := by
  unfold Machine.pushBite
  split
  next g hbite => exact (h.biteOut k).pushOut k (h.bites k g hbite)
  next => exact h

end

theorem pushBite_held (k : Stand) (s : State) : ∀ n, n ∈ (pushBite k s).stk.heldNumbers → n ∈ s.stk.heldNumbers :=
  within_iff.mp ((within_iff.mpr fun _ hn => hn : Within (· ∈ s.stk.heldNumbers) s.stk).pushBite k)

end Sys2Proof.Machine
end

section
/-! PROOFS. The exit gauge: what an arrival leaves (R77, R78, R107, R108, R149). -/

namespace Sys2Proof.Machine

/-! ## Records that a creation leaves in scope (R139) -/

theorem handedTest_inTracker (key : Key) (s : State) : handedTest true key s = handed key s := by
  unfold handedTest
  rfl

theorem createRecord_recordOf {key key' : Key} {s : State} (hnew : s.recordOf key = none)
    (hscope : scopeHolds (createRecord true key s) key' = true) :
    (createRecord true key s).recordOf key' = if key' = key then some (newRecord key s) else s.recordOf key' := by
  have hnotice (u : State) : (tripNotice key u).recordOf key' = u.recordOf key' := by simp [State.recordOf]
  have hhanded : (handedTest true key s).recordOf key' = if key' = key then some (newRecord key s) else s.recordOf key' := by
    rw [handedTest_inTracker]
    exact handed_recordOf key key' hnew
  rw [createRecord_eq] at hscope ⊢
  generalize handedTest true key s = u at *
  rw [scopeHolds_evalScopes] at hscope
  rw [recordOf_evalScopes, if_neg (by rw [hscope]; decide), hnotice, hhanded]

theorem raiseKey_inScope {key key' : Key} {s : State} (hne : key' ≠ key) (hscope : scopeHolds (raiseKey true key s) key' = true) :
    (raiseKey true key s).recordOf key' = s.recordOf key' := by
  cases hr : s.recordOf key with
  | none =>
    rw [raiseKey_of_none true hr] at hscope ⊢
    rw [createRecord_recordOf hr hscope, if_neg hne]
  | some r => rw [(raiseKey_of_record true hr).2.2.2.2, if_neg hne]

/-- A raise in scope leaves the key present (R154). -/
theorem raiseKey_present_inScope {key : Key} {s : State} (hscope : scopeHolds (raiseKey true key s) key = true) :
    (raiseKey true key s).present key = true := by
  cases hr : s.recordOf key with
  | none =>
    rw [raiseKey_of_none true hr] at hscope ⊢
    rw [State.present, createRecord_recordOf hr hscope, if_pos rfl]
    rfl
  | some r =>
    rw [State.present, (raiseKey_of_record true hr).2.2.2.2, if_pos rfl, reraised_eq]
    cases hstate : r.state <;> simp [hstate]

/-- EXIT_STALE outlasts the counts of a running mill (R149). -/
theorem handCounts_exitStale {before s : State} (hrun : s.stk.mill.running = true) :
    (handCounts before s).recordOf .exitStale = s.recordOf .exitStale := by
  have htake {key : Key} (hkey : key ≠ .exitStale) (beyond : Bool) {t : State}
      (ht : t.stk.mill.running = true ∧ t.recordOf .exitStale = s.recordOf .exitStale) :
      (takeCount key beyond t).stk.mill.running = true ∧
        (takeCount key beyond t).recordOf .exitStale = s.recordOf .exitStale := by
    have hmill : (takeCount key beyond t).stk.mill.running = true := by
      rw [(takeCount_inTracker key beyond t).1]
      exact ht.1
    refine ⟨hmill, Eq.trans ?_ ht.2⟩
    unfold takeCount at hmill ⊢
    split
    · split
      next hbeyond hscope =>
        rw [if_pos hbeyond, if_pos hscope] at hmill
        exact raiseKey_inScope hkey.symm hmill
      · rfl
    · rw [recordOf_goneKey, if_neg hkey.symm]
  refine (foldl_inv (P := fun t => t.stk.mill.running = true ∧ t.recordOf .exitStale = s.recordOf .exitStale)
    (fun t k => handCount k (s.span (spanInto k)).length t) (fun k {t} ht => ?_) _ ⟨hrun, rfl⟩).2
  unfold handCount
  split
  · exact htake (key := .stand .loopPull k) (fun e => nomatch e) _ (htake (key := .stand .loopGrow k) (fun e => nomatch e) _
      (htake (key := .stand .headOverdue k) (fun e => nomatch e) _ ht))
  · exact ht

/-! ## Integrators (R108) -/

theorem tripStand_integ (k j : Stand) (s : State) : ((tripStand k s).gap j).integ = (s.gap j).integ := by
  have hsend : ((sendOpen k s).gap j).integ = (s.gap j).integ := by
    unfold sendOpen
    split
    next r _ =>
      rw [(produceOpen_cases k r s).1 j]
      split
      next hj => rw [hj]
      next => rfl
    next => rfl
  rw [(tripStand_line k s).2.2 j, ← hsend]
  split <;> rfl

theorem openCreationAt_integ (k j : Stand) (s : State) : ((openCreationAt k s).gap j).integ = (s.gap j).integ := by
  have habort : ((abortHandover k s).gap j).integ = (s.gap j).integ := by
    unfold abortHandover
    split
    · unfold endHandover leaveHandover enterState
      split
      · have h := tripStand_integ k j (s.modSeq k fun q => { q with handover := none, localReq := false })
        simpa [State.gap] using h
      · simp [State.gap]
    · rfl
  have henter : ((enterTripped k s).gap j).integ = (s.gap j).integ := by
    rw [← tripStand_integ k j s]
    simp [State.gap, enterTripped]
  unfold openCreationAt
  split
  case h_6 => exact habort
  case h_7 | h_8 | h_9 => rfl
  all_goals exact henter

theorem createRecord_integ (key : Key) (j : Stand) (s : State) : ((createRecord true key s).gap j).integ = (s.gap j).integ := by
  have hopened (r : TripRecord) (t : State) :
      ((eachStand (fun k t => if r.covers k then openCreationAt k t else t) t).gap j).integ = (t.gap j).integ := by
    refine eachStand_inv (fun u => (u.gap j).integ = (t.gap j).integ) _ (fun k u hu => ?_) t rfl
    split
    · exact (openCreationAt_integ k j u).trans hu
    · exact hu
  have hhanded : ((handed key s).gap j).integ = (s.gap j).integ := by
    unfold handed handCreation
    dsimp only
    split
    · refine Eq.trans ?_ (hopened (newRecord key s) (evalStopLine (s.withTmx { s.tmx with table := s.tmx.table ++ [newRecord key s] })))
      simp [State.gap]
    · simp [State.gap]
  rw [createRecord_eq, ← hhanded]
  simp [State.gap, handedTest_inTracker]

theorem raiseKey_integ (key : Key) (j : Stand) (s : State) : ((raiseKey true key s).gap j).integ = (s.gap j).integ := by
  cases hr : s.recordOf key with
  | none =>
    rw [raiseKey_of_none true hr]
    exact createRecord_integ key j s
  | some r => rw [State.gap, (raiseKey_of_record true hr).2.2.1, ← State.gap]

theorem handCounts_integ (before s : State) (j : Stand) : ((handCounts before s).gap j).integ = (s.gap j).integ := by
  have htake (key : Key) (beyond : Bool) {t : State} (ht : (t.gap j).integ = (s.gap j).integ) :
      ((takeCount key beyond t).gap j).integ = (s.gap j).integ := by
    unfold takeCount
    split
    · split
      · exact (raiseKey_integ key j t).trans ht
      · exact ht
    · rw [(unopened_goneKey key t).gap]
      exact ht
  refine foldl_inv (P := fun t => (t.gap j).integ = (s.gap j).integ) _ (fun k {t} ht => ?_) _ rfl
  unfold handCount
  split
  · exact htake _ _ (htake _ _ (htake _ _ ht))
  · exact ht

/-! ## Arrivals -/

theorem takeExitStale_stale {s : State} (hrun : s.stk.mill.running = true) : takeExitStale false s = raiseKey true .exitStale s := by
  have hscope : scopeHolds s .exitStale = true := hrun
  simp [takeExitStale, hscope]

theorem arrive_fresh (g : Segment) {s : State} (hfresh : (s.chan 25).state = .fresh) :
    exitMeasurement s = some (max 0 (min 65000 (s.chan 25).value)).toNat ∧
      arrive g s = retire { g with measH := exitMeasurement s } (offerMonitor (exitMeasurement s) (goneKey .exitStale s)) := by
  have e : exitMeasurement s = some (max 0 (min 65000 (s.chan 25).value)).toNat := by
    rw [exitMeasurement, if_pos hfresh, saturate_eq _ _ _ (by decide)]
  refine ⟨e, ?_⟩
  unfold arrive
  rw [e]
  rfl

theorem arrive_stale (g : Segment) {s : State} (hstale : (s.chan 25).state ≠ .fresh) (hrun : s.stk.mill.running = true) :
    arrive g s = retire { g with measH := none } (raiseKey true .exitStale s) := by
  have e : exitMeasurement s = none := if_neg hstale
  unfold arrive
  rw [e]
  dsimp only [Option.isSome_none]
  rw [takeExitStale_stale hrun]
  rfl

/-- EXIT_STALE goes without a change of a stand, unless its record was ACKED (R115, R155). -/
theorem goneKey_ssq {key : Key} {s : State} (hack : ∀ q, s.recordOf key = some q → q.state ≠ .acked) : (goneKey key s).ssq = s.ssq := by
  obtain ⟨-, e⟩ | ⟨r, hr, ⟨-, e⟩ | ⟨hacked, -⟩ | ⟨-, e⟩⟩ := goneKey_cases key s
  · rw [e]
  · rw [e]
    simp
  · exact absurd hacked (hack r hr)
  · rw [e]

/-- What an offer to the monitor makes of the hold count and the integrators (R78, R107, R108). -/
theorem offerMonitor_measured {h : Nat} {m : MillRecord} {s : State} (hm : s.millRec = some m) :
    (offerMonitor (some h) s).stk.hold =
        (if s.stk.hold = 0 then (if ((h : Int) - exitTarget s).natAbs ≤ m.mdb then 0 else m.nHold) else s.stk.hold - 1) ∧
      ∀ j, ((offerMonitor (some h) s).gap j) =
        if s.stk.hold = 0 ∧ m.mdb < ((h : Int) - exitTarget s).natAbs then
          (stepIntegrators ((h : Int) - exitTarget s) m.km s).gap j else s.gap j := by
  unfold offerMonitor
  rw [hm]
  dsimp only
  split
  next hhold =>
    split
    next hsmall => exact ⟨hhold, fun j => (if_neg fun e => absurd hsmall (by omega)).symm⟩
    next hlarge => exact ⟨rfl, fun j => (if_pos ⟨hhold, by omega⟩).symm⟩
  next hhold => exact ⟨rfl, fun j => (if_neg fun e => hhold e.1).symm⟩

theorem stepIntegrators_integ (e : Int) (km : Nat) (s : State) (j : Stand) :
    ((stepIntegrators e km s).gap j).integ =
      match s.record j with
      | some r =>
        if s.inSet j = true ∧ (s.seq j).state = .roll ∧ (s.seq j).frozen = false ∧ 0 < r.ms then
          max (-(r.iLim : Int)) (min r.iLim ((s.gap j).integ + roundDiv (e * km * r.ms) 65536))
        else (s.gap j).integ
      | none => (s.gap j).integ := by
  unfold stepIntegrators
  rw [modGaps_gap]
  cases hr : s.record j with
  | none => rfl
  | some r =>
    dsimp only
    unfold monitorReaches
    rw [hr]
    simp only [Option.elim_some, Bool.and_eq_true, beq_iff_eq, Bool.not_eq_true', decide_eq_true_eq, and_assoc]
    split
    · exact saturate_eq _ _ _ (by omega)
    · rfl

theorem arrive_exit {g : Segment} {m : MillRecord} {target : Nat} {s : State} (hm : s.millRec = some m)
    (htarget : exitTarget s = target) (hrun : s.stk.mill.running = true) (hring : s.stk.ring.length ≤ 32)
    (hack : ∀ q, s.recordOf .exitStale = some q → q.state ≠ .acked) : ExitArrival g m target s (arrive g s) := by
  have hafter (o : Option Nat) {u : State} (hu : u.stk.ring = s.stk.ring) (hn : u.stk.retired = s.stk.retired) :
      (retire { g with measH := o } u).stk.ring = (s.stk.ring ++ [{ g with measH := o }]).drop (s.stk.ring.length - 31) ∧
        (retire { g with measH := o } u).stk.retired = min 65535 (s.stk.retired + 1) ∧
        (retire { g with measH := o } u).stk.hold = u.stk.hold ∧ ∀ j, (retire { g with measH := o } u).gap j = u.gap j := by
    have h := retire_one { g with measH := o } u (by rw [hu]; exact hring)
    refine ⟨by rw [h, ← hu]; rfl, by rw [h, ← hn]; rfl, by rw [h]; rfl, fun j => (moved_retire _ u).gap j⟩
  by_cases hfresh : (s.chan 25).state = .fresh
  · obtain ⟨hmeas, e⟩ := arrive_fresh g hfresh
    have hgone := unopened_goneKey .exitStale s
    have hssq := goneKey_ssq hack
    have hpresent := goneKey_present .exitStale s
    have hmonitor (h : Nat) := offerMonitor_measured (h := h) (m := m) (s := goneKey .exitStale s)
      (by rw [State.millRec, hgone.sch]; exact hm)
    have hinteg (x : Int) := stepIntegrators_integ x m.km (goneKey .exitStale s)
    have htarget' : exitTarget (goneKey .exitStale s) = target := by
      rw [← htarget]
      have hrec : (goneKey .exitStale s).record = s.record := funext fun j => by rw [State.record, hgone.sch, ← State.record]
      simp only [exitTarget, State.lastActive, State.activeSet, State.millRec, hrec, hgone.sch]
    rw [e, hmeas]
    generalize hh : (max 0 (min 65000 (s.chan 25).value)).toNat = h at *
    have hu := hmonitor h
    rw [htarget', hgone.stk] at hu
    obtain ⟨hhold, hgap⟩ := hu
    obtain ⟨hr, hn, hholds, hgaps⟩ := hafter (some h) (u := offerMonitor (some h) (goneKey .exitStale s))
      (by simp) (by simp)
    have hrec (j : Stand) : (goneKey .exitStale s).record j = s.record j := by rw [State.record, hgone.sch, ← State.record]
    have hin (j : Stand) : (goneKey .exitStale s).inSet j = s.inSet j := inSet_congr (by rw [hgone.sch]) j
    refine ⟨some h, by rw [if_pos hfresh, hh], ?_, hr, hn, (fun hno => nomatch hno), fun h' x hsome hx => ?_⟩
    · exact (present_congr (recordOf_congr (by simp) _)).trans hpresent
    · obtain rfl : h = h' := Option.some.inj hsome
      subst hx
      rw [hholds, hhold]
      have hkept (hc : ¬(s.stk.hold = 0 ∧ m.mdb < ((h : Int) - target).natAbs)) (j : Stand) :
          ((retire { g with measH := some h } (offerMonitor (some h) (goneKey .exitStale s))).gap j).integ = (s.gap j).integ := by
        rw [hgaps, hgap, if_neg hc, hgone.gap]
      refine ⟨fun hpos => ⟨if_neg (by omega), hkept (by omega)⟩, fun hzero hsmall => ⟨?_, hkept (by omega)⟩,
        fun hzero hlarge => ⟨?_, fun j => ?_⟩⟩
      · rw [if_pos hzero, if_pos hsmall]
      · rw [if_pos hzero, if_neg (by omega)]
      · rw [hgaps, hgap, if_pos ⟨hzero, hlarge⟩, hinteg, hrec, hin, hgone.gap, seq_congr hssq] <;> rfl
  · have hraise := raiseKey_inTracker .exitStale s
    obtain ⟨hr, hn, hholds, hgaps⟩ := hafter none (u := raiseKey true .exitStale s) (by rw [hraise.1]) (by rw [hraise.1])
    have hpresent : (raiseKey true .exitStale s).present .exitStale = true :=
      raiseKey_present_inScope (show (raiseKey true .exitStale s).stk.mill.running = true by rw [hraise.1]; exact hrun)
    rw [arrive_stale g hfresh hrun]
    refine ⟨none, by rw [if_neg hfresh], ?_, hr, hn, fun _ => ⟨?_, fun j => ?_⟩, (fun _ _ hno => nomatch hno)⟩
    · exact (present_congr (recordOf_congr (by simp) _)).trans hpresent
    · rw [hholds, hraise.1]
    · rw [hgaps]
      exact raiseKey_integ _ j s

theorem ExitArrival.congr {g : Segment} {m : MillRecord} {target : Nat} {s t u : State}
    (hpresent : u.present .exitStale = t.present .exitStale) (hring : u.stk.ring = t.stk.ring)
    (hretired : u.stk.retired = t.stk.retired) (hhold : u.stk.hold = t.stk.hold)
    (hinteg : ∀ j, (u.gap j).integ = (t.gap j).integ) (h : ExitArrival g m target s t) : ExitArrival g m target s u := by
  unfold ExitArrival at h ⊢
  simpa only [hpresent, hring, hretired, hhold, hinteg] using h

end Sys2Proof.Machine
end

section
/-! PROOFS. Moves of records that open no stand, and the spans that they touch (R62, R73, R76, R77). -/

namespace Sys2Proof.Machine

/-- Records have moved, and nothing that came with it has opened a stand: the stands are in what they were in, and a gap record
keeps all but its integrator. -/
structure Drawn (s t : State) : Prop where
  sch : t.sch = s.sch
  plu : t.plu = s.plu
  flc : t.flc = s.flc
  mch : t.mch = s.mch
  ms : t.ms = s.ms
  mill : t.stk.mill.running = s.stk.mill.running
  standing : t.standing = s.standing
  gap : ∀ k, t.gap k = { s.gap k with integ := (t.gap k).integ }
  aged : ∀ key, key ≠ .exitStale → Aged key s t

theorem Drawn.refl (s : State) : Drawn s s := ⟨rfl, rfl, rfl, rfl, rfl, rfl, rfl, fun _ => rfl, fun key _ => .refl key s⟩

theorem Drawn.trans {s t u : State} (h : Drawn s t) (g : Drawn t u) : Drawn s u :=
  ⟨g.sch.trans h.sch, g.plu.trans h.plu, g.flc.trans h.flc, g.mch.trans h.mch, g.ms.trans h.ms, g.mill.trans h.mill,
    g.standing.trans h.standing, fun k => by rw [g.gap, h.gap], fun key hkey => (h.aged key hkey).trans (g.aged key hkey)⟩

theorem Moved.drawn {s t : State} (h : Moved s t) (hmill : t.stk.mill = s.stk.mill) : Drawn s t :=
  ⟨h.sch, h.plu, h.flc, h.mch, h.ms, by rw [hmill], standing_congr h.ssq, fun k => by rw [h.gap],
    fun key _ => aged_of_table (congrArg TripMatrix.table h.tmx)⟩

theorem Unopened.drawn {s t : State} (h : Unopened s t) (haged : ∀ key, key ≠ .exitStale → Aged key s t) : Drawn s t :=
  ⟨h.sch, h.plu, h.flc, h.mch, h.ms, by rw [h.stk], h.standing, fun k => by rw [h.gap], haged⟩

section
variable {s t : State}

theorem Drawn.state (h : Drawn s t) (k : Stand) : (t.seq k).state = (s.seq k).state :=
  (standing_iff.mp (congrFun h.standing k)).1

theorem Drawn.scope (h : Drawn s t) (key : Key) : scopeHolds t key = scopeHolds s key :=
  scopeHolds_congr h.mill h.state (fun k => by rw [h.gap]; exact ⟨rfl, rfl⟩) (by rw [h.plu]) (by rw [h.sch]) key

theorem Drawn.activeSet (h : Drawn s t) : t.activeSet = s.activeSet := by
  rw [State.activeSet, State.activeSet, State.millRec, State.millRec, h.sch]

theorem Drawn.noTripOf {key : Key} (h : Drawn s t) (hkey : key ≠ .exitStale) (hno : NoTripOf key s) : NoTripOf key t := by
  unfold NoTripOf at hno ⊢
  rw [h.sch, h.scope]
  exact hno.imp_right (Or.imp_left (aged_not_acked (h.aged key hkey)))

end

theorem moved_setSpan (j : SpanId) (l : List Segment) (s : State) : Moved s (s.setSpan j l) := moved_withStk _ s

theorem moved_setBite (k : Stand) (b : Option Segment) (s : State) : Moved s (s.setBite k b) := moved_withStk _ s

/-! ## Arrivals that open no stand (R77, R149) -/

/-- An arrival can open no stand: the gauge is FRESH, or the action of EXIT_STALE is below OPEN (R122, R149). -/
def GaugeQuiet (s : State) : Prop :=
  (s.chan 25).state = .fresh ∨ vget s.sch.config.actions 11 = .note ∨ vget s.sch.config.actions 11 = .freeze

theorem takeExitStale_drawn {s : State} (h : GaugeQuiet s) : Drawn s (takeExitStale (exitMeasurement s).isSome s) := by
  have haged {key : Key} (hkey : key ≠ .exitStale) (fresh : Bool) : Aged key s (takeExitStale fresh s) := by
    unfold takeExitStale
    split
    · exact goneKey_other hkey s
    · split
      · exact raiseKey_other true hkey s
      · exact .refl key s
  refine Unopened.drawn ?_ fun key hkey => haged hkey _
  unfold takeExitStale exitMeasurement
  by_cases hfresh : (s.chan 25).state = .fresh
  · rw [if_pos hfresh]
    exact unopened_goneKey _ s
  · rw [if_neg hfresh, Option.isSome_none, if_neg (by decide)]
    split
    · exact unopened_raiseKey true (.inl ((openClass_false_iff _).mpr (h.resolve_left hfresh)))
    · exact .refl s

theorem offerMonitor_drawn (meas : Option Nat) (s : State) : Drawn s (offerMonitor meas s) := by
  have hsteps (e : Int) (km : Nat) (k : Stand) :
      (stepIntegrators e km s).gap k = { s.gap k with integ := ((stepIntegrators e km s).gap k).integ } := by
    unfold stepIntegrators
    rw [modGaps_gap]
    split
    · split <;> rfl
    · rfl
  refine ⟨by simp, by simp, by simp, by simp, by simp, by simp, standing_congr (by simp), fun k => ?_,
    fun key _ => aged_of_table (by simp)⟩
  unfold offerMonitor
  split
  · split
    · dsimp only
      split
      · rfl
      · exact hsteps _ _ k
    · rfl
  · rfl

theorem arrive_drawn (g : Segment) {s : State} (h : GaugeQuiet s) : Drawn s (arrive g s) := by
  unfold arrive
  exact ((takeExitStale_drawn h).trans (offerMonitor_drawn _ _)).trans ((moved_retire _ _).drawn (by simp))

theorem popExit_drawn {s : State} (h : GaugeQuiet s) : Drawn s (popExit s) := by
  unfold popExit
  split
  next g rest _ => exact ((moved_setSpan exitSpan rest s).drawn rfl).trans (arrive_drawn g (s := s.setSpan exitSpan rest) h)
  next => exact .refl s

/-! ## Pushes (R73, R76, R77) -/

/-- A push of the stand brings no record to the exit gauge, or one that opens no stand. -/
def PushQuiet (k : Stand) (s : State) : Prop :=
  s.nextActive k ≠ none ∨ GaugeQuiet s ∨ ∃ m, s.millRec = some m ∧ (s.span exitSpan).length < m.nX

theorem pushSpan_self (j : SpanId) (g : Segment) (s : State) : (pushSpan j g s).span j =
    if 24 ≤ (s.span j).length then (s.span j).tail ++ [g] else s.span j ++ [g] := by
  by_cases hroom : (s.span j).length < 24
  · rw [pushSpan_of_room j g s hroom, if_neg (by omega)]
    exact vget_vset_self _ _ _
  · obtain ⟨old, rest, hspan⟩ : ∃ old rest, s.span j = old :: rest := List.exists_cons_of_ne_nil (by
      rintro e
      exact hroom (by rw [e]; decide))
    rw [pushSpan_of_full j g old rest s hspan (by omega), if_pos (by omega), hspan]
    exact vget_vset_self _ _ _

theorem pushSpan_other {i j : SpanId} (hj : j ≠ i) (g : Segment) (s : State) : (pushSpan i g s).span j = s.span j := by
  by_cases hroom : (s.span i).length < 24
  · rw [pushSpan_of_room i g s hroom]
    exact vget_vset_ne _ _ hj
  · obtain ⟨old, rest, hspan⟩ : ∃ old rest, s.span i = old :: rest := List.exists_cons_of_ne_nil (by
      rintro e
      exact hroom (by rw [e]; decide))
    rw [pushSpan_of_full i g old rest s hspan (by omega)]
    refine (vget_vset_ne _ _ hj).trans ?_
    have hretire : (retire old.asLost (s.setSpan i rest)).stk.spans = (s.setSpan i rest).stk.spans := by simp [retire]
    rw [hretire]
    exact vget_vset_ne _ _ hj

theorem pushSpan_mill (j : SpanId) (g : Segment) (s : State) : (pushSpan j g s).stk.mill = s.stk.mill := by
  unfold pushSpan
  split
  · split
    · have hretire (q : Segment) (u : State) : (retire q u).stk.mill = u.stk.mill := by simp
      exact hretire _ _
    · rfl
  · rfl

theorem pushOut_drawn {k : Stand} (g : Segment) {s : State} (h : PushQuiet k s) : Drawn s (pushOut k g s) := by
  have hpush (j : SpanId) : Drawn s (pushSpan j g s) := (moved_pushSpan j g s).drawn (pushSpan_mill j g s)
  unfold pushOut
  split
  · split
    · exact (moved_retire _ s).drawn (by simp)
    · exact hpush _
  next hnext =>
    have hsch := (hpush exitSpan).sch
    dsimp only
    split
    next hlong =>
      obtain hd | hquiet | ⟨m, hm, hshort⟩ := h
      · exact absurd hnext hd
      · refine (hpush exitSpan).trans (popExit_drawn ?_)
        unfold GaugeQuiet
        rw [hsch, State.chan, (hpush exitSpan).mch, ← State.chan]
        exact hquiet
      · have hm' : (pushSpan exitSpan g s).millRec = some m := by rw [State.millRec, hsch]; exact hm
        rw [hm', pushSpan_self] at hlong
        dsimp only [Option.elim_some] at hlong
        split at hlong <;> simp at hlong <;> omega
    next => exact hpush exitSpan

theorem pushBite_drawn {k : Stand} {s : State} (h : PushQuiet k s) : Drawn s (pushBite k s) := by
  unfold pushBite
  split
  next g _ => exact ((moved_setBite k none s).drawn rfl).trans (pushOut_drawn (s := s.setBite k none) _ h)
  next => exact .refl s

theorem refill_mill (k : Stand) (s : State) : (refill k s).stk.mill = s.stk.mill := by
  unfold refill
  split
  · split <;> rfl
  · rw [takeIntoBite_stk]

/-- A bite advance that moves the strip, before the counts are handed (R73). -/
def advanced (k : Stand) (s : State) : State := refill k (pushBite k s)

theorem advanced_drawn {k : Stand} {s : State} (h : PushQuiet k s) : Drawn s (advanced k s) :=
  (pushBite_drawn h).trans ((moved_refill k _).drawn (refill_mill k _))

/-! ## The spans touched (R63) -/

theorem popExit_other {j : SpanId} (hj : j ≠ exitSpan) (s : State) : (popExit s).span j = s.span j := by
  unfold popExit
  split
  next g rest _ =>
    have harrive (u : State) : (arrive g u).stk.spans = u.stk.spans := by
      unfold arrive
      have hstale := (takeExitStale_inTracker (exitMeasurement u).isSome u).1
      simp [hstale]
    rw [State.span, harrive]
    exact vget_vset_ne _ _ hj
  next => rfl

/-- The span that a push of the stand goes to. -/
def pushesTo (k : Stand) (s : State) : SpanId :=
  match s.nextActive k with
  | some d => spanInto d
  | none => exitSpan

theorem pushBite_other {k : Stand} {j : SpanId} {s : State} (hj : j ≠ pushesTo k s) : (pushBite k s).span j = s.span j := by
  unfold pushesTo at hj
  unfold pushBite
  split
  next g _ =>
    unfold pushOut
    rw [show (s.setBite k none).nextActive k = s.nextActive k from rfl]
    cases hnext : s.nextActive k with
    | some d =>
      rw [hnext] at hj
      dsimp only at hj ⊢
      split
      · have hretire (q : Segment) (u : State) : (retire q u).span j = u.span j := by simp [State.span, retire]
        exact hretire _ _
      · exact pushSpan_other hj _ _
    | none =>
      rw [hnext] at hj
      dsimp only at hj ⊢
      have hpush := pushSpan_other hj (stamp k s g) (s.setBite k none)
      split
      · exact (popExit_other hj _).trans hpush
      · exact hpush
  next => rfl

theorem refill_other_span {k : Stand} {j : SpanId} (hj : j ≠ spanInto k) (s : State) : (refill k s).span j = s.span j := by
  unfold refill
  split
  · split <;> rfl
  · rw [State.span, takeIntoBite_stk]
    exact vget_vset_ne _ _ hj

theorem pushBite_activeSet (k : Stand) (s : State) : (pushBite k s).activeSet = s.activeSet := by
  rw [State.activeSet, State.activeSet, State.millRec, State.millRec, pushBite_sch]

/-- A stand of the set whose span a push touches is the next one. -/
theorem pushBite_touched {j k : Stand} {s : State} (hord : s.activeSet.Pairwise (· < ·)) (hdown : j ∈ s.downstream)
    (htouched : spanTouched s (pushBite k s) j = true) : s.nextActive k = some j := by
  by_contra hne
  have hj : spanInto j ≠ pushesTo k s := by
    unfold pushesTo
    cases hnext : s.nextActive k with
    | some d =>
      refine spanInto_ne ?_
      rintro rfl
      exact hne hnext
    | none => exact downstream_not_exit hord hdown
  rw [spanTouched, pushBite_other hj, bne_self_eq_false] at htouched
  exact Bool.noConfusion htouched

theorem advanced_touched {j k : Stand} {s : State} (hord : s.activeSet.Pairwise (· < ·)) (hdown : j ∈ s.downstream)
    (htouched : spanTouched s (advanced k s) j = true) : j = k ∨ s.nextActive k = some j := by
  by_cases hj : j = k
  · exact .inl hj
  · refine .inr (pushBite_touched hord hdown ?_)
    rw [spanTouched, advanced, refill_other_span (spanInto_ne hj)] at htouched
    exact htouched

theorem popExit_touched {j : Stand} {s : State} (hord : s.activeSet.Pairwise (· < ·)) (hdown : j ∈ s.downstream) :
    spanTouched s (popExit s) j = false := by
  rw [spanTouched, popExit_other (downstream_not_exit hord hdown), bne_self_eq_false]

/-! ## The end of the event (R63, R79) -/

/-- Mill empty awaits the last record and the last stand in THREAD or ROLL (R79). -/
theorem millEmptyTest_of {s : State} (h : s.stk.heldCount ≠ 0 ∨ ∃ k, s.inSet k = true ∧ (s.seq k).state.rolling = true) :
    millEmptyTest s = s := by
  obtain ⟨hempty, -⟩ | ⟨-, e⟩ := millEmptyTest_cases s
  · have hnone := hempty
    unfold State.millIsEmpty at hnone
    simp only [Bool.and_eq_true, noSegments_iff] at hnone
    obtain ⟨⟨-, hheld⟩, -⟩ := hnone
    obtain hne | ⟨k, hset, hroll⟩ := h
    · exact absurd hheld hne
    · exact nomatch (millIsEmpty_rolling hempty k hset).symm.trans hroll
  · exact e

theorem endTracker_held {before s : State} (h : s.stk.heldCount ≠ 0) : endTracker before s = handCounts before s := by
  unfold endTracker
  exact millEmptyTest_of (.inl (by rw [(handCounts_inTracker before s).1]; exact h))

theorem heldCount_ne_of_span {t : Tracker} (j : SpanId) (h : vget t.spans j ≠ []) : t.heldCount ≠ 0 :=
  fun e => h ((heldCount_eq_zero t).mp e j).2

theorem heldCount_ne_of_bite {t : Tracker} (k : Stand) (h : vget t.bites k ≠ none) : t.heldCount ≠ 0 :=
  fun e => h ((heldCount_eq_zero t).mp e k).1

/-! ## The coil's own items (R61) -/

/-- The coil's number and counts, the numbering and the marks stand as they were. -/
structure SameCoil (t u : Tracker) : Prop where
  mill : u.mill = t.mill
  coil : u.coil = t.coil
  allocated : u.allocated = t.allocated
  nextSeg : u.nextSeg = t.nextSeg
  lastAlloc : u.lastAlloc = t.lastAlloc
  tailMarks : u.tailMarks = t.tailMarks

theorem SameCoil.refl (t : Tracker) : SameCoil t t := ⟨rfl, rfl, rfl, rfl, rfl, rfl⟩

theorem SameCoil.trans {t u v : Tracker} (h : SameCoil t u) (g : SameCoil u v) : SameCoil t v :=
  ⟨g.mill.trans h.mill, g.coil.trans h.coil, g.allocated.trans h.allocated, g.nextSeg.trans h.nextSeg,
    g.lastAlloc.trans h.lastAlloc, g.tailMarks.trans h.tailMarks⟩

theorem sameCoil_retire (g : Segment) (s : State) : SameCoil s.stk (retire g s).stk := by
  refine ⟨?_, ?_, ?_, ?_, ?_, ?_⟩ <;> simp [retire]

theorem sameCoil_arrive (g : Segment) (s : State) : SameCoil s.stk (arrive g s).stk := by
  unfold arrive
  refine SameCoil.trans ?_ (sameCoil_retire _ _)
  have hstale := (takeExitStale_inTracker (exitMeasurement s).isSome s).1
  refine ⟨?_, ?_, ?_, ?_, ?_, ?_⟩ <;> simp [hstale]

theorem sameCoil_popExit (s : State) : SameCoil s.stk (popExit s).stk := by
  unfold popExit
  split
  next g rest _ => exact SameCoil.trans (u := (s.setSpan exitSpan rest).stk) ⟨rfl, rfl, rfl, rfl, rfl, rfl⟩ (sameCoil_arrive g _)
  next => exact .refl s.stk

theorem sameCoil_pushSpan (j : SpanId) (g : Segment) (s : State) : SameCoil s.stk (pushSpan j g s).stk := by
  unfold pushSpan
  split
  · split
    next old rest _ =>
      have h := sameCoil_retire old.asLost (s.setSpan j rest)
      exact ⟨h.mill, h.coil, h.allocated, h.nextSeg, h.lastAlloc, h.tailMarks⟩
    next => exact ⟨rfl, rfl, rfl, rfl, rfl, rfl⟩
  · exact ⟨rfl, rfl, rfl, rfl, rfl, rfl⟩

theorem sameCoil_pushBite (k : Stand) (s : State) : SameCoil s.stk (pushBite k s).stk := by
  unfold pushBite
  split
  next g _ =>
    refine SameCoil.trans (u := (s.setBite k none).stk) ⟨rfl, rfl, rfl, rfl, rfl, rfl⟩ ?_
    unfold pushOut
    split
    · split
      · exact sameCoil_retire _ _
      · exact sameCoil_pushSpan _ _ _
    · dsimp only
      split
      · exact (sameCoil_pushSpan _ _ _).trans (sameCoil_popExit _)
      · exact sameCoil_pushSpan _ _ _
  next => exact .refl s.stk

theorem advanced_mill (k : Stand) (s : State) : (advanced k s).stk.mill = s.stk.mill :=
  (refill_mill k _).trans (sameCoil_pushBite k s).mill

end Sys2Proof.Machine
end

section
/-! PROOFS. The counts of a bite advance: which spans are handed, and the records that they raise (R63, R146, R147). -/

namespace Sys2Proof.Machine

/-! ## One count -/

/-- A record of the key stands, with this action and one occurrence (R153, R154). -/
def Raised (key : Key) (a : Action) (t : State) : Prop :=
  ∃ q, t.recordOf key = some q ∧ q.action = a ∧ q.occ = 1 ∧ q.state ≠ .acked

theorem Raised.aged {key : Key} {a : Action} {s t : State} (haged : Aged key s t) (h : Raised key a s) : Raised key a t := by
  obtain ⟨q, hq, ha, hocc, hstate⟩ := h
  obtain e | ⟨-, e⟩ := haged
  · exact ⟨q, e.trans hq, ha, hocc, hstate⟩
  · rw [hq, Option.bind_some, gone_eq, if_neg hstate] at e
    exact ⟨_, e, ha, hocc, (fun h => nomatch h)⟩

theorem cond_ne {c c' : StandCond} (hne : c' ≠ c) (k : Stand) : Key.stand c' k ≠ Key.stand c k :=
  fun e => hne (Key.stand.inj e).1

/-- A count beyond its threshold raises its key in scope (R146, R147, R154). -/
theorem takeCount_raises {key : Key} {s : State} (hnew : s.recordOf key = none) (hscope : scopeHolds s key = true) :
    Raised key (vget s.sch.config.actions key.row) (takeCount key true s) := by
  have e : takeCount key true s = createRecord true key s := by
    unfold takeCount
    rw [if_pos rfl, if_pos hscope, raiseKey_of_none true hnew]
  rw [e]
  obtain h | ⟨-, h⟩ := createRecord_record true key hnew
  · exact ⟨_, h, rfl, rfl, (fun e => nomatch e)⟩
  · exact ⟨_, h, rfl, rfl, (fun e => nomatch e)⟩

/-- A count within its threshold, or out of scope, opens no stand and leaves the other records (R146, R147). -/
theorem takeCount_quiet {key : Key} {beyond : Bool} {s : State} (h : beyond = false ∨ scopeHolds s key = false) :
    Unopened s (takeCount key beyond s) ∧ ∀ key', key' ≠ key → (takeCount key beyond s).recordOf key' = s.recordOf key' := by
  have hgone : Unopened s (goneKey key s) ∧ ∀ key', key' ≠ key → (goneKey key s).recordOf key' = s.recordOf key' :=
    ⟨unopened_goneKey key s, fun key' hne => by rw [recordOf_goneKey, if_neg hne]⟩
  unfold takeCount
  split
  next hbeyond =>
    rw [if_neg (by rw [h.resolve_left (by rw [hbeyond]; decide)]; decide)]
    exact ⟨.refl s, fun _ _ => rfl⟩
  next => exact hgone

theorem aged_takeCount_cond {c c' : StandCond} (hne : c' ≠ c) (k : Stand) (beyond : Bool) (s : State) :
    Aged (.stand c' k) s (takeCount (.stand c k) beyond s) :=
  aged_takeCount (cond_ne hne k) beyond s

theorem aged_handCount_other {key : Key} {k : Stand} (hkey : ∀ c, key ≠ .stand c k) (n : Nat) (s : State) :
    Aged key s (handCount k n s) := by
  unfold handCount
  split
  · exact ((aged_takeCount (hkey _) _ s).trans (aged_takeCount (hkey _) _ _)).trans (aged_takeCount (hkey _) _ _)
  · exact .refl key s

/-! ## One span -/

section
variable {k : Stand} {n : Nat} {e : SpanEntry} {s : State} (he : s.spanEntry k = some e)
include he

/-- A span's count pulls its loop taut (R147). -/
theorem handCount_pulls (hcount : (n : Int) < (e.n : Int) - e.t) (hnew : s.recordOf (.stand .loopPull k) = none)
    (hscope : scopeHolds s (.stand .loopPull k) = true) :
    Raised (.stand .loopPull k) (vget s.sch.config.actions 9) (handCount k n s) := by
  unfold handCount
  rw [he]
  dsimp only
  have h1 := takeCount_quiet (key := .stand .headOverdue k) (s := s) (.inl (decide_eq_false (p := e.n + e.h ≤ n) (by omega)))
  have h2 := takeCount_quiet (key := .stand .loopGrow k) (s := takeCount (.stand .headOverdue k) (decide (e.n + e.h ≤ n)) s)
    (.inl (decide_eq_false (p := e.n + e.t < n) (by omega)))
  rw [decide_eq_true hcount, ← (h1.1.trans h2.1).sch]
  refine takeCount_raises ?_ ?_
  · rw [h2.2 _ (cond_ne (by decide) k), h1.2 _ (cond_ne (by decide) k), hnew]
  · rw [(h1.1.trans h2.1).scope, hscope]

/-- A span's count lets its loop grow (R147). -/
theorem handCount_grows (hcount : e.n + e.t < n) (hover : scopeHolds s (.stand .headOverdue k) = false)
    (hnew : s.recordOf (.stand .loopGrow k) = none) (hscope : scopeHolds s (.stand .loopGrow k) = true) :
    Raised (.stand .loopGrow k) (vget s.sch.config.actions 8) (handCount k n s) := by
  unfold handCount
  rw [he]
  dsimp only
  have h1 := takeCount_quiet (key := .stand .headOverdue k) (beyond := decide (e.n + e.h ≤ n)) (s := s) (.inr hover)
  rw [decide_eq_true hcount, ← h1.1.sch]
  refine (takeCount_raises ?_ ?_).aged (aged_takeCount_cond (by decide) k _ _)
  · rw [h1.2 _ (cond_ne (by decide) k), hnew]
  · rw [h1.1.scope, hscope]

/-- A span's count finds its head overdue (R146). -/
theorem handCount_overdue (hcount : e.n + e.h ≤ n) (hnew : s.recordOf (.stand .headOverdue k) = none)
    (hscope : scopeHolds s (.stand .headOverdue k) = true) :
    Raised (.stand .headOverdue k) (vget s.sch.config.actions 7) (handCount k n s) := by
  unfold handCount
  rw [he]
  dsimp only
  rw [decide_eq_true hcount]
  exact ((takeCount_raises hnew hscope).aged (aged_takeCount_cond (by decide) k _ _)).aged (aged_takeCount_cond (by decide) k _ _)

end

/-- A span's count raises nothing (R146, R147). -/
theorem handCount_quiet {k : Stand} {n : Nat} {s : State} (hover : scopeHolds s (.stand .headOverdue k) = false)
    (hloop : loopScope k s = false ∨ ∀ e, s.spanEntry k = some e → n ≤ e.n + e.t ∧ e.n ≤ n + e.t) :
    Unopened s (handCount k n s) ∧ ∀ key, (∀ c, key ≠ .stand c k) → (handCount k n s).recordOf key = s.recordOf key := by
  unfold handCount
  cases he : s.spanEntry k with
  | none => exact ⟨.refl s, fun _ _ => rfl⟩
  | some e =>
    have hwithin : loopScope k s = false ∨ n ≤ e.n + e.t ∧ e.n ≤ n + e.t := hloop.imp_right fun h => h e he
    have h1 := takeCount_quiet (key := .stand .headOverdue k) (beyond := decide (e.n + e.h ≤ n)) (s := s) (.inr hover)
    have h2 := takeCount_quiet (key := .stand .loopGrow k) (beyond := decide (e.n + e.t < n))
      (s := takeCount (.stand .headOverdue k) (decide (e.n + e.h ≤ n)) s) (by
        obtain hout | hin := hwithin
        · exact .inr ((h1.1.scope _).trans hout)
        · exact .inl (decide_eq_false (by omega)))
    have h3 := takeCount_quiet (key := .stand .loopPull k) (beyond := decide ((n : Int) < (e.n : Int) - e.t))
      (s := takeCount (.stand .loopGrow k) (decide (e.n + e.t < n)) (takeCount (.stand .headOverdue k) (decide (e.n + e.h ≤ n)) s)) (by
        obtain hout | hin := hwithin
        · exact .inr (((h1.1.trans h2.1).scope _).trans hout)
        · exact .inl (decide_eq_false (by omega)))
    exact ⟨(h1.1.trans h2.1).trans h3.1, fun key hkey => (h3.2 _ (hkey _)).trans ((h2.2 _ (hkey _)).trans (h1.2 _ (hkey _)))⟩

/-! ## The two spans of an advance -/

/-- The counts of the two spans of a stand are handed in ascending position (R63, log 17). -/
theorem handCounts_pair {before s : State} {k d : Stand} (hord : s.activeSet.Pairwise (· < ·)) (hkd : k < d)
    (hk : k ∈ s.downstream) (hd : d ∈ s.downstream)
    (htouched : ∀ j, j ∈ s.downstream → (spanTouched before s j = true ↔ j = k ∨ j = d)) :
    handCounts before s = handCount d (s.span (spanInto d)).length (handCount k (s.span (spanInto k)).length s) := by
  have e : (s.downstream.filter fun j => spanTouched before s j) = [k, d] := by
    refine List.Pairwise.eq_of_mem_iff (r := (· < ·)) ((downstream_ordered hord).filter _) (by simpa using hkd) fun j => ?_
    rw [List.mem_filter]
    constructor
    · rintro ⟨hj, ht⟩
      simpa using (htouched j hj).mp ht
    · intro hj
      obtain rfl | rfl : j = k ∨ j = d := by simpa using hj
      · exact ⟨hk, (htouched j hk).mpr (.inl rfl)⟩
      · exact ⟨hd, (htouched j hd).mpr (.inr rfl)⟩
  unfold handCounts
  rw [e]
  rfl

/-- One span alone is touched (R63). -/
theorem handCounts_single {before s : State} {d : Stand} (hord : s.activeSet.Pairwise (· < ·)) (hd : d ∈ s.downstream)
    (htouched : ∀ j, j ∈ s.downstream → (spanTouched before s j = true ↔ j = d)) :
    handCounts before s = handCount d (s.span (spanInto d)).length s := by
  have e : (s.downstream.filter fun j => spanTouched before s j) = [d] := by
    refine List.Pairwise.eq_of_mem_iff (r := (· < ·)) ((downstream_ordered hord).filter _) (by simp) fun j => ?_
    rw [List.mem_filter, List.mem_singleton]
    constructor
    · exact fun ⟨hj, ht⟩ => (htouched j hj).mp ht
    · rintro rfl
      exact ⟨hd, (htouched j hd).mpr rfl⟩
  unfold handCounts
  rw [e]
  rfl

end Sys2Proof.Machine
end

section
/-! PROOFS. What a bite advance makes of the tracker (R59, R64, R70 to R74). -/

namespace Sys2Proof.Machine

/-- The strip moves at the stand with a bite advance (R45, R72). -/
structure StripMoves (k : Stand) (s : State) : Prop where
  set : s.inSet k = true
  mill : s.stk.mill.running = true
  strip : s.stripPresent k = true
  state : (s.seq k).state = .thread ∨ (s.seq k).state = .roll ∨ (s.seq k).state = .tripped
  ahead : s.isLast k = false ∨ vget s.stk.tailMarks k = false

theorem movesStrip_iff (st : StandState) : st.movesStrip = true ↔ st = .thread ∨ st = .roll ∨ st = .tripped := by
  cases st <;> simp [StandState.movesStrip]

theorem trackAdvance_moves {k : Stand} {s : State} (h : StripMoves k s) : trackAdvance k s = endTracker s (advanced k s) := by
  have hahead : (s.isLast k && vget s.stk.tailMarks k) = false := by
    obtain e | e := h.ahead <;> rw [e]
    · rfl
    · exact Bool.and_false _
  unfold trackAdvance
  rw [h.set, h.mill, hahead, h.strip, (movesStrip_iff _).mpr h.state]
  rfl

/-- An advance that the tracker ignores (R72). -/
theorem trackAdvance_ignored {k : Stand} {s : State}
    (h : s.inSet k = false ∨ s.stk.mill.running = false ∨
      (s.isLast k = false ∨ vget s.stk.tailMarks k = false) ∧
        (s.stripPresent k = false ∨ (s.seq k).state.movesStrip = false)) : trackAdvance k s = s := by
  unfold trackAdvance
  obtain e | e | ⟨hahead, hstill⟩ := h
  · rw [e]
    rfl
  · rw [e, Bool.and_false]
    rfl
  · split
    · rfl
    · rw [if_neg (by obtain e | e := hahead <;> rw [e] <;> simp), if_neg (by obtain e | e := hstill <;> rw [e] <;> simp)]

/-- Behind its own tail the last stand's advances drain the exit span (R76). -/
theorem trackAdvance_drains {k : Stand} {s : State} (hset : s.inSet k = true) (hmill : s.stk.mill.running = true)
    (hlast : s.isLast k = true) (hmark : vget s.stk.tailMarks k = true) : trackAdvance k s = endTracker s (popExit s) := by
  unfold trackAdvance
  rw [hset, hmill, hlast, hmark]
  rfl

/-- The tracker behind the advance's counts, where they bring no mill empty (R63, R79). -/
theorem endTracker_leaves {before u : State} (h : u.stk.mill ≠ .tailout ∨ u.stk.heldCount ≠ 0) :
    endTracker before u = handCounts before u := by
  obtain h | h := h
  · exact endTracker_outside h
  · exact endTracker_held h

theorem biteAdvance_leaves {k : Stand} {s : State} (h : StripMoves k s)
    (hheld : (advanced k s).stk.mill ≠ .tailout ∨ (advanced k s).stk.heldCount ≠ 0) :
    trackAdvance k s = handCounts s (advanced k s) ∧ (biteAdvance k s).stk = (advanced k s).stk := by
  have e := (trackAdvance_moves h).trans (endTracker_leaves hheld)
  refine ⟨e, ?_⟩
  unfold biteAdvance
  rw [e]
  exact (countAdvance_keeps k _).2.2.2.2.2.2.2.2.2.2.2.1.trans (handCounts_inTracker s _).1

/-! ## Toward the next stand of the set (R73) -/

theorem moved_pushBite {k d : Stand} {s : State} (hd : s.nextActive k = some d) : Moved s (pushBite k s) := by
  unfold pushBite
  split
  · refine (moved_setBite k none s).trans ?_
    unfold pushOut
    rw [show (s.setBite k none).nextActive k = some d from hd]
    dsimp only
    split
    · exact moved_retire _ _
    · exact moved_pushSpan _ _ _
  · exact .refl s

theorem moved_advanced {k d : Stand} {s : State} (hd : s.nextActive k = some d) : Moved s (advanced k s) :=
  (moved_pushBite hd).trans (moved_refill k _)

@[simp] theorem retireOpt_keeps (o : Option Segment) (t : Tracker) :
    (retireOpt o t).mill = t.mill ∧ (retireOpt o t).coil = t.coil ∧ (retireOpt o t).allocated = t.allocated ∧
      (retireOpt o t).nextSeg = t.nextSeg ∧ (retireOpt o t).lastAlloc = t.lastAlloc ∧ (retireOpt o t).bites = t.bites ∧
      (retireOpt o t).spans = t.spans ∧ (retireOpt o t).tailMarks = t.tailMarks ∧ (retireOpt o t).hold = t.hold := by
  cases o <;> exact ⟨rfl, rfl, rfl, rfl, rfl, rfl, rfl, rfl, rfl⟩

/-- What is retired does not depend on where the other records lie. -/
theorem retireOpt_placed (o : Option Segment) (t : Tracker) (b : Vector (Option Segment) 8) (p : Vector (List Segment) 8) :
    (retireOpt o { t with bites := b, spans := p }).ring = (retireOpt o t).ring ∧
      (retireOpt o { t with bites := b, spans := p }).retired = (retireOpt o t).retired := by
  cases o <;> exact ⟨rfl, rfl⟩

section
variable {k d : Stand} {s : State} (hd : s.nextActive k = some d) (hr : s.stk.ring.length ≤ 32)
include hd hr

/-- Behind the push the bite stands empty, and the other spans are untouched (R73). -/
theorem pushBite_next_view :
    vget (pushBite k s).stk.bites k = none ∧ (pushBite k s).isFirst k = s.isFirst k ∧
      (pushBite k s).stk.tailMarks = s.stk.tailMarks ∧ (pushBite k s).span (spanInto k) = s.span (spanInto k) := by
  obtain ⟨hmoved, hstk⟩ := pushBite_next hd hr
  refine ⟨(pushBite_bite k k s).trans (if_pos rfl), hmoved.isFirst k, by rw [hstk]; simp, ?_⟩
  rw [State.span, hstk]
  simp only [retireOpt_keeps]
  exact vget_vset_ne _ _ (spanInto_ne (ne_of_lt (nextActive_lt hd)))

theorem advanced_other (hfirst : s.isFirst k = false) :
    (advanced k s).stk =
      retireOpt (pushStep k d (vget s.stk.bites k) s).2
        { s.stk with
          bites := vset s.stk.bites k (s.span (spanInto k)).head?
          spans := vset (vset s.stk.spans (spanInto d) (pushStep k d (vget s.stk.bites k) s).1) (spanInto k)
            (s.span (spanInto k)).tail } := by
  obtain ⟨hbite, hsame, -, hspan⟩ := pushBite_next_view hd hr
  unfold advanced
  rw [refill_other (hsame.trans hfirst) hbite, hspan, (pushBite_next hd hr).2]
  simp only [retireOpt_keeps]
  rw [vset_vset]
  generalize pushStep k d (vget s.stk.bites k) s = out
  cases out.2 <;> rfl

theorem advanced_marked (hfirst : s.isFirst k = true) (hmark : vget s.stk.tailMarks k = true) :
    (advanced k s).stk =
      retireOpt (pushStep k d (vget s.stk.bites k) s).2
        { s.stk with
          bites := vset s.stk.bites k none
          spans := vset s.stk.spans (spanInto d) (pushStep k d (vget s.stk.bites k) s).1 } := by
  obtain ⟨-, hsame, hmarks, -⟩ := pushBite_next_view hd hr
  unfold advanced
  rw [refill_marked (hsame.trans hfirst) (by rw [hmarks, hmark])]
  exact (pushBite_next hd hr).2

theorem advanced_first (hfirst : s.isFirst k = true) (hmark : vget s.stk.tailMarks k = false) :
    ∃ g, AllocatedAt s.stk.coil k s g ∧ (advanced k s).stk =
      { retireOpt (pushStep k d (vget s.stk.bites k) s).2
          { s.stk with
            bites := vset s.stk.bites k (some g)
            spans := vset s.stk.spans (spanInto d) (pushStep k d (vget s.stk.bites k) s).1 } with
        nextSeg := if g.seg < 65535 then g.seg + 1 else 1
        lastAlloc := g.seg
        allocated := min 65535 (s.stk.allocated + 1) } := by
  obtain ⟨-, hsame, hmarks, -⟩ := pushBite_next_view hd hr
  obtain ⟨hmoved, hstk⟩ := pushBite_next hd hr
  obtain ⟨g, hg, hafter⟩ := allocate_at (k := k) (s := s) (u := pushBite k s) (by rw [State.millRec, State.millRec, hmoved.sch])
    (by rw [State.chan, State.chan, hmoved.mch]) (by rw [hmoved.gap]) (by rw [hstk]; simp) (pushBite_held k s)
  have hcoil : (pushBite k s).stk.coil = s.stk.coil := by rw [hstk]; simp
  rw [hcoil] at hg
  refine ⟨g, hg, ?_⟩
  unfold advanced
  rw [refill_first (hsame.trans hfirst) (by rw [hmarks, hmark]), hafter, hstk]
  simp only [retireOpt_keeps]
  rw [vset_vset]
  generalize pushStep k d (vget s.stk.bites k) s = out
  cases out.2 <;> rfl

/-- What every advance toward the next stand makes of the spans, of the records retired, and of the other bites. -/
theorem advanced_next :
    (∀ j, (advanced k s).span j =
      if j = spanInto d then (pushStep k d (vget s.stk.bites k) s).1
      else if j = spanInto k ∧ s.isFirst k = false then (s.span j).tail else s.span j) ∧
    (advanced k s).stk.ring = (retireOpt (pushStep k d (vget s.stk.bites k) s).2 s.stk).ring ∧
    (advanced k s).stk.retired = (retireOpt (pushStep k d (vget s.stk.bites k) s).2 s.stk).retired ∧
    ∀ j, j ≠ k → vget (advanced k s).stk.bites j = vget s.stk.bites j := by
  have hne : spanInto d ≠ spanInto k := (spanInto_ne (ne_of_lt (nextActive_lt hd))).symm
  have hpushed {u : Tracker} (hspans : u.spans = vset s.stk.spans (spanInto d) (pushStep k d (vget s.stk.bites k) s).1)
      (hfirst : s.isFirst k = true) (j : SpanId) :
      vget u.spans j = if j = spanInto d then (pushStep k d (vget s.stk.bites k) s).1
        else if j = spanInto k ∧ s.isFirst k = false then (s.span j).tail else s.span j := by
    rw [hspans, vget_vset]
    refine if_congr Iff.rfl rfl ?_
    rw [if_neg (fun e => Bool.noConfusion (hfirst.symm.trans e.2))]
    rfl
  by_cases hfirst : s.isFirst k = true
  · by_cases hmark : vget s.stk.tailMarks k = true
    · have h := advanced_marked hd hr hfirst hmark
      refine ⟨fun j => hpushed (by rw [h]; simp) hfirst j, by rw [h]; exact (retireOpt_placed _ _ _ _).1,
        by rw [h]; exact (retireOpt_placed _ _ _ _).2, fun j hj => ?_⟩
      rw [h, (retireOpt_keeps _ _).2.2.2.2.2.1]
      exact vget_vset_ne _ _ hj
    · obtain ⟨g, -, h⟩ := advanced_first hd hr hfirst (Bool.not_eq_true _ ▸ hmark)
      refine ⟨fun j => hpushed (by rw [h]; simp) hfirst j, by rw [h]; exact (retireOpt_placed _ _ _ _).1,
        by rw [h]; exact (retireOpt_placed _ _ _ _).2, fun j hj => ?_⟩
      rw [h]
      dsimp only
      rw [(retireOpt_keeps _ _).2.2.2.2.2.1]
      exact vget_vset_ne _ _ hj
  · have hother : s.isFirst k = false := Bool.not_eq_true _ ▸ hfirst
    have h := advanced_other hd hr hother
    refine ⟨fun j => ?_, by rw [h]; exact (retireOpt_placed _ _ _ _).1, by rw [h]; exact (retireOpt_placed _ _ _ _).2, fun j hj => ?_⟩
    · rw [State.span, h, (retireOpt_keeps _ _).2.2.2.2.2.2.1, vget_vset]
      by_cases hj : j = spanInto k
      · rw [if_pos hj, if_neg (hj ▸ hne.symm), if_pos ⟨hj, hother⟩, hj]
      · rw [if_neg hj, vget_vset]
        refine if_congr Iff.rfl rfl ?_
        rw [if_neg (fun e => hj e.1)]
        rfl
    · rw [h, (retireOpt_keeps _ _).2.2.2.2.2.1]
      exact vget_vset_ne _ _ hj

end

/-- A push behind no tail mark leaves a record in the span (R62, R73). -/
theorem pushStep_held {k d : Stand} {g : Segment} {s : State} (hmark : vget s.stk.tailMarks d = false) :
    (pushStep k d (some g) s).1 ≠ [] := by
  unfold pushStep
  dsimp only
  rw [pushOnto_eq, if_neg (by rw [hmark]; decide)]
  exact spanPush_ne_nil _ _

end Sys2Proof.Machine
end

section
/-! PROOFS. The records that the counts of a bite advance raise (R63, R146, R147), and the advance at the gap computation
engine (R98). -/

namespace Sys2Proof.Machine

theorem loopScope_iff (k : Stand) (s : State) :
    loopScope k s = true ↔ s.inSet k = true ∧ s.isFirst k = false ∧ (s.seq k).state = .roll ∧
      ∃ j, s.prevActive k = some j ∧ (s.seq j).state = .roll := by
  unfold loopScope
  cases s.prevActive k <;> simp [and_assoc]

theorem overdueScope_iff (k : Stand) (s : State) :
    scopeHolds s (.stand .headOverdue k) = true ↔ s.inSet k = true ∧ s.isFirst k = false ∧ (s.seq k).state = .ready ∧
      s.stripPresent k = false := by
  unfold scopeHolds
  simp [and_assoc]

theorem overdueScope_away {k : Stand} {s : State} (h : (s.seq k).state ≠ .ready) : scopeHolds s (.stand .headOverdue k) = false := by
  rw [← Bool.not_eq_true, overdueScope_iff]
  exact fun e => h e.2.2.1

theorem loopScope_away {k : Stand} {s : State} (h : (s.seq k).state ≠ .roll) : loopScope k s = false := by
  rw [← Bool.not_eq_true, loopScope_iff]
  exact fun e => h e.2.2.1

/-! ## The count of a bite advance at the gap computation engine (R98) -/

/-- What an advance counts, in THREAD before the lock delay. -/
theorem countAdvance_counts {k : Stand} {r : StandRecord} {s : State} (hr : s.record k = some r) (hstate : (s.seq k).state = .thread)
    (hcount : (s.gap k).lockCount < r.lockDelay) :
    countAdvance k s =
      if (s.gap k).lockCount + 1 = r.lockDelay then lockOn k (s.modGap k fun g => { g with lockCount := g.lockCount + 1 })
      else s.modGap k fun g => { g with lockCount := g.lockCount + 1 } := by
  unfold countAdvance
  rw [hr]
  dsimp only
  rw [if_pos ⟨hstate, hcount⟩, modGap_gap_self]

theorem countAdvance_still {k : Stand} {s : State} (h : (s.seq k).state ≠ .thread) : countAdvance k s = s := by
  unfold countAdvance
  split
  · rw [if_neg (fun e => h e.1)]
  · rfl

theorem aged_lockOn (key : Key) (k : Stand) (s : State) : Aged key s (lockOn k s) := by
  unfold lockOn
  split
  · refine Aged.trans (aged_of_table ?_) (aged_evalScopes key _)
    simp
  · exact .refl key s

theorem aged_countAdvance (key : Key) (k : Stand) (s : State) : Aged key s (countAdvance k s) := by
  unfold countAdvance
  split
  · split
    · dsimp only
      split
      · exact Aged.trans (aged_of_table rfl) (aged_lockOn key k _)
      · exact aged_of_table rfl
    · exact .refl key s
  · exact .refl key s

/-- The stand in THREAD behind an advance (R98, R118). -/
theorem countAdvance_thread {k : Stand} {r : StandRecord} {s : State} (hr : s.record k = some r) (hstate : (s.seq k).state = .thread)
    (hcount : (s.gap k).lockCount < r.lockDelay) :
    ((countAdvance k s).gap k).lockCount = (s.gap k).lockCount + 1 ∧
    (∀ h, (s.gap k).lockCount + 1 = r.lockDelay → (s.gap k).hGm = some h → (s.gap k).stale = false →
      ((countAdvance k s).seq k).state = .roll ∧ ((countAdvance k s).gap k).locked = true ∧ ((countAdvance k s).gap k).hLock = h ∧
        ((countAdvance k s).gap k).sRefLock = (s.gap k).sRef) ∧
    ((s.gap k).lockCount + 1 < r.lockDelay ∨ (s.gap k).hGm = none ∨ (s.gap k).stale = true →
      ((countAdvance k s).seq k).state = .thread ∧ ((countAdvance k s).gap k).locked = (s.gap k).locked) := by
  have hself : (s.modGap k fun g => { g with lockCount := g.lockCount + 1 }).gap k =
      { s.gap k with lockCount := (s.gap k).lockCount + 1 } := modGap_gap_self s k _
  have hseq : (s.modGap k fun g => { g with lockCount := g.lockCount + 1 }).seq k = s.seq k := rfl
  rw [countAdvance_counts hr hstate hcount]
  generalize (s.modGap k fun g => { g with lockCount := g.lockCount + 1 }) = v at hself hseq
  by_cases hlock : (s.gap k).lockCount + 1 = r.lockDelay
  · rw [if_pos hlock]
    cases husable : (v.gap k).usableEstimate with
    | some h =>
      obtain ⟨hgap, hroll⟩ := lockOn_of_usable husable
      rw [hself] at hgap husable
      have hmust : (s.gap k).stale = false ∧ (s.gap k).hGm = some h := by
        unfold GapRecord.usableEstimate at husable
        cases hstale : (s.gap k).stale
        · rw [hstale] at husable
          exact ⟨rfl, husable⟩
        · rw [hstale] at husable
          exact nomatch husable
      rw [hgap]
      refine ⟨rfl, fun h' _ hh _ => ⟨hroll, rfl, ?_, rfl⟩, fun hno => ?_⟩
      · exact Option.some.inj (hmust.2.symm.trans hh)
      · obtain hlt | hnone | hstale := hno
        · omega
        · exact nomatch hmust.2.symm.trans hnone
        · exact nomatch hmust.1.symm.trans hstale
    | none =>
      rw [lockOn_of_unusable husable, hself, hseq]
      rw [hself] at husable
      refine ⟨rfl, fun h _ hh hstale => ?_, fun _ => ⟨hstate, rfl⟩⟩
      unfold GapRecord.usableEstimate at husable
      rw [hstale, hh] at husable
      exact nomatch husable
  · rw [if_neg hlock, hself, hseq]
    exact ⟨rfl, fun _ e => absurd e hlock, fun _ => ⟨hstate, rfl⟩⟩

/-! ## The records that the counts raise -/

section
variable {k d : Stand} {s : State} (hmoves : StripMoves k s) (hord : s.activeSet.Pairwise (· < ·)) (hd : s.nextActive k = some d)
  (hmark : vget s.stk.tailMarks d = false) (hmill : s.stk.mill = .rolling)

include hd hmark in
/-- The spans behind an advance that gives nothing up. -/
theorem advanced_room {g : Segment} (hbite : vget s.stk.bites k = some g) (hroom : (s.span (spanInto d)).length < 24) :
    (advanced k s).span (spanInto d) = s.span (spanInto d) ++ [stamp k s g] ∧
      (s.isFirst k = false → (advanced k s).span (spanInto k) = (s.span (spanInto k)).tail) := by
  have hne : spanInto k ≠ spanInto d := spanInto_ne (ne_of_lt (nextActive_lt hd))
  have hpush : pushBite k s = (s.setBite k none).setSpan (spanInto d) (s.span (spanInto d) ++ [stamp k s g]) := by
    unfold pushBite pushOut
    rw [hbite]
    dsimp only
    rw [show (s.setBite k none).nextActive k = some d from hd]
    dsimp only
    rw [if_neg (by rw [show vget (s.setBite k none).stk.tailMarks d = false from hmark]; decide)]
    exact pushSpan_of_room _ _ (s.setBite k none) hroom
  refine ⟨?_, fun hfirst => ?_⟩
  · rw [advanced, refill_other_span hne.symm, hpush]
    exact vget_vset_self _ _ _
  · have hmoved := moved_pushBite hd
    unfold advanced
    rw [State.span, refill_other ((hmoved.isFirst k).trans hfirst) ((pushBite_bite k k s).trans (if_pos rfl))]
    refine (vget_vset_self _ _ _).trans (congrArg List.tail ?_)
    rw [hpush]
    exact vget_vset_ne _ _ hne

include hmoves hd hmill in
/-- What the counts find: nothing but the tracker has changed, and they are the event's end. -/
theorem advance_counts_at :
    Moved s (advanced k s) ∧ (advanced k s).stk.mill = .rolling ∧ trackAdvance k s = handCounts s (advanced k s) ∧
      (advanced k s).downstream = s.downstream := by
  have hmoved := moved_advanced hd
  have hrolling : (advanced k s).stk.mill = .rolling := (advanced_mill k s).trans hmill
  exact ⟨hmoved, hrolling, (biteAdvance_leaves hmoves (.inl (by rw [hrolling]; decide))).1, by
    rw [State.downstream, State.downstream, hmoved.activeSet]⟩

include hmoves hord hd hmark hmill in
/-- The two spans of the stand, the span out of it alone where the span into it gives nothing (R63). -/
theorem advance_counts {g : Segment} (hbite : vget s.stk.bites k = some g) (hroom : (s.span (spanInto d)).length < 24) :
    trackAdvance k s =
      handCount d ((s.span (spanInto d)).length + 1)
        (if s.isFirst k = false ∧ s.span (spanInto k) ≠ [] then handCount k ((s.span (spanInto k)).length - 1) (advanced k s)
        else advanced k s) := by
  obtain ⟨hmoved, hrolling, e, hdown⟩ := advance_counts_at hmoves hd hmill
  obtain ⟨hout, hinto⟩ := advanced_room hd hmark hbite hroom
  have hordered : (advanced k s).activeSet.Pairwise (· < ·) := by rw [hmoved.activeSet]; exact hord
  have hdset : d ∈ (advanced k s).downstream := by
    rw [hdown, mem_downstream hord]
    exact ⟨nextActive_mem hd, (prevActive_next hord hmoves.set hd).2⟩
  have houttouched : spanTouched s (advanced k s) d = true := by
    rw [spanTouched, hout, bne_iff_ne]
    intro h
    simpa using congrArg List.length h
  have honly {j : Stand} (hj : j ∈ (advanced k s).downstream) (ht : spanTouched s (advanced k s) j = true) : j = k ∨ j = d :=
    (advanced_touched hord (hdown ▸ hj) ht).imp_right fun h => Option.some.inj (h.symm.trans hd)
  have hcountd : ((advanced k s).span (spanInto d)).length = (s.span (spanInto d)).length + 1 := by rw [hout]; simp
  rw [e]
  by_cases hboth : s.isFirst k = false ∧ s.span (spanInto k) ≠ []
  · obtain ⟨hfirst, hspan⟩ := hboth
    have hkdown : k ∈ (advanced k s).downstream := by
      rw [hdown, mem_downstream hord]
      exact ⟨hmoves.set, hfirst⟩
    have hktouched : spanTouched s (advanced k s) k = true := by
      rw [spanTouched, hinto hfirst, bne_iff_ne]
      intro h
      have hpos := List.length_pos_iff.mpr hspan
      have hlen := congrArg List.length h
      rw [List.length_tail] at hlen
      omega
    rw [handCounts_pair hordered (nextActive_lt hd) hkdown hdset fun j hj =>
      ⟨honly hj, by rintro (rfl | rfl) <;> assumption⟩, if_pos ⟨hfirst, hspan⟩, hcountd, hinto hfirst, List.length_tail]
  · rw [handCounts_single hordered hdset fun j hj => ⟨fun ht => ?_, by rintro rfl; exact houttouched⟩, if_neg hboth, hcountd]
    obtain rfl | hjd := honly hj ht
    · have hfirst := ((mem_downstream hord).mp (hdown ▸ hj)).2
      have hempty : s.span (spanInto j) = [] := by
        by_contra hspan
        exact hboth ⟨hfirst, hspan⟩
      rw [spanTouched, hinto hfirst, hempty, List.tail_nil, bne_self_eq_false] at ht
      exact Bool.noConfusion ht
    · exact hjd

include hmoves hord hd hmark hmill in
theorem advance_pulls {j : Stand} {g : Segment} {e : SpanEntry} (hbite : vget s.stk.bites k = some g)
    (hroom : (s.span (spanInto d)).length < 24) (hfirst : s.isFirst k = false) (hroll : (s.seq k).state = .roll)
    (hj : s.prevActive k = some j) (hjroll : (s.seq j).state = .roll) (he : s.spanEntry k = some e) (hspan : s.span (spanInto k) ≠ [])
    (hcount : ((s.span (spanInto k)).length : Int) - 1 < (e.n : Int) - e.t) (hnew : s.recordOf (.stand .loopPull k) = none) :
    Raised (.stand .loopPull k) (vget s.sch.config.actions 9) (biteAdvance k s) := by
  obtain ⟨hmoved, hrolling, -, -⟩ := advance_counts_at hmoves hd hmill
  have hpos := List.length_pos_iff.mpr hspan
  have hraised := handCount_pulls (k := k) (n := (s.span (spanInto k)).length - 1) (e := e) (s := advanced k s)
    (by rw [← he, State.spanEntry, State.millRec, hmoved.sch, ← State.millRec, ← State.spanEntry]) (by omega)
    ((hmoved.recordOf _).trans hnew) (by
      rw [hmoved.scope (by rw [hrolling, hmill])]
      exact (loopScope_iff k s).mpr ⟨hmoves.set, hfirst, hroll, j, hj, hjroll⟩)
  rw [hmoved.sch] at hraised
  unfold biteAdvance
  rw [advance_counts hmoves hord hd hmark hmill hbite hroom, if_pos ⟨hfirst, hspan⟩]
  refine (hraised.aged (aged_handCount_other (fun c h => ?_) _ _)).aged (aged_countAdvance _ _ _)
  exact absurd (Key.stand.inj h).2 (ne_of_lt (nextActive_lt hd))

include hmoves hord hd hmark hmill in
theorem advance_grows {g : Segment} (hbite : vget s.stk.bites k = some g) (hroom : (s.span (spanInto d)).length < 24)
    (hquiet : (s.seq k).state ≠ .roll ∨ s.isFirst k = true ∨ s.span (spanInto k) = [] ∨
      ∀ e, s.spanEntry k = some e →
        (s.span (spanInto k)).length - 1 ≤ e.n + e.t ∧ e.n ≤ (s.span (spanInto k)).length - 1 + e.t)
    {e : SpanEntry} (he : s.spanEntry d = some e) :
    ((s.seq k).state = .roll → (s.seq d).state = .roll → e.n + e.t < (s.span (spanInto d)).length + 1 →
      s.recordOf (.stand .loopGrow d) = none →
      Raised (.stand .loopGrow d) (vget s.sch.config.actions 8) (biteAdvance k s)) ∧
    ((s.seq d).state = .ready → s.stripPresent d = false → e.n + e.h ≤ (s.span (spanInto d)).length + 1 →
      s.recordOf (.stand .headOverdue d) = none →
      Raised (.stand .headOverdue d) (vget s.sch.config.actions 7) (biteAdvance k s)) := by
  obtain ⟨hmoved, hrolling, -, -⟩ := advance_counts_at hmoves hd hmill
  obtain ⟨hprev, hdfirst⟩ := prevActive_next hord hmoves.set hd
  have hscope (key : Key) := hmoved.scope (by rw [hrolling, hmill]) key
  have hnotready : (s.seq k).state ≠ .ready := by
    obtain h | h | h := hmoves.state <;> rw [h] <;> decide
  have hk : ∃ v, trackAdvance k s = handCount d ((s.span (spanInto d)).length + 1) v ∧ Unopened (advanced k s) v ∧
      ∀ key, (∀ c, key ≠ .stand c k) → v.recordOf key = s.recordOf key := by
    refine ⟨_, advance_counts hmoves hord hd hmark hmill hbite hroom, ?_⟩
    by_cases hboth : s.isFirst k = false ∧ s.span (spanInto k) ≠ []
    · rw [if_pos hboth]
      have hloop : loopScope k (advanced k s) = false ∨ ∀ e, (advanced k s).spanEntry k = some e →
          (s.span (spanInto k)).length - 1 ≤ e.n + e.t ∧ e.n ≤ (s.span (spanInto k)).length - 1 + e.t := by
        obtain h | h | h | h := hquiet
        · exact .inl (loopScope_away (by rw [hmoved.seq]; exact h))
        · exact nomatch hboth.1.symm.trans h
        · exact absurd h hboth.2
        · refine .inr fun e he => h e ?_
          rw [← he, State.spanEntry, State.millRec, ← hmoved.sch, ← State.millRec, ← State.spanEntry]
      have h := handCount_quiet (k := k) (n := (s.span (spanInto k)).length - 1) (s := advanced k s)
        (overdueScope_away (by rw [hmoved.seq]; exact hnotready)) hloop
      exact ⟨h.1, fun key hkey => (h.2 key hkey).trans (hmoved.recordOf key)⟩
    · rw [if_neg hboth]
      exact ⟨.refl _, fun key _ => hmoved.recordOf key⟩
  obtain ⟨v, e', hopen, hrec⟩ := hk
  have hev : v.spanEntry d = some e := by
    rw [← he, State.spanEntry, State.millRec, hopen.sch, hmoved.sch, ← State.millRec, ← State.spanEntry]
  have hother (c c' : StandCond) : Key.stand c d ≠ .stand c' k := fun h =>
    absurd (Key.stand.inj h).2.symm (ne_of_lt (nextActive_lt hd))
  have hscopes (key : Key) : scopeHolds v key = scopeHolds s key := (hopen.scope key).trans (hscope key)
  have hactions : v.sch.config.actions = s.sch.config.actions := by rw [hopen.sch, hmoved.sch]
  unfold biteAdvance
  rw [e', ← hactions]
  refine ⟨fun hroll hdroll hcount hnew => ?_, fun hready habsent hcount hnew => ?_⟩
  · refine (handCount_grows hev hcount ?_ ((hrec _ (hother _)).trans hnew) ?_).aged (aged_countAdvance _ _ _)
    · rw [hscopes]
      exact overdueScope_away (by rw [hdroll]; decide)
    · rw [hscopes]
      exact (loopScope_iff d s).mpr ⟨nextActive_mem hd, hdfirst, hdroll, k, hprev, hroll⟩
  · refine (handCount_overdue hev hcount ((hrec _ (hother _)).trans hnew) ?_).aged (aged_countAdvance _ _ _)
    rw [hscopes]
    exact (overdueScope_iff d s).mpr ⟨nextActive_mem hd, hdfirst, hready, habsent⟩

end

end Sys2Proof.Machine
end

section
/-! PROOFS. The bite advance of the last stand at the exit gauge, and of a stand in THREAD (R73, R77, R98). -/

namespace Sys2Proof.Machine

/-! ## Places -/

theorem arrive_places (g : Segment) (s : State) : (arrive g s).stk.spans = s.stk.spans ∧ (arrive g s).stk.bites = s.stk.bites := by
  have hstale := (takeExitStale_inTracker (exitMeasurement s).isSome s).1
  unfold arrive
  constructor <;> simp [hstale]

theorem popExit_plu (s : State) : (popExit s).plu = s.plu := by
  unfold popExit
  split
  next g rest _ =>
    have hstale := (takeExitStale_inTracker (exitMeasurement (s.setSpan exitSpan rest)).isSome (s.setSpan exitSpan rest)).2.2
    unfold arrive
    simp only [(moved_retire _ _).plu, offerMonitor_keeps, hstale]
    rfl
  next => rfl

theorem pushBite_plu (k : Stand) (s : State) : (pushBite k s).plu = s.plu := by
  unfold pushBite
  split
  · unfold pushOut
    split
    · split
      · exact (moved_retire _ _).plu
      · exact (moved_pushSpan _ _ _).plu
    · dsimp only
      split
      · exact (popExit_plu _).trans (moved_pushSpan _ _ _).plu
      · exact (moved_pushSpan _ _ _).plu
  · rfl

/-- A refill retires nothing (R73). -/
theorem refill_ring (k : Stand) (s : State) :
    (refill k s).stk.ring = s.stk.ring ∧ (refill k s).stk.retired = s.stk.retired ∧ (refill k s).stk.hold = s.stk.hold := by
  unfold refill
  split
  · split <;> exact ⟨rfl, rfl, rfl⟩
  · rw [takeIntoBite_stk]
    exact ⟨rfl, rfl, rfl⟩

/-! ## Pushes onto the exit span (R73, R77) -/

section
variable {k : Stand} {g : Segment} {m : MillRecord} {s : State} (hnext : s.nextActive k = none) (hm : s.millRec = some m)
  (hbite : vget s.stk.bites k = some g)
include hnext hm hbite

theorem pushBite_exit (hroom : (s.span exitSpan).length < 24) :
    pushBite k s =
      if m.nX < (s.span exitSpan).length + 1 then
        popExit ((s.setBite k none).setSpan exitSpan (s.span exitSpan ++ [stamp k s g]))
      else (s.setBite k none).setSpan exitSpan (s.span exitSpan ++ [stamp k s g]) := by
  have hself : ((s.setBite k none).setSpan exitSpan (s.span exitSpan ++ [stamp k s g])).span exitSpan =
      s.span exitSpan ++ [stamp k s g] := vget_vset_self _ _ _
  have hrec : ((s.setBite k none).setSpan exitSpan (s.span exitSpan ++ [stamp k s g])).millRec = some m := hm
  unfold pushBite pushOut
  rw [hbite]
  dsimp only
  rw [show (s.setBite k none).nextActive k = none from hnext]
  dsimp only
  rw [pushSpan_of_room exitSpan (stamp k s g) (s.setBite k none) hroom]
  change (if Option.elim ((s.setBite k none).setSpan exitSpan (s.span exitSpan ++ [stamp k s g])).millRec 0 (·.nX) <
      (((s.setBite k none).setSpan exitSpan (s.span exitSpan ++ [stamp k s g])).span exitSpan).length then _ else _) = _
  rw [hrec, hself, List.length_append]
  rfl

/-- A push onto an exit span shorter than N_x brings no record to the gauge. -/
theorem pushBite_short (hnX : m.nX < 24) (hshort : (s.span exitSpan).length < m.nX) :
    pushBite k s = (s.setBite k none).setSpan exitSpan (s.span exitSpan ++ [stamp k s g]) := by
  rw [pushBite_exit hnext hm hbite (by omega), if_neg (by omega)]

/-- A push onto an exit span at N_x brings its oldest record to the gauge. -/
theorem pushBite_full {old : Segment} {rest : List Segment} (hnX : m.nX < 24) (hspan : s.span exitSpan = old :: rest)
    (hfull : rest.length + 1 = m.nX) :
    pushBite k s = arrive old ((s.setBite k none).setSpan exitSpan (rest ++ [stamp k s g])) := by
  rw [pushBite_exit hnext hm hbite (by rw [hspan, List.length_cons]; omega), if_pos (by rw [hspan, List.length_cons]; omega)]
  have hself : ((s.setBite k none).setSpan exitSpan (s.span exitSpan ++ [stamp k s g])).span exitSpan =
      old :: (rest ++ [stamp k s g]) := by
    rw [hspan]
    exact vget_vset_self _ _ _
  unfold popExit
  rw [hself]
  dsimp only
  have hset : ((s.setBite k none).setSpan exitSpan (s.span exitSpan ++ [stamp k s g])).setSpan exitSpan (rest ++ [stamp k s g]) =
      (s.setBite k none).setSpan exitSpan (rest ++ [stamp k s g]) := by
    change (s.setBite k none).withStk { s.stk with
      bites := vset s.stk.bites k none, spans := vset (vset s.stk.spans exitSpan _) exitSpan _ } = _
    rw [vset_vset]
    rfl
  rw [hset]

end

/-! ## Behind the tracker -/

theorem countAdvance_integ (k j : Stand) (s : State) : ((countAdvance k s).gap j).integ = (s.gap j).integ := by
  have hmod (f : GapRecord → GapRecord) (hf : ∀ g, (f g).integ = g.integ) (t : State) : ((t.modGap k f).gap j).integ = (t.gap j).integ := by
    rw [modGap_gap]
    split
    next h =>
      rw [h]
      exact hf _
    next => rfl
  have hlock (t : State) : ((lockOn k t).gap j).integ = (t.gap j).integ := by
    unfold lockOn
    split
    next h _ =>
      refine Eq.trans ?_ (hmod (fun g => { g with hLock := h, sRefLock := g.sRef, locked := true }) (fun _ => rfl) t)
      simp [State.gap]
    next => rfl
  have hcounted := hmod (fun g => { g with lockCount := g.lockCount + 1 }) (fun _ => rfl) s
  unfold countAdvance
  split
  · split
    · dsimp only
      split
      · exact (hlock _).trans hcounted
      · exact hcounted
    · rfl
  · rfl

theorem countAdvance_exitStale (k : Stand) {s : State} (hrun : s.stk.mill.running = true) :
    (countAdvance k s).recordOf .exitStale = s.recordOf .exitStale := by
  have hlock (t : State) (ht : t.stk.mill.running = true) : (lockOn k t).recordOf .exitStale = t.recordOf .exitStale := by
    unfold lockOn
    split
    next h _ =>
      rw [recordOf_evalScopes, if_neg]
      · exact recordOf_congr (by simp) _
      · have hscope (u : State) (hu : u.stk = t.stk) : ¬scopeHolds u .exitStale = false := by
          change ¬u.stk.mill.running = false
          rw [hu, ht]
          decide
        exact hscope _ (by simp)
    next => rfl
  unfold countAdvance
  split
  · split
    · dsimp only
      split
      · exact hlock _ hrun
      · rfl
    · rfl
  · rfl

/-- The target thickness of the exit gauge is the last stand's (R107). -/
theorem exitTarget_last {k : Stand} {r : StandRecord} {s : State} (hlast : s.isLast k = true) (hr : s.record k = some r) :
    exitTarget s = r.hTgt := by
  have hk : s.lastActive = some k := by
    unfold State.isLast at hlast
    exact beq_iff_eq.mp hlast
  unfold exitTarget
  rw [hk, Option.bind_some, hr]
  rfl

/-- What stands behind the whole advance, where it brings no mill empty. -/
theorem advance_behind {k : Stand} {s : State} (hmoves : StripMoves k s) (hmill : s.stk.mill = .rolling) :
    trackAdvance k s = handCounts s (advanced k s) ∧ (advanced k s).stk.mill = .rolling ∧
      (biteAdvance k s).stk = (advanced k s).stk ∧
      (biteAdvance k s).recordOf .exitStale = (pushBite k s).recordOf .exitStale ∧
      ∀ j, ((biteAdvance k s).gap j).integ = ((pushBite k s).gap j).integ := by
  have hrolling : (advanced k s).stk.mill = .rolling := (advanced_mill k s).trans hmill
  obtain ⟨htrack, hstk⟩ := biteAdvance_leaves hmoves (.inl (by rw [hrolling]; decide))
  have hmoved : Moved (pushBite k s) (advanced k s) := moved_refill k _
  have hrunning : (handCounts s (advanced k s)).stk.mill.running = true := by
    rw [(handCounts_inTracker s _).1, hrolling]
    rfl
  refine ⟨htrack, hrolling, hstk, ?_, fun j => ?_⟩
  · unfold biteAdvance
    rw [htrack, countAdvance_exitStale k hrunning, handCounts_exitStale (by rw [hrolling]; rfl), hmoved.recordOf]
  · unfold biteAdvance
    rw [htrack, countAdvance_integ, handCounts_integ, hmoved.gap]

/-! ## The last stand (R73, R77) -/

section
variable {k : Stand} {g : Segment} {m : MillRecord} {s : State} (hmoves : StripMoves k s) (hord : s.activeSet.Pairwise (· < ·))
  (hlast : s.isLast k = true) (hmill : s.stk.mill = .rolling) (hbite : vget s.stk.bites k = some g) (hm : s.millRec = some m)
  (hnX : m.nX < 24)

/-- Behind a push of the last stand the span into it is as it was. -/
theorem pushBite_last_into (hord : s.activeSet.Pairwise (· < ·)) (hset : s.inSet k = true) (hlast : s.isLast k = true)
    (hfirst : s.isFirst k = false) : spanInto k ≠ exitSpan ∧ (pushBite k s).span (spanInto k) = s.span (spanInto k) := by
  have hne : spanInto k ≠ exitSpan := mt (spanInto_exit k).mp (pos_of_not_first hord hset hfirst)
  refine ⟨hne, pushBite_other ?_⟩
  unfold pushesTo
  rw [(nextActive_last hord hset).mpr hlast]
  exact hne

include hmoves hord hlast in
/-- The refill of the last stand leaves the exit span. -/
theorem advanced_exit : (advanced k s).span exitSpan = (pushBite k s).span exitSpan := by
  by_cases hfirst : s.isFirst k = true
  · have hsame : (pushBite k s).isFirst k = true := by
      rw [← hfirst, State.isFirst, State.isFirst, State.firstActive, State.firstActive, pushBite_activeSet]
    unfold advanced refill
    rw [if_pos hsame]
    split <;> rfl
  · exact refill_other_span (pushBite_last_into hord hmoves.set hlast (Bool.not_eq_true _ ▸ hfirst)).1.symm _

include hmoves hord hlast hmill hbite hm hnX

theorem advance_short (hshort : (s.span exitSpan).length < m.nX) :
    (biteAdvance k s).span exitSpan = s.span exitSpan ++ [stamp k s g] ∧ (biteAdvance k s).stk.ring = s.stk.ring ∧
      (biteAdvance k s).stk.retired = s.stk.retired ∧ (biteAdvance k s).stk.hold = s.stk.hold := by
  obtain ⟨-, -, hstk, -, -⟩ := advance_behind hmoves hmill
  have hpush := pushBite_short ((nextActive_last hord hmoves.set).mpr hlast) hm hbite hnX hshort
  obtain ⟨hring, hretired, hhold⟩ := refill_ring k (pushBite k s)
  have hexit := advanced_exit hmoves hord hlast
  rw [State.span, hstk]
  change (advanced k s).span exitSpan = _ ∧ _
  rw [hexit]
  unfold advanced
  rw [hring, hretired, hhold, hpush]
  exact ⟨vget_vset_self _ _ _, rfl, rfl, rfl⟩

theorem advance_arrival {r : StandRecord} {old : Segment} {rest : List Segment} (hr : s.record k = some r)
    (hring : s.stk.ring.length ≤ 32) (hspan : s.span exitSpan = old :: rest) (hfull : rest.length + 1 = m.nX)
    (hack : ∀ q, s.recordOf .exitStale = some q → q.state ≠ .acked) :
    ExitArrival old m r.hTgt s (biteAdvance k s) ∧ (biteAdvance k s).span exitSpan = rest ++ [stamp k s g] := by
  obtain ⟨-, -, hstk, hstale, hinteg⟩ := advance_behind hmoves hmill
  have hpush := pushBite_full ((nextActive_last hord hmoves.set).mpr hlast) hm hbite hnX hspan hfull
  obtain ⟨hring', hretired, hhold⟩ := refill_ring k (pushBite k s)
  have hexit := advanced_exit hmoves hord hlast
  have htarget : exitTarget ((s.setBite k none).setSpan exitSpan (rest ++ [stamp k s g])) = r.hTgt := exitTarget_last hlast hr
  have harrive := arrive_exit (g := old) (s := (s.setBite k none).setSpan exitSpan (rest ++ [stamp k s g])) hm htarget
    (show s.stk.mill.running = true from hmoves.mill) hring hack
  have hplaces := arrive_places old ((s.setBite k none).setSpan exitSpan (rest ++ [stamp k s g]))
  rw [hpush] at hstale hinteg
  constructor
  · refine ExitArrival.congr (present_congr hstale) ?_ ?_ ?_ hinteg harrive <;> rw [hstk, advanced, ← hpush]
    · exact hring'
    · exact hretired
    · exact hhold
  · rw [State.span, hstk]
    change (advanced k s).span exitSpan = _
    rw [hexit, hpush, State.span, hplaces.1]
    exact vget_vset_self _ _ _

end

section
variable {k : Stand} {s : State} (hmoves : StripMoves k s) (hmill : s.stk.mill = .rolling)
include hmoves hmill

theorem advance_takes (hord : s.activeSet.Pairwise (· < ·)) (hlast : s.isLast k = true) (hfirst : s.isFirst k = false) :
    vget (biteAdvance k s).stk.bites k = (s.span (spanInto k)).head? ∧
      (biteAdvance k s).span (spanInto k) = (s.span (spanInto k)).tail := by
  obtain ⟨-, -, hstk, -, -⟩ := advance_behind hmoves hmill
  obtain ⟨-, hinto⟩ := pushBite_last_into hord hmoves.set hlast hfirst
  have hsame : (pushBite k s).isFirst k = false := by
    rw [← hfirst, State.isFirst, State.isFirst, State.firstActive, State.firstActive, pushBite_activeSet]
  change vget (biteAdvance k s).stk.bites k = _ ∧ vget (biteAdvance k s).stk.spans (spanInto k) = _
  rw [hstk, advanced, refill_other hsame ((pushBite_bite k k s).trans (if_pos rfl)), hinto]
  exact ⟨vget_vset_self _ _ _, vget_vset_self _ _ _⟩

theorem advance_allocates (hfirst : s.isFirst k = true) (hmark : vget s.stk.tailMarks k = false) (hquiet : PushQuiet k s) :
    ∃ g, AllocatedAt s.stk.coil k s g ∧ vget (biteAdvance k s).stk.bites k = some g ∧ (biteAdvance k s).stk.lastAlloc = g.seg ∧
      (biteAdvance k s).stk.nextSeg = (if g.seg < 65535 then g.seg + 1 else 1) ∧
      (biteAdvance k s).stk.allocated = min 65535 (s.stk.allocated + 1) := by
  obtain ⟨-, -, hstk, -, -⟩ := advance_behind hmoves hmill
  have hsame : (pushBite k s).isFirst k = true := by
    rw [← hfirst, State.isFirst, State.isFirst, State.firstActive, State.firstActive, pushBite_activeSet]
  have hdrawn := pushBite_drawn hquiet
  have hcoil := sameCoil_pushBite k s
  obtain ⟨g, hg, hafter⟩ := allocate_at (k := k) (s := s) (u := pushBite k s) (by rw [State.millRec, State.millRec, hdrawn.sch])
    (by rw [State.chan, State.chan, hdrawn.mch]) (by rw [hdrawn.gap]) hcoil.nextSeg (pushBite_held k s)
  rw [hcoil.coil] at hg
  refine ⟨g, hg, ?_⟩
  rw [hstk, advanced, refill_first hsame (by rw [hcoil.tailMarks, hmark]), hafter, hcoil.allocated]
  exact ⟨vget_vset_self _ _ _, rfl, rfl, rfl⟩

end

/-! ## A stand in THREAD (R98, R118) -/

theorem counted_iff (c : StandCond) (k : Stand) :
    (Key.stand c k).counted = true ↔ c = .headOverdue ∨ c = .loopGrow ∨ c = .loopPull := by
  cases c <;> simp [Key.counted]

theorem NoSpanTrip.at {s : State} (h : NoSpanTrip s) (k : Stand) : NoTripAt k s :=
  fun c hc => h c k ((counted_iff c k).mp hc)

/-- No count of the spans into a stand that neither rolls nor waits, and into the next one, can open a stand. -/
theorem noTripAt_passed {k d : Stand} {s u : State} (hdrawn : Drawn s u) (hord : s.activeSet.Pairwise (· < ·))
    (hset : s.inSet k = true) (hstate : (s.seq k).state ≠ .roll ∧ (s.seq k).state ≠ .ready)
    (hd : d = k ∨ s.nextActive k = some d ∧ (NoTripAt d s ∨ (s.seq d).state ≠ .ready)) : NoTripAt d u := by
  intro c hc
  have hcond := (counted_iff c d).mp hc
  have hout (h : scopeHolds s (.stand c d) = false) : NoTripOf (.stand c d) u :=
    hdrawn.noTripOf (fun e => nomatch e) (.inr (.inr h))
  obtain rfl | ⟨hnext, hquiet⟩ := hd
  · refine hout ?_
    obtain rfl | rfl | rfl := hcond
    · exact overdueScope_away hstate.2
    · exact loopScope_away hstate.1
    · exact loopScope_away hstate.1
  · have hloop : loopScope d s = false := by
      rw [← Bool.not_eq_true, loopScope_iff, (prevActive_next hord hset hnext).1]
      rintro ⟨-, -, -, j, hj, hroll⟩
      exact hstate.1 (Option.some.inj hj ▸ hroll)
    obtain hno | hready := hquiet
    · exact hdrawn.noTripOf (fun e => nomatch e) (hno c hc)
    · refine hout ?_
      obtain rfl | rfl | rfl := hcond
      · exact overdueScope_away hready
      · exact hloop
      · exact hloop

/-- The tracker's part of an advance leaves a stand in THREAD where it is. -/
theorem trackAdvance_thread {k : Stand} {s : State} (hord : s.activeSet.Pairwise (· < ·)) (hset : s.inSet k = true)
    (hthread : (s.seq k).state = .thread)
    (hspans : NoSpanTrip s ∨ s.isLast k = true ∨ ∀ d, s.nextActive k = some d → (s.seq d).state ≠ .ready)
    (hexit : s.isLast k = false ∨ GaugeQuiet s ∨
      vget s.stk.tailMarks k = false ∧ ∃ m, s.millRec = some m ∧ (s.span exitSpan).length < m.nX) :
    (trackAdvance k s).sch = s.sch ∧ ((trackAdvance k s).seq k).state = .thread ∧
      (trackAdvance k s).gap k = { s.gap k with integ := ((trackAdvance k s).gap k).integ } := by
  have hnotroll : (s.seq k).state ≠ .roll ∧ (s.seq k).state ≠ .ready := by rw [hthread]; decide
  have hnext : s.isLast k = true → s.nextActive k = none := (nextActive_last hord hset).mpr
  have hend {u : State} (hdrawn : Drawn s u)
      (htouched : ∀ j, j ∈ s.downstream → spanTouched s u j = true → j = k ∨ s.nextActive k = some j) :
      (endTracker s u).sch = s.sch ∧ ((endTracker s u).seq k).state = .thread ∧
        (endTracker s u).gap k = { s.gap k with integ := ((endTracker s u).gap k).integ } := by
    have hdown : u.downstream = s.downstream := by rw [State.downstream, State.downstream, hdrawn.activeSet]
    have hopen : Unopened u (handCounts s u) := handCounts_unopened fun j hj ht => by
      refine noTripAt_passed hdrawn hord hset hnotroll ?_
      refine (htouched j (hdown ▸ hj) ht).imp_right fun hjnext => ⟨hjnext, ?_⟩
      obtain hno | hlast | hready := hspans
      · exact .inl (hno.at j)
      · exact nomatch (hnext hlast).symm.trans hjnext
      · exact .inr (hready j hjnext)
    have hstate : ((handCounts s u).seq k).state = .thread := by rw [hopen.state, hdrawn.state, hthread]
    have hsch : (handCounts s u).sch = s.sch := hopen.sch.trans hdrawn.sch
    have e : endTracker s u = handCounts s u := by
      unfold endTracker
      refine millEmptyTest_of (.inr ⟨k, ?_, by rw [hstate]; rfl⟩)
      rw [← hset]
      exact inSet_congr (congrArg ScheduleStore.active hsch) k
    rw [e, hopen.gap]
    exact ⟨hsch, hstate, hdrawn.gap k⟩
  have hstay : s.sch = s.sch ∧ (s.seq k).state = .thread ∧ s.gap k = { s.gap k with integ := (s.gap k).integ } :=
    ⟨rfl, hthread, rfl⟩
  by_cases hmill : s.stk.mill.running = true
  · by_cases hdrain : s.isLast k = true ∧ vget s.stk.tailMarks k = true
    · rw [trackAdvance_drains hset hmill hdrain.1 hdrain.2]
      have hquiet : GaugeQuiet s := by
        obtain h | h | h := hexit
        · exact nomatch hdrain.1.symm.trans h
        · exact h
        · exact nomatch hdrain.2.symm.trans h.1
      refine hend (popExit_drawn hquiet) fun j hj ht => ?_
      rw [popExit_touched hord hj] at ht
      exact Bool.noConfusion ht
    · have hahead : s.isLast k = false ∨ vget s.stk.tailMarks k = false := by
        rwa [not_and_or, Bool.not_eq_true, Bool.not_eq_true] at hdrain
      by_cases hstrip : s.stripPresent k = true
      · rw [trackAdvance_moves ⟨hset, hmill, hstrip, .inl hthread, hahead⟩]
        have hquiet : PushQuiet k s := by
          obtain h | h | h := hexit
          · exact .inl (mt (nextActive_last hord hset).mp (by rw [h]; decide))
          · exact .inr (.inl h)
          · exact .inr (.inr h.2)
        exact hend (advanced_drawn hquiet) fun j hj ht => advanced_touched hord hj ht
      · rw [trackAdvance_ignored (.inr (.inr ⟨hahead, .inl (Bool.not_eq_true _ ▸ hstrip)⟩))]
        exact hstay
  · rw [trackAdvance_ignored (.inr (.inl (Bool.not_eq_true _ ▸ hmill)))]
    exact hstay

end Sys2Proof.Machine
end

section
/-! PROOFS. Bite advances: O13. -/

namespace Sys2Proof.Machine

/-- The accumulator has taken the pulse that completes a segment (R44). -/
def segmentTaken (k : Stand) (r : StandRecord) (s : State) : State :=
  s.withPlu { s.plu with acc := vset s.plu.acc k (vget s.plu.acc k + r.e - r.lSeg * 1000000) }

/-- The length accumulators replaced: nothing that an advance reads. -/
def State.withLengths (s : State) (acc : Vector Nat 8) : State := s.withPlu { s.plu with acc := acc }

theorem segmentTaken_lengths (k : Stand) (r : StandRecord) (s : State) :
    ∃ acc, segmentTaken k r s = s.withLengths acc ∧ vget acc k = vget s.plu.acc k + r.e - r.lSeg * 1000000 :=
  ⟨_, rfl, vget_vset_self _ _ _⟩

/-- The presence logic behind a pulse that confirms no tail (R49, R51). -/
def Unconfirmed (k : Stand) (r : StandRecord) (p : Presence) (s : State) : Prop :=
  (s.presence k).state ≠ .dropout ∧ p = s.presence k ∨
    (s.presence k).state = .dropout ∧ (s.presence k).measurer + r.e < r.tConf * 1000000 ∧
      p = { state := .dropout, measurer := (s.presence k).measurer + r.e }

section
variable {k : Stand} {r : StandRecord} {p : Presence} {s : State} (hr : s.record k = some r)
  (hfull : r.lSeg * 1000000 ≤ vget s.plu.acc k + r.e) (hp : Unconfirmed k r p s)
include hr hfull hp

/-- The measurer takes its step behind the advance (R52). -/
theorem forwardAt_advance :
    forwardAt k s = (biteAdvance k (segmentTaken k r s)).modPresence k fun _ => p := by
  have hpres : (biteAdvance k (segmentTaken k r s)).presence k = s.presence k := by
    have h : (biteAdvance k (segmentTaken k r s)).plu.pres = (segmentTaken k r s).plu.pres := by simp
    rw [State.presence, h]
    rfl
  unfold forwardAt
  rw [accumulate_of_full k r s hr hfull, hr]
  change measure k (some r) (biteAdvance k (segmentTaken k r s)) = _
  generalize biteAdvance k (segmentTaken k r s) = b at hpres
  obtain ⟨hstate, rfl⟩ | ⟨hstate, hshort, rfl⟩ := hp
  · rw [measure_of_not_dropout _ _ _ (by rw [hpres]; exact hstate), ← hpres]
    exact (modPresence_same k _ b rfl).symm
  · rw [measure_of_short _ _ _ (by rw [hpres]; exact hstate) (by rw [hpres]; exact hshort)]
    refine modPresence_congr k _ _ b ?_
    rw [hpres, ← hstate]
    rfl

theorem exec_advance_line {edge : PulseEdge} (hrun : Running s) (hdir : edge.dir = true) (hns : 200 ≤ edge.sinceNs) :
    ∃ l, exec (.encoderPulse k edge) s =
      .next (((biteAdvance k (segmentTaken k r s)).modPresence k fun _ => p).withHlk l) := by
  have htx : (biteAdvance k (segmentTaken k r s)).hlk.tx = s.hlk.tx ∧ (biteAdvance k (segmentTaken k r s)).hlk.held = s.hlk.held := by
    simp [segmentTaken, State.withPlu]
  rw [exec_encoderPulse_forward k edge s hrun.1 hdir hns, forwardAt_advance hr hfull hp]
  generalize biteAdvance k (segmentTaken k r s) = b at htx
  obtain ⟨l, e, -⟩ := endEvent_after (t := b.modPresence k fun _ => p) hrun.2 htx.1 htx.2
  exact ⟨l, by rw [e]⟩

/-- What stands behind the pulse is what the advance leaves. -/
theorem exec_advance {edge : PulseEdge} (hrun : Running s) (hdir : edge.dir = true) (hns : 200 ≤ edge.sinceNs) :
    ∃ t, exec (.encoderPulse k edge) s = .next t ∧ t.presence k = p ∧ t.plu.acc = (biteAdvance k (segmentTaken k r s)).plu.acc ∧
      t.stk = (biteAdvance k (segmentTaken k r s)).stk ∧ t.tmx = (biteAdvance k (segmentTaken k r s)).tmx ∧
      t.gce = (biteAdvance k (segmentTaken k r s)).gce ∧ t.ssq = (biteAdvance k (segmentTaken k r s)).ssq := by
  obtain ⟨l, e⟩ := exec_advance_line hr hfull hp hrun hdir hns
  generalize biteAdvance k (segmentTaken k r s) = b at e
  exact ⟨_, e, vget_vset_self _ _ _, rfl, rfl, rfl, rfl, rfl⟩

end

/-- An advance that moves nothing touches the length counts alone (R72). -/
theorem biteAdvance_ignored {k : Stand} {s : State} (hstate : (s.seq k).state ≠ .thread)
    (h : s.inSet k = false ∨ s.stk.mill = .idle ∨ s.stk.mill = .armed ∨
      (s.isLast k = false ∨ vget s.stk.tailMarks k = false) ∧
        (s.stripPresent k = false ∨ (s.seq k).state ≠ .roll ∧ (s.seq k).state ≠ .tripped) ∨
      s.isLast k = true ∧ vget s.stk.tailMarks k = true ∧ s.stk.mill = .rolling ∧ s.span exitSpan = []) :
    biteAdvance k s = s := by
  have htrack : trackAdvance k s = s := by
    obtain hset | hidle | harmed | ⟨hahead, hstill⟩ | ⟨hlast, hmark, hmill, hexit⟩ := h
    · exact trackAdvance_ignored (.inl hset)
    · exact trackAdvance_ignored (.inr (.inl (by rw [hidle]; rfl)))
    · exact trackAdvance_ignored (.inr (.inl (by rw [harmed]; rfl)))
    · refine trackAdvance_ignored (.inr (.inr ⟨hahead, hstill.imp_right fun hno => ?_⟩))
      rw [← Bool.not_eq_true, movesStrip_iff]
      rintro (h | h | h)
      · exact hstate h
      · exact hno.1 h
      · exact hno.2 h
    · by_cases hset : s.inSet k = true
      · have hpop : popExit s = s := by
          unfold popExit
          rw [hexit]
        rw [trackAdvance_drains hset (by rw [hmill]; rfl) hlast hmark, hpop, endTracker_outside (by rw [hmill]; decide)]
        unfold handCounts
        rw [List.filter_eq_nil_iff.mpr fun j _ => by rw [spanTouched, bne_self_eq_false]; decide]
        rfl
      · exact trackAdvance_ignored (.inl (Bool.not_eq_true _ ▸ hset))
  unfold biteAdvance
  rw [htrack, countAdvance_still hstate]

/-- Short of mill empty an advance leaves the length counts (R44). -/
theorem biteAdvance_lengths {k : Stand} {s : State} (hmill : s.stk.mill ≠ .tailout) : (biteAdvance k s).plu = s.plu := by
  have hend {u : State} (hu : u.stk.mill = s.stk.mill) (hplu : u.plu = s.plu) : (endTracker s u).plu = s.plu := by
    rw [endTracker_outside (by rw [hu]; exact hmill), (handCounts_inTracker s u).2.2, hplu]
  have htrack : (trackAdvance k s).plu = s.plu := by
    unfold trackAdvance
    split
    · rfl
    · split
      · exact hend (sameCoil_popExit s).mill (popExit_plu s)
      · split
        · exact hend (advanced_mill k s) ((moved_refill k _).plu.trans (pushBite_plu k s))
        · rfl
  have hcount : (countAdvance k (trackAdvance k s)).plu = (trackAdvance k s).plu := by simp
  exact hcount.trans htrack

theorem NoSpanTrip.withLengths {s : State} (acc : Vector Nat 8) (h : NoSpanTrip s) : NoSpanTrip (s.withLengths acc) :=
  fun c j hc => (h c j hc).imp_right (Or.imp_right fun hout =>
    (scopeHolds_congr (s := s) (t := s.withLengths acc) rfl (fun _ => rfl) (fun _ => ⟨rfl, rfl⟩) rfl rfl _).trans hout)

/-- The tracker behind an advance toward the next stand (R59, R62, R64, R70 to R76). -/
theorem advance_tracker {k d : Stand} {s : State} {out : List Segment × Option Segment} {t : Tracker} {rest : Tracker}
    (hmoves : StripMoves k s) (hd : s.nextActive k = some d)
    (hheld : s.stk.mill = .rolling ∨ s.stk.mill = .tailout ∧ vget s.stk.tailMarks d = false ∧ vget s.stk.bites k ≠ none)
    (hr : s.stk.ring.length ≤ 32) (hout : out = pushStep k d (vget s.stk.bites k) s) (ht : t = (biteAdvance k s).stk)
    (hrest : rest = { s.stk with bites := t.bites, spans := t.spans, ring := t.ring, retired := t.retired }) :
    (∀ j, vget t.spans j =
      if j = spanInto d then out.1
      else if j = spanInto k ∧ s.isFirst k = false then (s.span j).tail else s.span j) ∧
    (out.2 = none → t.ring = s.stk.ring ∧ t.retired = s.stk.retired) ∧
    (∀ g, out.2 = some g →
      t.ring = (s.stk.ring ++ [g]).drop (s.stk.ring.length - 31) ∧ t.retired = min 65535 (s.stk.retired + 1)) ∧
    (∀ j, j ≠ k → vget t.bites j = vget s.stk.bites j) ∧
    (s.isFirst k = false → vget t.bites k = (s.span (spanInto k)).head? ∧ t = rest) ∧
    (s.isFirst k = true → vget s.stk.tailMarks k = true → vget t.bites k = none ∧ t = rest) ∧
    (s.isFirst k = true → vget s.stk.tailMarks k = false →
      ∃ g, AllocatedAt s.stk.coil k s g ∧ vget t.bites k = some g ∧
        t =
          { rest with
            nextSeg := if g.seg < 65535 then g.seg + 1 else 1
            lastAlloc := g.seg
            allocated := min 65535 (s.stk.allocated + 1) }) := by
  obtain ⟨hspans, hring, hretired, hbites⟩ := advanced_next hd hr
  have hkeep : (advanced k s).stk.mill ≠ .tailout ∨ (advanced k s).stk.heldCount ≠ 0 := by
    obtain hmill | ⟨-, hmark, hbite⟩ := hheld
    · left
      rw [advanced_mill, hmill]
      decide
    · right
      obtain ⟨g, hg⟩ := Option.ne_none_iff_exists'.mp hbite
      refine heldCount_ne_of_span (spanInto d) ?_
      have h := hspans (spanInto d)
      rw [if_pos rfl, hg] at h
      rw [show vget (advanced k s).stk.spans (spanInto d) = _ from h]
      exact pushStep_held hmark
  obtain ⟨-, e⟩ := biteAdvance_leaves hmoves hkeep
  rw [e] at ht
  subst hrest
  rw [← hout] at hspans hring hretired
  refine ⟨fun j => by rw [ht]; exact hspans j, fun hnone => ?_, fun g hg => ?_, fun j hj => by rw [ht]; exact hbites j hj,
    fun hfirst => ?_, fun hfirst hmark => ?_, fun hfirst hmark => ?_⟩
  · rw [ht, hring, hretired, hnone]
    exact ⟨rfl, rfl⟩
  · rw [ht, hring, hretired, hg]
    exact ⟨rfl, rfl⟩
  · have h := advanced_other hd hr hfirst
    rw [← hout] at h
    rw [ht, h]
    obtain ⟨l, o⟩ := out
    cases o <;> exact ⟨vget_vset_self _ _ _, rfl⟩
  · have h := advanced_marked hd hr hfirst hmark
    rw [← hout] at h
    rw [ht, h]
    obtain ⟨l, o⟩ := out
    cases o <;> exact ⟨vget_vset_self _ _ _, rfl⟩
  · obtain ⟨g, hg, h⟩ := advanced_first hd hr hfirst hmark
    rw [← hout] at h
    rw [ht, h]
    obtain ⟨l, o⟩ := out
    cases o <;> exact ⟨g, hg, vget_vset_self _ _ _, rfl⟩

/-- Settles O13: the tracker takes the advance, the counts are handed, and the gap computation engine counts it. -/
theorem biteAdvancePushesAndRefills : Obligations.BiteAdvancePushesAndRefills := by
  intro k r edge p s hrun hdir hns hr hfull hp
  have hp' : Unconfirmed k r p s := hp
  refine ⟨fun hstate hstill => ?_, fun hset hstrip => ?_⟩
  · have hforward := forwardAt_advance hr hfull hp'
    rw [biteAdvance_ignored (s := segmentTaken k r s) hstate hstill] at hforward
    exact exec_encoderPulse_of_forwardAt hrun hdir hns hforward rfl
  · obtain ⟨t, hexec, hpres, hacc, hstk, htmx, hgce, hssq⟩ := exec_advance hr hfull hp' hrun hdir hns
    obtain ⟨acc, htaken, hlength⟩ := segmentTaken_lengths k r s
    rw [htaken] at hacc hstk htmx hgce hssq
    have hrec (key : Key) : t.recordOf key = (biteAdvance k (s.withLengths acc)).recordOf key :=
      recordOf_congr (congrArg TripMatrix.table htmx) key
    have hgap (j : Stand) : t.gap j = (biteAdvance k (s.withLengths acc)).gap j := by rw [State.gap, State.gap, hgce]
    have hspan (j : SpanId) : t.span j = (biteAdvance k (s.withLengths acc)).span j := by rw [State.span, State.span, hstk]
    have hmoves (hstate : (s.seq k).state = .thread ∨ (s.seq k).state = .roll ∨ (s.seq k).state = .tripped)
        (hmill : s.stk.mill.running = true) (hahead : s.isLast k = false ∨ vget s.stk.tailMarks k = false) :
        StripMoves k (s.withLengths acc) := ⟨hset, hmill, hstrip, hstate, hahead⟩
    have hrolling (hmill : s.stk.mill = .rolling) : s.stk.mill.running = true := by rw [hmill]; rfl
    have hraised {key : Key} {a : Action} (h : Raised key a (biteAdvance k (s.withLengths acc))) :
        ∃ q, t.recordOf key = some q ∧ q.action = a ∧ q.occ = 1 := by
      obtain ⟨q, hq, ha, hocc, -⟩ := h
      exact ⟨q, (hrec key).trans hq, ha, hocc⟩
    refine ⟨t, hexec, hpres, fun hmill => ?_, fun d out rest hlast hd hstate hheld hring hout hrest => ?_,
      fun d g hord hlast hd hmark hmill hstate hbite hroom => ⟨fun j e hfirst hroll hj hjroll he hne hcount hnew => ?_,
        fun hquiet e he => ⟨fun hroll hdroll hcount hnew => ?_, fun hready habsent hcount hnew => ?_⟩⟩,
      fun m g new hord hlast hmark hmill hstate hbite hnew hm hnX hring => ?_,
      fun hthread hord hspans hexit hcount => ?_⟩
    · rw [hacc, biteAdvance_lengths (s := s.withLengths acc) hmill]
      exact hlength
    · have hstate' : (s.stk.mill.running = true) := by
        obtain h | ⟨h, -⟩ := hheld <;> rw [h] <;> rfl
      exact advance_tracker (s := s.withLengths acc) (hmoves hstate hstate' (.inl hlast)) hd hheld hring hout hstk hrest
    · exact hraised (advance_pulls (s := s.withLengths acc) (hmoves hstate (hrolling hmill) (.inl hlast)) hord hd hmark hmill
        hbite hroom hfirst hroll hj hjroll he hne hcount hnew)
    · exact hraised ((advance_grows (s := s.withLengths acc) (hmoves hstate (hrolling hmill) (.inl hlast)) hord hd hmark hmill
        hbite hroom hquiet he).1 hroll hdroll hcount hnew)
    · exact hraised ((advance_grows (s := s.withLengths acc) (hmoves hstate (hrolling hmill) (.inl hlast)) hord hd hmark hmill
        hbite hroom hquiet he).2 hready habsent hcount hnew)
    · have hm' := hmoves hstate (hrolling hmill) (.inr hmark)
      refine ⟨fun hshort => ?_, fun old rest hexit hfull hack => ?_, fun hfirst => ?_, fun hfirst hquiet => ?_⟩
      · rw [hnew, ← stamp_eq, hspan, hstk]
        exact advance_short (s := s.withLengths acc) hm' hord hlast hmill hbite hm hnX hshort
      · obtain ⟨harrive, hafter⟩ := advance_arrival (s := s.withLengths acc) hm' hord hlast hmill hbite hm hnX hr hring hexit hfull hack
        rw [hnew, ← stamp_eq, hspan]
        exact ⟨harrive.congr (present_congr (hrec _)) (by rw [hstk]) (by rw [hstk]) (by rw [hstk]) (fun j => by rw [hgap]), hafter⟩
      · rw [hspan, hstk]
        exact advance_takes (s := s.withLengths acc) hm' hmill hord hlast hfirst
      · rw [hstk]
        refine advance_allocates (s := s.withLengths acc) hm' hmill hfirst hmark ?_
        obtain hshort | hgauge := hquiet
        · exact .inr (.inr ⟨m, hm, hshort⟩)
        · exact .inr (.inl hgauge)
    · have hexit' : s.isLast k = false ∨ GaugeQuiet s ∨
          vget s.stk.tailMarks k = false ∧ ∃ m, s.millRec = some m ∧ (s.span exitSpan).length < m.nX := by
        obtain h | h | h | h | h := hexit
        · exact .inl h
        · exact .inr (.inl (.inl h))
        · exact .inr (.inl (.inr (.inl h)))
        · exact .inr (.inl (.inr (.inr h)))
        · exact .inr (.inr h)
      obtain ⟨hsch, hstate, hsame⟩ := trackAdvance_thread (s := s.withLengths acc) hord hset hthread
        (hspans.imp_left (·.withLengths acc)) hexit'
      have hgaps : (s.withLengths acc).gap k = s.gap k := rfl
      have hrecord : (trackAdvance k (s.withLengths acc)).record k = some r := by
        rw [State.record, hsch]
        exact hr
      rw [hgap, seq_congr hssq]
      unfold biteAdvance
      generalize trackAdvance k (s.withLengths acc) = u at hstate hsame hrecord
      rw [hgaps] at hsame
      have h := countAdvance_thread hrecord hstate (by rw [hsame]; exact hcount)
      rw [hsame] at h
      exact h

end Sys2Proof.Machine
end

section
/-! PROOFS. A tail at the sequencer and at the tracker (R51, R75, R76, R99, R118). -/

namespace Sys2Proof.Machine

/-! ## At the sequencer (R99, R118) -/

/-- The sequencer has taken a tail: a stand in THREAD or ROLL is in TAIL, its lock count 0, and no other stand has moved. -/
structure Tailed (k : Stand) (s v : State) : Prop where
  stk : v.stk = s.stk
  sch : v.sch = s.sch
  plu : v.plu = s.plu
  flc : v.flc = s.flc
  mch : v.mch = s.mch
  ms : v.ms = s.ms
  state : ∀ j, (v.seq j).state = if j = k ∧ (s.seq k).state.rolling = true then .tail else (s.seq j).state
  gap : ∀ j, v.gap j = if j = k ∧ (s.seq k).state.rolling = true then { s.gap j with lockCount := 0 } else s.gap j
  aged : ∀ key, Aged key s v

/-- The stand in TAIL, taken by the trip matrix. -/
def tailEntered (k : Stand) (s : State) : State :=
  evalScopes (standNotice k ((setStandState k .tail s).modGap k fun g => { g with lockCount := 0 }))

theorem seqTail_eq (k : Stand) (s : State) :
    seqTail k s =
      if (s.seq k).state.rolling then
        (if (tailEntered k s).inSet k then millEmptyTest (tailEntered k s) else tailEntered k s)
      else s := rfl

theorem tailEntered_tailed {k : Stand} {s : State} (hroll : (s.seq k).state.rolling = true) : Tailed k s (tailEntered k s) := by
  have hopen : Unopened ((setStandState k .tail s).modGap k fun g => { g with lockCount := 0 }) (tailEntered k s) :=
    (unopened_notice _ _).trans (unopened_evalScopes _)
  have hset : (setStandState k .tail s).tmx = s.tmx ∧ (setStandState k .tail s).stk = s.stk ∧ (setStandState k .tail s).sch = s.sch ∧
      (setStandState k .tail s).plu = s.plu ∧ (setStandState k .tail s).flc = s.flc ∧ (setStandState k .tail s).mch = s.mch ∧
      (setStandState k .tail s).ms = s.ms ∧ (setStandState k .tail s).gce = s.gce := by simp
  obtain ⟨htmx, hstk, hsch, hplu, hflc, hmch, hms, hgce⟩ := hset
  refine ⟨hopen.stk.trans hstk, hopen.sch.trans hsch, hopen.plu.trans hplu, hopen.flc.trans hflc, hopen.mch.trans hmch,
    hopen.ms.trans hms, fun j => ?_, fun j => ?_, fun key => ?_⟩
  · rw [hopen.state, show (((setStandState k .tail s).modGap k fun g => { g with lockCount := 0 }).seq j) =
      (setStandState k .tail s).seq j from rfl, setStandState_seq]
    by_cases hj : j = k
    · rw [if_pos hj, if_pos ⟨hj, hroll⟩]
      exact (evalDemand_record_keeps _ _ _).1
    · rw [if_neg hj, if_neg fun e => hj e.1]
  · have hgap (i : Stand) : (setStandState k .tail s).gap i = s.gap i := by rw [State.gap, State.gap, hgce]
    rw [hopen.gap, modGap_gap, hgap, hgap]
    by_cases hj : j = k
    · rw [if_pos hj, if_pos ⟨hj, hroll⟩, hj]
    · rw [if_neg hj, if_neg fun e => hj e.1]
  · have hnotice : Aged key s (standNotice k ((setStandState k .tail s).modGap k fun g => { g with lockCount := 0 })) :=
      aged_of_table (by simp)
    exact hnotice.trans (aged_evalScopes key _)

theorem tailed_refl {k : Stand} {s : State} (hroll : (s.seq k).state.rolling = false) : Tailed k s s where
  stk := rfl
  sch := rfl
  plu := rfl
  flc := rfl
  mch := rfl
  ms := rfl
  state j := by rw [if_neg fun e => Bool.noConfusion (hroll.symm.trans e.2)]
  gap j := by rw [if_neg fun e => Bool.noConfusion (hroll.symm.trans e.2)]
  aged key := .refl key s

/-- Mill empty waits while a record is held (R79). -/
theorem seqTail_waits {k : Stand} {s : State} (h : s.stk.mill ≠ .tailout ∨ s.stk.heldCount ≠ 0) :
    seqTail k s = if (s.seq k).state.rolling then tailEntered k s else s := by
  rw [seqTail_eq]
  by_cases hroll : (s.seq k).state.rolling = true
  · have htailed := tailEntered_tailed hroll
    have hwaits : millEmptyTest (tailEntered k s) = tailEntered k s := by
      obtain hmill | hheld := h
      · obtain ⟨hempty, -⟩ | ⟨-, e⟩ := millEmptyTest_cases (tailEntered k s)
        · unfold State.millIsEmpty at hempty
          rw [htailed.stk, beq_eq_false_iff_ne.mpr hmill] at hempty
          exact Bool.noConfusion hempty
        · exact e
      · exact millEmptyTest_of (.inl (by rw [htailed.stk]; exact hheld))
    rw [if_pos hroll, if_pos hroll, hwaits, ite_self]
  · rw [if_neg hroll, if_neg hroll]

theorem seqTail_tailed {k : Stand} {s : State} (h : s.stk.mill ≠ .tailout ∨ s.stk.heldCount ≠ 0) : Tailed k s (seqTail k s) := by
  rw [seqTail_waits h]
  split
  next hroll => exact tailEntered_tailed hroll
  next hroll => exact tailed_refl (Bool.not_eq_true _ ▸ hroll)

section
variable {k : Stand} {s v : State} (h : Tailed k s v)
include h

theorem Tailed.activeSet : v.activeSet = s.activeSet := by
  rw [State.activeSet, State.activeSet, State.millRec, State.millRec, h.sch]

theorem Tailed.isFirst (j : Stand) : v.isFirst j = s.isFirst j := by
  rw [State.isFirst, State.isFirst, State.firstActive, State.firstActive, h.activeSet]

theorem Tailed.isLast (j : Stand) : v.isLast j = s.isLast j := by
  rw [State.isLast, State.isLast, State.lastActive, State.lastActive, h.activeSet]

theorem Tailed.nextActive (j : Stand) : v.nextActive j = s.nextActive j := by
  rw [State.nextActive, State.nextActive, h.activeSet]

theorem Tailed.inSet (j : Stand) : v.inSet j = s.inSet j := inSet_congr (congrArg ScheduleStore.active h.sch) j

theorem Tailed.span (j : SpanId) : v.span j = s.span j := by rw [State.span, State.span, h.stk]

/-- The bite's record is stamped as before the tail: the stamp reads no lock count (R74). -/
theorem Tailed.stamp (g : Segment) : stamp k v g = Machine.stamp k s g := by
  have hgap := h.gap k
  have hstate := h.state k
  unfold Machine.stamp
  by_cases hroll : (s.seq k).state.rolling = true
  · rw [if_pos ⟨rfl, hroll⟩] at hgap hstate
    have hnot : ((s.seq k).state == StandState.tripped) = false := by
      cases hs : (s.seq k).state <;> rw [hs] at hroll <;> first | rfl | exact Bool.noConfusion hroll
    rw [hgap, hstate, hnot]
    rfl
  · rw [if_neg fun e => hroll e.2] at hgap hstate
    rw [hgap, hstate]

/-- A tail takes no condition into scope (R139, R146, R147). -/
theorem Tailed.scope {c : StandCond} {j : Stand} (hc : (Key.stand c j).counted = true) (hout : scopeHolds s (.stand c j) = false) :
    scopeHolds v (.stand c j) = false := by
  have hstate {i : Stand} {st : StandState} (hst : st ≠ .tail) (hi : (v.seq i).state = st) : (s.seq i).state = st := by
    rw [h.state] at hi
    split at hi
    · exact absurd hi.symm hst
    · exact hi
  have hloop (hout : loopScope j s = false) : loopScope j v = false := by
    rw [← Bool.not_eq_true, loopScope_iff] at hout ⊢
    rw [h.inSet, h.isFirst, State.prevActive, h.activeSet]
    exact fun ⟨hset, hfirst, hroll, i, hi, hiroll⟩ => hout ⟨hset, hfirst, hstate (by decide) hroll, i, hi, hstate (by decide) hiroll⟩
  obtain rfl | rfl | rfl := (counted_iff c j).mp hc
  · rw [← Bool.not_eq_true, overdueScope_iff] at hout ⊢
    rw [h.inSet, h.isFirst, State.stripPresent, State.presence, h.plu]
    exact fun ⟨hset, hfirst, hready, habsent⟩ => hout ⟨hset, hfirst, hstate (by decide) hready, habsent⟩
  · exact hloop hout
  · exact hloop hout

theorem Tailed.noTripAt {j : Stand} (hno : NoTripAt j s) : NoTripAt j v := by
  intro c hc
  have hold := hno c hc
  unfold NoTripOf at hold ⊢
  rw [h.sch]
  exact hold.imp_right (Or.imp (aged_not_acked (h.aged _)) (h.scope hc))

theorem Tailed.pushStep (d : Stand) (b : Option Segment) : pushStep k d b v = Machine.pushStep k d b s := by
  unfold Machine.pushStep
  cases b with
  | none => rw [h.span]
  | some g =>
    dsimp only
    rw [← stamp_eq, ← stamp_eq, h.stamp, pushOnto_eq, pushOnto_eq, h.stk, h.span]

end

/-! ## At the tracker (R75, R76) -/

theorem vset_comm {α : Type} {n : Nat} (v : Vector α n) {i j : Fin n} (hij : i ≠ j) (a b : α) :
    vset (vset v i a) j b = vset (vset v j b) i a :=
  vec_ext fun l => by
    rw [vget_vset, vget_vset, vget_vset, vget_vset]
    by_cases hi : l = i
    · rw [if_neg (hi ▸ hij), if_pos hi, if_pos hi]
    · rw [if_neg hi, if_neg hi]

theorem moved_discardSpan (j : SpanId) (s : State) : Moved s (discardSpan j s) := by
  refine ⟨?_, ?_, ?_, ?_, ?_, ?_, ?_, ?_⟩ <;> simp

theorem giveTail_stk {k : Stand} {s : State} (hr : (pushBite k s).stk.ring.length ≤ 32) (hn : (pushBite k s).stk.retired ≤ 65535) :
    (giveTail k s).stk =
      retireAll (if s.isFirst k = true then [] else givenUp ((pushBite k s).span (spanInto k)))
        { (pushBite k s).stk with
          spans := if s.isFirst k = true then (pushBite k s).stk.spans else vset (pushBite k s).stk.spans (spanInto k) []
          tailMarks := vset (pushBite k s).stk.tailMarks k true } := by
  have hsame : (pushBite k s).isFirst k = s.isFirst k := by
    rw [State.isFirst, State.isFirst, State.firstActive, State.firstActive, pushBite_activeSet]
  unfold giveTail
  dsimp only
  rw [hsame]
  by_cases hfirst : s.isFirst k = true
  · rw [if_pos hfirst, if_pos hfirst, if_pos hfirst]
    exact (retireAll_nil { (pushBite k s).stk with tailMarks := vset (pushBite k s).stk.tailMarks k true } hr hn).symm
  · rw [if_neg hfirst, if_neg hfirst, if_neg hfirst]
    have h := discardSpan_stk (spanInto k) (pushBite k s) hr hn
    change ({ (discardSpan (spanInto k) (pushBite k s)).stk with
      tailMarks := vset (discardSpan (spanInto k) (pushBite k s)).stk.tailMarks k true } : Tracker) = _
    rw [h]
    rfl

theorem giveTail_mill (k : Stand) (s : State) : (giveTail k s).stk.mill = s.stk.mill := by
  have hdiscard (j : SpanId) (u : State) : (discardSpan j u).stk.mill = u.stk.mill :=
    foldl_keeps (fun t => t.stk.mill) _ (by simp) _ _
  unfold giveTail
  dsimp only
  refine Eq.trans ?_ (sameCoil_pushBite k s).mill
  split
  · rfl
  · exact hdiscard _ _

theorem giveTail_drawn {k : Stand} {s : State} (h : Drawn s (pushBite k s)) : Drawn s (giveTail k s) := by
  have hdiscard (j : SpanId) (u : State) : (discardSpan j u).stk.mill = u.stk.mill :=
    foldl_keeps (fun t => t.stk.mill) _ (by simp) _ _
  have hmark (u : State) : Drawn u (u.withStk { u.stk with tailMarks := vset u.stk.tailMarks k true }) := (moved_withStk _ u).drawn rfl
  unfold giveTail
  dsimp only
  refine h.trans (Drawn.trans ?_ (hmark _))
  split
  · exact .refl _
  · exact (moved_discardSpan _ _).drawn (hdiscard _ _)

/-- What the mill state becomes with the first stand's tail (R75). -/
theorem tailMill_stk (k : Stand) (s : State) :
    (tailMill k s).stk = { s.stk with mill := if s.isFirst k = true ∧ s.stk.mill = .rolling then .tailout else s.stk.mill } := by
  unfold tailMill
  by_cases h : s.isFirst k = true ∧ s.stk.mill = .rolling
  · rw [if_pos h, if_pos (by rw [h.1, h.2]; rfl)]
    simp [setMill]
  · rw [if_neg h, if_neg (by rw [Bool.and_eq_true, beq_iff_eq]; exact h)]

theorem tailMill_drawn (k : Stand) (s : State) : Drawn s (tailMill k s) := by
  unfold tailMill
  split
  next h =>
    rw [Bool.and_eq_true, beq_iff_eq] at h
    have hstart : Drawn s (s.withStk { s.stk with mill := .tailout }) :=
      ⟨rfl, rfl, rfl, rfl, rfl, by rw [h.2]; rfl, rfl, fun _ => rfl, fun key _ => .refl key s⟩
    refine hstart.trans (Unopened.drawn ((unopened_notice _ _).trans (unopened_evalScopes _)) fun key _ => ?_)
    have hnotice : Aged key (s.withStk { s.stk with mill := .tailout }) (millNotice (s.withStk { s.stk with mill := .tailout })) :=
      aged_of_table (by simp)
    exact hnotice.trans (aged_evalScopes key _)
  next => exact .refl s

/-- A tail at the tracker, where it brings no mill empty (R63, R75, R79). -/
theorem trackTail_leaves {k : Stand} {s : State} (hset : s.inSet k = true) (hmill : s.stk.mill.running = true)
    (h : (tailMill k (giveTail k s)).stk.mill ≠ .tailout ∨ (tailMill k (giveTail k s)).stk.heldCount ≠ 0) :
    trackTail k s = handCounts s (tailMill k (giveTail k s)) ∧ (trackTail k s).stk = (tailMill k (giveTail k s)).stk := by
  have e : trackTail k s = handCounts s (tailMill k (giveTail k s)) := by
    rw [trackTail_eq, hset, hmill]
    exact endTracker_leaves h
  exact ⟨e, by rw [e, (handCounts_inTracker s _).1]⟩

theorem giveTail_touched {j k : Stand} {s : State} (hord : s.activeSet.Pairwise (· < ·)) (hdown : j ∈ s.downstream)
    (htouched : spanTouched s (giveTail k s) j = true) : j = k ∨ s.nextActive k = some j := by
  by_cases hj : j = k
  · exact .inl hj
  · refine .inr (pushBite_touched hord hdown ?_)
    have hspan : (giveTail k s).span (spanInto j) = (pushBite k s).span (spanInto j) := by
      unfold giveTail
      dsimp only
      split
      · rfl
      · exact (discardSpan_spans _ _ _).trans (if_neg (spanInto_ne hj))
    rw [spanTouched, hspan] at htouched
    exact htouched

theorem tailMill_span (k : Stand) (j : SpanId) (s : State) : (tailMill k s).span j = s.span j := by
  rw [State.span, State.span, tailMill_stk]

/-- Toward the next stand of the set (R75). -/
theorem giveTail_next {k d : Stand} {s : State} {gone : List Segment} (hd : s.nextActive k = some d) (hr : s.stk.ring.length ≤ 32)
    (hn : s.stk.retired ≤ 65535)
    (hgone : gone = (pushStep k d (vget s.stk.bites k) s).2.toList ++
      (if s.isFirst k = true then [] else givenUp (s.span (spanInto k)))) :
    (giveTail k s).stk =
      retireAll gone
        { s.stk with
          bites := vset s.stk.bites k none
          spans :=
            vset (if s.isFirst k = true then s.stk.spans else vset s.stk.spans (spanInto k) []) (spanInto d)
              (pushStep k d (vget s.stk.bites k) s).1
          tailMarks := vset s.stk.tailMarks k true } := by
  obtain ⟨-, hstk⟩ := pushBite_next hd hr
  obtain ⟨-, -, -, hspan⟩ := pushBite_next_view hd hr
  have hne : spanInto d ≠ spanInto k := (spanInto_ne (ne_of_lt (nextActive_lt hd))).symm
  generalize pushStep k d (vget s.stk.bites k) s = out at *
  rw [retireOpt_eq _ _ (by exact hr) (by exact hn)] at hstk
  have hbounds := retireAll_bounds out.2.toList { s.stk with
    bites := vset s.stk.bites k none, spans := vset s.stk.spans (spanInto d) out.1 }
  rw [giveTail_stk (by rw [hstk]; exact hbounds.1) (by rw [hstk]; exact hbounds.2), hspan, hstk, hgone]
  refine Eq.trans ?_ (retireAll_append _ _ _ (by exact hn) (by exact hr))
  by_cases hfirst : s.isFirst k = true
  · rw [if_pos hfirst, if_pos hfirst, if_pos hfirst]
    rfl
  · rw [if_neg hfirst, if_neg hfirst, if_neg hfirst, vset_comm _ hne.symm]
    rfl

end Sys2Proof.Machine
end

section
/-! PROOFS. The pulse that confirms a tail: its event, a tail that the tracker ignores, and a TRIPPED stand (R51, R75, R123). -/

namespace Sys2Proof.Machine

/-! ## The event (R51, R52) -/

/-- The end of the strip at a stand (R51). -/
def absentAt (k : Stand) (s : State) : State := s.modPresence k fun _ => { state := .absent, measurer := 0 }

theorem tailConfirmed_eq (k : Stand) (s : State) :
    Machine.tailConfirmed k s = standNotice k (trackTail k (seqTail k (absentAt k s))) := rfl

theorem accumulate_pres (k : Stand) (s : State) : (accumulate k s).plu.pres = s.plu.pres := by
  obtain ⟨-, e⟩ | ⟨r, -, ⟨-, e⟩ | ⟨-, e⟩⟩ := accumulate_cases k s <;> rw [e] <;> simp

/-- The step and the length of a dropout confirm the tail (R3, R51). -/
def Confirms (k : Stand) (s : State) : Prop :=
  match s.record k with
  | none => 1000 * 1000000 ≤ (s.presence k).measurer + 1000000
  | some r => r.tConf * 1000000 ≤ (s.presence k).measurer + r.e

theorem forwardAt_tail {k : Stand} {s : State} (hdrop : (s.presence k).state = .dropout) (hconf : Confirms k s) :
    forwardAt k s = Machine.tailConfirmed k (accumulate k s) := by
  have hpres : (accumulate k s).presence k = s.presence k := by rw [State.presence, State.presence, accumulate_pres]
  unfold forwardAt
  refine measure_of_full _ _ _ (by rw [hpres]; exact hdrop) ?_
  rw [hpres]
  unfold Confirms at hconf
  unfold measuring
  cases hr : s.record k <;> rw [hr] at hconf <;> exact hconf

theorem exec_tail {k : Stand} {edge : PulseEdge} {s : State} (hrun : Running s) (hdir : edge.dir = true) (hns : 200 ≤ edge.sinceNs)
    (hdrop : (s.presence k).state = .dropout) (hconf : Confirms k s) :
    ∃ l, exec (.encoderPulse k edge) s = .next ((Machine.tailConfirmed k (accumulate k s)).withHlk l) ∧
      (s.hlk.tx ≠ none → l = (Machine.tailConfirmed k (accumulate k s)).hlk) := by
  have hline : (Machine.tailConfirmed k (accumulate k s)).hlk.tx = s.hlk.tx ∧
      (Machine.tailConfirmed k (accumulate k s)).hlk.held = s.hlk.held := by simp
  rw [exec_encoderPulse_forward k edge s hrun.1 hdir hns, forwardAt_tail hdrop hconf]
  obtain ⟨l, e, hl⟩ := endEvent_after hrun.2 hline.1 hline.2
  exact ⟨l, by rw [e], hl⟩

theorem tailConfirmed_presence (k : Stand) (s : State) :
    (Machine.tailConfirmed k s).presence k = { state := .absent, measurer := 0 } := by
  have h : (Machine.tailConfirmed k s).plu.pres = (absentAt k s).plu.pres := by
    rw [tailConfirmed_eq]
    simp
  rw [State.presence, h]
  exact vget_vset_self _ _ _

/-- The tail's notice (R51, R114). -/
theorem tailConfirmed_noticed (k : Stand) (s : State) :
    Noticed (.standState k ((Machine.tailConfirmed k s).seq k).state ((Machine.tailConfirmed k s).seq k).frozen false)
      (Machine.tailConfirmed k s) := by
  have habsent := tailConfirmed_presence k s
  rw [tailConfirmed_eq] at habsent ⊢
  rw [standNotice_seq]
  generalize trackTail k (seqTail k (absentAt k s)) = w at *
  have hplu : (standNotice k w).plu = w.plu := by simp
  have hstrip : w.stripPresent k = false := by
    rw [State.stripPresent, State.presence, ← hplu, ← State.presence, habsent]
    decide
  have h := noticed_updateNotice (.standState k (w.seq k).state (w.seq k).frozen false) w fun old => by cases old <;> rfl
  unfold standNotice
  rw [hstrip]
  exact h

/-! ## A tail that the tracker ignores (R75) -/

theorem rolling_iff (st : StandState) : st.rolling = true ↔ st = .thread ∨ st = .roll := by
  cases st <;> simp [StandState.rolling]

theorem tailConfirmed_ignored {k : Stand} {s : State} (hstate : (s.seq k).state.rolling = false)
    (h : s.inSet k = false ∨ s.stk.mill.running = false) : Machine.tailConfirmed k s = standNotice k (absentAt k s) := by
  have hseq : seqTail k (absentAt k s) = absentAt k s := by
    rw [seqTail_eq, if_neg]
    rw [show ((absentAt k s).seq k).state = (s.seq k).state from rfl, hstate]
    decide
  have htrack : trackTail k (absentAt k s) = absentAt k s := by
    rw [trackTail_eq, show (absentAt k s).inSet k = s.inSet k from rfl, show (absentAt k s).stk = s.stk from rfl]
    obtain h | h := h <;> rw [h]
    · rfl
    · rw [Bool.and_false]
      rfl
  rw [tailConfirmed_eq, hseq, htrack]

/-! ## A TRIPPED stand stays (R123) -/

theorem tripped_raiseKey {key : Key} {k : Stand} {s : State} (h : (s.seq k).state = .tripped) :
    ((raiseKey true key s).seq k).state = .tripped := by
  cases hr : s.recordOf key with
  | none =>
    rw [raiseKey_of_none true hr]
    exact createRecord_keeps_tripped true key h
  | some r => rw [seq_congr (raiseKey_of_record true hr).1, h]

theorem tripped_handCounts {before s : State} {k : Stand} (h : (s.seq k).state = .tripped) :
    ((handCounts before s).seq k).state = .tripped := by
  have htake (key : Key) (beyond : Bool) {t : State} (ht : (t.seq k).state = .tripped) :
      ((takeCount key beyond t).seq k).state = .tripped := by
    unfold takeCount
    split
    · split
      · exact tripped_raiseKey ht
      · exact ht
    · rw [(unopened_goneKey key t).state, ht]
  refine foldl_inv (P := fun t => (t.seq k).state = .tripped) _ (fun j {t} ht => ?_) _ h
  unfold handCount
  split
  · exact htake _ _ (htake _ _ (htake _ _ ht))
  · exact ht

theorem tripped_popExit {s : State} {k : Stand} (h : (s.seq k).state = .tripped) : ((popExit s).seq k).state = .tripped := by
  have harrive (g : Segment) {t : State} (ht : (t.seq k).state = .tripped) : ((arrive g t).seq k).state = .tripped := by
    unfold arrive
    rw [(moved_retire _ _).seq, (offerMonitor_drawn _ _).state]
    unfold takeExitStale
    split
    · rw [(unopened_goneKey _ t).state, ht]
    · split
      · exact tripped_raiseKey ht
      · exact ht
  unfold popExit
  split
  · exact harrive _ h
  · exact h

theorem tripped_pushBite {s : State} {k : Stand} (h : (s.seq k).state = .tripped) : ((pushBite k s).seq k).state = .tripped := by
  unfold pushBite
  split
  · unfold pushOut
    split
    · split
      · rw [(moved_retire _ _).seq]
        exact h
      · rw [(moved_pushSpan _ _ _).seq]
        exact h
    · dsimp only
      split
      · refine tripped_popExit ?_
        rw [(moved_pushSpan _ _ _).seq]
        exact h
      · rw [(moved_pushSpan _ _ _).seq]
        exact h
  · exact h

theorem tripped_tailConfirmed {k : Stand} {s : State} (h : (s.seq k).state = .tripped) :
    ((Machine.tailConfirmed k s).seq k).state = .tripped := by
  have hseq : seqTail k (absentAt k s) = absentAt k s := by
    rw [seqTail_eq, if_neg]
    rw [show ((absentAt k s).seq k).state = (s.seq k).state from rfl, h]
    decide
  have hgive : ((giveTail k (absentAt k s)).seq k).state = .tripped := by
    have hpush := tripped_pushBite (s := absentAt k s) h
    unfold giveTail
    dsimp only
    split
    · exact hpush
    · change ((discardSpan (spanInto k) (pushBite k (absentAt k s))).seq k).state = .tripped
      rw [(moved_discardSpan _ _).seq, hpush]
  rw [tailConfirmed_eq, standNotice_seq, hseq, trackTail_eq]
  split
  · refine tripped_millEmptyTest k (tripped_handCounts ?_)
    rw [(tailMill_drawn k _).state, hgive]
  · exact h

end Sys2Proof.Machine
end

section
/-! PROOFS. Tails that move or give up records and end no coil (R74 to R76, R99, R118). -/

namespace Sys2Proof.Machine

/-- An event that touches no span hands no count (R63). -/
theorem handCounts_untouched {before s : State} (h : ∀ j, j ∈ s.downstream → spanTouched before s j = false) :
    handCounts before s = s := by
  unfold handCounts
  rw [List.filter_eq_nil_iff.mpr fun j hj => by rw [h j hj]; decide]
  rfl

/-- The stand in TAIL behind the counts of its tail: none of them opens a stand. -/
theorem tail_state {k : Stand} {s v u : State} (htailed : Tailed k s v) (hroll : (s.seq k).state.rolling = true)
    (hord : s.activeSet.Pairwise (· < ·)) (hset : s.inSet k = true) (hdrawn : Drawn v u)
    (htouched : ∀ j, j ∈ v.downstream → spanTouched v u j = true → j = k ∨ v.nextActive k = some j)
    (hno : ∀ d, s.nextActive k = some d → NoTripAt d s ∨ (s.seq d).state ≠ .ready) :
    Unopened u (handCounts v u) ∧ ((handCounts v u).seq k).state = .tail ∧ ((handCounts v u).gap k).lockCount = 0 := by
  have hstate : (v.seq k).state = .tail := by rw [htailed.state, if_pos ⟨rfl, hroll⟩]
  have hdown : u.downstream = v.downstream := by rw [State.downstream, State.downstream, hdrawn.activeSet]
  have hopen : Unopened u (handCounts v u) := handCounts_unopened fun j hj ht => by
    refine noTripAt_passed hdrawn (by rw [htailed.activeSet]; exact hord) (by rw [htailed.inSet]; exact hset)
      (by rw [hstate]; decide) ((htouched j (hdown ▸ hj) ht).imp_right fun hjnext => ⟨hjnext, ?_⟩)
    rw [htailed.nextActive] at hjnext
    refine (hno j hjnext).imp htailed.noTripAt fun hready => ?_
    rw [htailed.state]
    split
    · decide
    · exact hready
  refine ⟨hopen, by rw [hopen.state, hdrawn.state, hstate], ?_⟩
  rw [hopen.gap, hdrawn.gap, htailed.gap, if_pos ⟨rfl, hroll⟩]

theorem tailMill_touched (k j : Stand) (v u : State) : spanTouched v (tailMill k u) j = spanTouched v u j := by
  rw [spanTouched, spanTouched, tailMill_span]

theorem giveTail_bites (k : Stand) (s : State) : (giveTail k s).stk.bites = (pushBite k s).stk.bites := by
  unfold giveTail
  dsimp only
  split
  · rfl
  · exact discardSpan_bites _ _

theorem pushBite_isFirst (k j : Stand) (s : State) : (pushBite k s).isFirst j = s.isFirst j := by
  rw [State.isFirst, State.isFirst, State.firstActive, State.firstActive, pushBite_activeSet]

theorem giveTail_isFirst (k j : Stand) (s : State) : (giveTail k s).isFirst j = s.isFirst j := by
  have hsch : (giveTail k s).sch = s.sch := by
    unfold giveTail
    dsimp only
    refine Eq.trans ?_ (pushBite_sch k s)
    split
    · rfl
    · exact (moved_discardSpan _ _).sch
  rw [State.isFirst, State.isFirst, State.firstActive, State.firstActive, State.activeSet, State.activeSet, State.millRec,
    State.millRec, hsch]

theorem giveTail_span (k : Stand) (j : SpanId) (s : State) :
    (giveTail k s).span j = if s.isFirst k = false ∧ j = spanInto k then [] else (pushBite k s).span j := by
  unfold giveTail
  dsimp only
  rw [pushBite_isFirst]
  cases hfirst : s.isFirst k
  · rw [if_neg (by decide)]
    refine (discardSpan_spans _ _ _).trans ?_
    by_cases hj : j = spanInto k
    · rw [if_pos hj, if_pos ⟨rfl, hj⟩]
    · rw [if_neg hj, if_neg fun e => hj e.2]
  · rw [if_pos rfl, if_neg fun e => Bool.noConfusion e.1]
    rfl

/-- A tail brings no mill empty in ROLLING at a stand other than the first, nor while a span holds a record (R75, R79). -/
theorem Tailed.leaves {k : Stand} {s v : State} (htailed : Tailed k s v) (hset : s.inSet k = true)
    (hmill : s.stk.mill = .rolling ∨ s.stk.mill = .tailout)
    (hkeep : s.stk.mill = .rolling ∧ s.isFirst k = false ∨ ∃ j, (giveTail k v).span j ≠ []) :
    trackTail k v = handCounts v (tailMill k (giveTail k v)) ∧ (trackTail k v).stk = (tailMill k (giveTail k v)).stk := by
  refine trackTail_leaves (by rw [htailed.inSet]; exact hset) ?_ ?_
  · rw [htailed.stk]
    obtain h | h := hmill <;> rw [h] <;> rfl
  · rw [tailMill_stk]
    obtain ⟨hrolling, hfirst⟩ | ⟨j, hj⟩ := hkeep
    · left
      have hgive : (giveTail k v).stk.mill = .rolling := by rw [giveTail_mill, htailed.stk, hrolling]
      have hother : (giveTail k v).isFirst k = false := by rw [giveTail_isFirst, htailed.isFirst, hfirst]
      dsimp only
      rw [if_neg fun e => Bool.noConfusion (hother.symm.trans e.1), hgive]
      decide
    · exact .inr (heldCount_ne_of_span j hj)

/-! ## Toward the next stand of the set (R75, R76) -/

section
variable {k d : Stand} {s : State} (hset : s.inSet k = true) (hd : s.nextActive k = some d)
  (hmill : s.stk.mill = .rolling ∨ s.stk.mill = .tailout)
  (hheld : vget s.stk.bites k ≠ none ∧ vget s.stk.tailMarks d = false ∨ s.stk.mill = .rolling ∧ s.isFirst k = false)

/-- A push behind no tail mark leaves a record in the span. -/
theorem giveTail_holds {k d : Stand} {s : State} (hd : s.nextActive k = some d) (hbite : vget s.stk.bites k ≠ none)
    (hmark : vget s.stk.tailMarks d = false) : (giveTail k s).span (spanInto d) ≠ [] := by
  have hne : spanInto d ≠ spanInto k := (spanInto_ne (ne_of_lt (nextActive_lt hd))).symm
  obtain ⟨g, hg⟩ := Option.ne_none_iff_exists'.mp hbite
  have hpush : pushBite k s = pushSpan (spanInto d) (stamp k s g) (s.setBite k none) := by
    unfold pushBite pushOut
    rw [hg]
    dsimp only
    rw [show (s.setBite k none).nextActive k = some d from hd]
    dsimp only
    rw [if_neg (by rw [show vget (s.setBite k none).stk.tailMarks d = false from hmark]; decide)]
  rw [giveTail_span, if_neg fun e => hne e.2, hpush, pushSpan_self]
  split <;> simp

include hset hd hmill hheld

/-- The tail at the sequencer and at the tracker, one behind the other. -/
theorem tail_next :
    Tailed k s (seqTail k s) ∧
      trackTail k (seqTail k s) = handCounts (seqTail k s) (tailMill k (giveTail k (seqTail k s))) ∧
      (trackTail k (seqTail k s)).stk = (tailMill k (giveTail k (seqTail k s))).stk := by
  have htailed : Tailed k s (seqTail k s) := seqTail_tailed (by
    obtain ⟨hbite, -⟩ | ⟨hrolling, -⟩ := hheld
    · exact .inr (heldCount_ne_of_bite k hbite)
    · exact .inl (by rw [hrolling]; decide))
  refine ⟨htailed, htailed.leaves hset hmill ?_⟩
  rw [or_comm]
  refine hheld.imp_left fun ⟨hbite, hmark⟩ => ?_
  rw [← htailed.nextActive] at hd
  rw [← htailed.stk] at hbite hmark
  exact ⟨spanInto d, giveTail_holds hd hbite hmark⟩

theorem tail_next_stk {out : List Segment × Option Segment} {gone : List Segment} (hr : s.stk.ring.length ≤ 32)
    (hn : s.stk.retired ≤ 65535) (hout : out = pushStep k d (vget s.stk.bites k) s)
    (hgone : gone = out.2.toList ++ (if s.isFirst k = true then [] else givenUp (s.span (spanInto k)))) :
    (trackTail k (seqTail k s)).stk =
      retireAll gone
        { s.stk with
          mill := if s.isFirst k = true then .tailout else s.stk.mill
          bites := vset s.stk.bites k none
          spans :=
            vset (if s.isFirst k = true then s.stk.spans else vset s.stk.spans (spanInto k) []) (spanInto d) out.1
          tailMarks := vset s.stk.tailMarks k true } := by
  obtain ⟨htailed, -, e⟩ := tail_next hset hd hmill hheld
  rw [e, tailMill_stk]
  generalize seqTail k s = v at htailed
  have hd' : v.nextActive k = some d := by rw [htailed.nextActive]; exact hd
  have hgive := giveTail_next (gone := gone) hd' (by rw [htailed.stk]; exact hr) (by rw [htailed.stk]; exact hn) (by
    rw [hgone, hout, htailed.stk, htailed.pushStep, htailed.isFirst, htailed.span])
  rw [htailed.stk, htailed.pushStep, htailed.isFirst, ← hout] at hgive
  have hfirst : (giveTail k v).isFirst k = s.isFirst k := by rw [giveTail_isFirst, htailed.isFirst]
  rw [hfirst, hgive]
  unfold retireAll
  dsimp only
  by_cases hf : s.isFirst k = true
  · obtain h | h := hmill <;> simp [hf, h]
  · rw [if_neg hf, if_neg hf, if_neg fun h => hf h.1]

theorem tail_next_state (hord : s.activeSet.Pairwise (· < ·)) (hroll : (s.seq k).state.rolling = true)
    (hno : NoTripAt d s ∨ (s.seq d).state ≠ .ready) :
    ((trackTail k (seqTail k s)).seq k).state = .tail ∧ ((trackTail k (seqTail k s)).gap k).lockCount = 0 := by
  obtain ⟨htailed, e, -⟩ := tail_next hset hd hmill hheld
  rw [e]
  generalize seqTail k s = v at htailed
  have hd' : v.nextActive k = some d := by rw [htailed.nextActive]; exact hd
  have hgive := giveTail_drawn (pushBite_drawn (k := k) (s := v) (.inl (by rw [hd']; exact Option.some_ne_none d)))
  refine (tail_state htailed hroll hord hset (hgive.trans (tailMill_drawn k _)) (fun j hj ht => ?_) fun j hj => ?_).2
  · rw [tailMill_touched] at ht
    exact giveTail_touched (by rw [htailed.activeSet]; exact hord) hj ht
  · obtain rfl : d = j := Option.some.inj (hd.symm.trans hj)
    exact hno

end

/-- A tail that has nothing to give (R75). -/
theorem tail_bare {k : Stand} {s : State} (hset : s.inSet k = true) (hmill : s.stk.mill = .rolling) (hfirst : s.isFirst k = false)
    (hbite : vget s.stk.bites k = none) (hspan : s.span (spanInto k) = []) (hroll : (s.seq k).state.rolling = true) :
    ((trackTail k (seqTail k s)).seq k).state = .tail ∧ ((trackTail k (seqTail k s)).gap k).lockCount = 0 ∧
      vget (trackTail k (seqTail k s)).stk.tailMarks k = true := by
  have htailed : Tailed k s (seqTail k s) := seqTail_tailed (.inl (by rw [hmill]; decide))
  generalize seqTail k s = v at htailed
  have hpush : pushBite k v = v := by
    unfold pushBite
    rw [htailed.stk, hbite]
  have hdrawn := giveTail_drawn (k := k) (s := v) (by rw [hpush]; exact .refl v)
  have hsame : (giveTail k v).isFirst k = false := by rw [giveTail_isFirst, htailed.isFirst, hfirst]
  have hgmill : (giveTail k v).stk.mill = .rolling := by rw [giveTail_mill, htailed.stk, hmill]
  have htm : tailMill k (giveTail k v) = giveTail k v := by
    unfold tailMill
    rw [hsame]
    rfl
  have huntouched (j : Stand) : spanTouched v (giveTail k v) j = false := by
    rw [spanTouched, giveTail_span, hpush]
    split
    next h => rw [h.2, htailed.span, hspan, bne_self_eq_false]
    next => rw [bne_self_eq_false]
  have e : trackTail k v = giveTail k v := by
    have h := (trackTail_leaves (k := k) (s := v) (by rw [htailed.inSet]; exact hset) (by rw [htailed.stk, hmill]; rfl)
      (.inl (by rw [htm, hgmill]; decide))).1
    rw [h, htm, handCounts_untouched fun j _ => huntouched j]
  rw [e]
  refine ⟨by rw [hdrawn.state, htailed.state, if_pos ⟨rfl, hroll⟩], by rw [hdrawn.gap, htailed.gap, if_pos ⟨rfl, hroll⟩], ?_⟩
  unfold giveTail
  exact vget_vset_self _ _ _

end Sys2Proof.Machine
end

section
/-! PROOFS. Mill empty, where no record is ACKED (R14 to R16, R80, R155). -/

namespace Sys2Proof.Machine

/-! ## Tables without an ACKED record -/

def NoneAcked (s : State) : Prop := ∀ q ∈ s.tmx.table, q.state ≠ .acked

/-- The trip matrix has taken no record out of the table: no record is ACKED, and the open cover and the sequencer records stand
as they were. -/
structure Covered (s t : State) : Prop where
  ssq : t.ssq = s.ssq
  acked : NoneAcked t
  cover : ∀ k, t.openCover k = s.openCover k

theorem Covered.trans {s t u : State} (h : Covered s t) (g : Covered t u) : Covered s u :=
  ⟨g.ssq.trans h.ssq, g.acked, fun k => (g.cover k).trans (h.cover k)⟩

theorem covered_of_table {s t : State} (hack : NoneAcked s) (htable : t.tmx.table = s.tmx.table) (hssq : t.ssq = s.ssq) :
    Covered s t :=
  ⟨hssq, by unfold NoneAcked; rw [htable]; exact hack, fun k => by rw [State.openCover, State.openCover, htable]⟩

theorem covered_marked {s : State} (key : Key) {f : TripRecord → TripRecord} (hack : NoneAcked s)
    (hf : ∀ r, (f r).key = r.key ∧ (f r).action = r.action ∧ (f r).state ≠ .acked) : Covered s (s.modRecord key f) := by
  refine ⟨rfl, fun q hq => ?_, fun k => ?_⟩
  · obtain ⟨r, hr, rfl⟩ := List.mem_map.mp hq
    split
    · exact (hf r).2.2
    · exact hack r hr
  · have hcover : ∀ r : TripRecord, (if r.key == key then f r else r).action = r.action ∧
        (if r.key == key then f r else r).covers k = r.covers k := fun r => by
      obtain ⟨hkey, haction, -⟩ := hf r
      split
      · exact ⟨haction, by unfold TripRecord.covers; rw [hkey, haction]⟩
      · exact ⟨rfl, rfl⟩
    change (List.map (fun r => if r.key == key then f r else r) s.tmx.table).any _ = s.tmx.table.any _
    rw [List.any_map]
    refine List.any_congr rfl fun r => ?_
    rw [Function.comp_apply, (hcover r).1, (hcover r).2]

theorem covered_goneKey (key : Key) {s : State} (hack : NoneAcked s) : Covered s (goneKey key s) := by
  obtain ⟨-, e⟩ | ⟨r, hr, ⟨-, e⟩ | ⟨hacked, -⟩ | ⟨-, e⟩⟩ := goneKey_cases key s
  · rw [e]
    exact covered_of_table hack rfl rfl
  · have hmark := covered_marked (s := s) key (f := fun r => { r with state := .held }) hack fun r => ⟨rfl, rfl, fun h => nomatch h⟩
    rw [e]
    exact hmark.trans (covered_of_table hmark.acked (by simp) (by simp))
  · exact absurd hacked (hack r (recordOf_mem hr))
  · rw [e]
    exact covered_of_table hack rfl rfl

theorem covered_evalScopes {s : State} (hack : NoneAcked s) : Covered s (evalScopes s) := by
  refine foldl_inv (P := fun t => Covered s t) _ (fun key {t} ht => ?_) _ (covered_of_table hack rfl rfl)
  unfold goneOutOfScope
  split
  · exact ht.trans (covered_goneKey key ht.acked)
  · exact ht

/-! ## The stands at mill empty -/

theorem emptied_committed {s : State} (h : s.sch.pendingBank.state = .committed) : emptied s = swapBank s := if_pos h

theorem emptied_kept {s : State} (h : s.sch.pendingBank.state ≠ .committed) : emptied s = s := if_neg h

/-- Mill empty leaves the banks, the gap records and the length counts as the swap before it left them (R80). -/
theorem millEmpty_leaves (s : State) :
    (millEmpty s).sch = (emptied s).sch ∧ (millEmpty s).gce = (emptied s).gce ∧ (millEmpty s).plu = (emptied s).plu ∧
      (millEmpty s).stk =
        { (emptied s).stk with mill := stateAfterEmpty (unmarked s), tailMarks := Vector.replicate 8 false } := by
  have hmarked : (unmarked s).sch = (emptied s).sch ∧ (unmarked s).gce = (emptied s).gce ∧ (unmarked s).plu = (emptied s).plu ∧
      (unmarked s).stk = { (emptied s).stk with tailMarks := Vector.replicate 8 false } := by
    unfold unmarked
    simp
  obtain ⟨hsch, hgce, hplu, hstk⟩ := hmarked
  rw [millEmpty_unfold]
  generalize stateAfterEmpty (unmarked s) = m
  generalize unmarked s = u at *
  unfold setMill
  refine ⟨?_, ?_, ?_, ?_⟩
  · simp [hsch]
  · simp [hgce]
  · simp [hplu]
  · simp [hstk]

theorem swapState_away (inSet cover : Bool) (st : StandState) : (swapState inSet cover st).away = st.away := by
  unfold swapState placement
  cases st <;> cases inSet <;> cases cover <;> decide

/-- A swap leaves no stand in TAIL (R16). -/
theorem swapState_untailed (inSet cover : Bool) (st : StandState) :
    (if swapState inSet cover st = .tail then StandState.setup else swapState inSet cover st) =
      if st = .local_ ∨ st = .handover ∨ st = .tripped then st
      else if inSet = false then .out else if cover = true then .tripped else .setup := by
  unfold swapState placement
  cases st <;> cases inSet <;> cases cover <;> decide

/-- A stand away from the mill stays where it is (R15, R16, R80). -/
theorem millEmpty_away (k : Stand) (s : State) : ((unmarked s).seq k).state.away = (s.seq k).state.away := by
  have hunmarked : ((unmarked s).seq k).state = ((millEmpty s).seq k).state := by
    rw [millEmpty_unfold]
    generalize stateAfterEmpty (unmarked s) = m
    exact (standing_iff.mp (congrFun (setMill_standing m (unmarked s)) k)).1.symm
  have hswap : ((emptied s).seq k).state.away = (s.seq k).state.away := by
    by_cases hcommitted : s.sch.pendingBank.state = .committed
    · rw [emptied_committed hcommitted, swapBank_state, swapState_away]
    · rw [emptied_kept hcommitted]
  rw [hunmarked, millEmpty_state, ← hswap]
  generalize ((emptied s).seq k).state = st
  cases st <;> decide

theorem inSet_iff_mem {k : Stand} {s : State} : s.inSet k = true ↔ k ∈ s.activeSet := List.contains_iff_mem

theorem millEmpty_emptied (s : State) : MillEmptied (fun k => (s.seq k).state) s (millEmpty s) := by
  obtain ⟨hsch, hgce, hplu, hstk⟩ := millEmpty_leaves s
  have hset (k : Stand) : (millEmpty s).inSet k = (unmarked s).inSet k :=
    inSet_congr (by rw [hsch, unmarked_active]) k
  have hgap (k : Stand) : (millEmpty s).gap k = (emptied s).gap k := by rw [State.gap, State.gap, hgce]
  have hrecord (k : Stand) : (millEmpty s).record k = (emptied s).record k := by rw [State.record, State.record, hsch]
  refine ⟨fun k => ?_, ?_, fun hno => ?_, fun hcommitted => ?_⟩
  · have hmarks : (millEmpty s).stk.tailMarks = Vector.replicate 8 false := by rw [hstk]
    rw [hmarks]
    exact vget_replicate _ k
  · have hmill : (millEmpty s).stk.mill = stateAfterEmpty (unmarked s) := by rw [hstk]
    rw [hmill]
    unfold stateAfterEmpty
    refine if_congr ?_ rfl rfl
    rw [List.any_eq_true]
    constructor
    · rintro ⟨k, hk, haway⟩
      exact ⟨k, (hset k).trans (inSet_iff_mem.mpr hk), (away_iff _).mp ((millEmpty_away k s).symm.trans haway)⟩
    · rintro ⟨k, hk, haway⟩
      exact ⟨k, inSet_iff_mem.mp ((hset k).symm.trans hk), (millEmpty_away k s).trans ((away_iff _).mpr haway)⟩
  · rw [emptied_kept hno] at hsch
    exact ⟨hsch, fun k => by rw [millEmpty_state, emptied_kept hno]⟩
  · have hbank : (swapBank s).sch =
        { s.sch with
          active := { state := .valid, bank := s.sch.pendingBank.bank, serial := s.sch.pendingBank.serial }
          pendingBank := PendingBank.none } := swapBank_sch s
    have hnew (k : Stand) : (swapBank s).record k = (swapStart s).record k := by rw [State.record, State.record, swapBank_sch]
    rw [emptied_committed hcommitted] at hsch hgap hrecord hplu hstk
    obtain ⟨hswapstk, hswapacc, -⟩ := swapBank_leaves s
    refine ⟨by rw [hsch, hbank], by rw [hsch, hbank]; rfl, fun k => ?_, fun k => ?_, ?_, fun k => ?_⟩
    · have hopen := (swapBank_openings s).gap k
      rw [(swapStart_line s k).1] at hopen
      rw [hgap, hrecord, hnew, hopen]
      exact ⟨rfl, rfl, rfl⟩
    · rw [hplu]
      exact hswapacc k
    · rw [hstk, hswapstk]
    · have hin : (millEmpty s).inSet k = (swapBank s).inSet k :=
        inSet_congr (by rw [hsch]) k
      rw [millEmpty_state, emptied_committed hcommitted, swapBank_state, hin]
      exact swapState_untailed _ _ _

theorem MillEmptied.congr {before before' : Stand → StandState} {s s' t t' : State} (hbefore : ∀ k, before' k = before k)
    (hsch : s'.sch = s.sch) (hcover : ∀ k, s'.openCover k = s.openCover k) (htsch : t'.sch = t.sch) (htstk : t'.stk = t.stk)
    (htgce : t'.gce = t.gce) (htacc : t'.plu.acc = t.plu.acc) (htssq : t'.ssq = t.ssq) (h : MillEmptied before s t) :
    MillEmptied before' s' t' := by
  have hset (k : Stand) : t'.inSet k = t.inSet k := inSet_congr (by rw [htsch]) k
  have hgap (k : Stand) : t'.gap k = t.gap k := by rw [State.gap, State.gap, htgce]
  have hrecord (k : Stand) : t'.record k = t.record k := by rw [State.record, State.record, htsch]
  unfold MillEmptied at h ⊢
  simpa only [hbefore, hsch, hcover, htsch, htstk, htacc, hset, hgap, hrecord, seq_congr htssq] using h

end Sys2Proof.Machine
end

section
/-! PROOFS. A tail at the last stand of the set (R75, R77). -/

namespace Sys2Proof.Machine

/-! ## The push onto the exit span -/

/-- What the push of the last stand puts onto an exit span that keeps within N_x (R73). -/
theorem pushBite_pushed {k : Stand} {m : MillRecord} {pushed : List Segment} {s : State} (hnext : s.nextActive k = none)
    (hm : s.millRec = some m) (hnX : m.nX < 24) (hpushed : pushed = (vget s.stk.bites k).toList.map (stamp k s))
    (hroom : (s.span exitSpan).length + pushed.length ≤ m.nX) :
    Drawn s (pushBite k s) ∧
      (pushBite k s).stk =
        { s.stk with
          bites := vset s.stk.bites k none
          spans := vset s.stk.spans exitSpan (s.span exitSpan ++ pushed) } := by
  cases hbite : vget s.stk.bites k with
  | none =>
    have e : pushBite k s = s := by
      unfold pushBite
      rw [hbite]
    have hkeepBites : vset s.stk.bites k none = s.stk.bites := by rw [← hbite, vset_vget]
    have hkeepSpans : vset s.stk.spans exitSpan (s.span exitSpan) = s.stk.spans := vset_vget _ _
    rw [hbite] at hpushed
    rw [e, hpushed, hkeepBites, Option.toList_none, List.map_nil, List.append_nil, hkeepSpans]
    exact ⟨.refl s, rfl⟩
  | some g =>
    rw [hbite] at hpushed
    obtain rfl : pushed = [stamp k s g] := hpushed
    have hshort : (s.span exitSpan).length < m.nX := hroom
    refine ⟨pushBite_drawn (.inr (.inr ⟨m, hm, hshort⟩)), ?_⟩
    rw [pushBite_short hnext hm hbite hnX hshort]
    rfl

/-- A span without a record gives up nothing. -/
theorem discardSpan_empty {j : SpanId} {s : State} (h : s.span j = []) : discardSpan j s = s.setSpan j [] := by
  unfold discardSpan
  rw [h]
  rfl

/-- What an arrival does, read from a state that agrees in what the exit gauge reads. -/
theorem ExitArrival.source {g : Segment} {m : MillRecord} {target : Nat} {s s' t : State} (hchan : s'.chan 25 = s.chan 25)
    (hring : s'.stk.ring = s.stk.ring) (hretired : s'.stk.retired = s.stk.retired) (hhold : s'.stk.hold = s.stk.hold)
    (hinteg : ∀ j, (s'.gap j).integ = (s.gap j).integ) (hrecord : ∀ j, s'.record j = s.record j)
    (hset : ∀ j, s'.inSet j = s.inSet j) (hstate : ∀ j, (s'.seq j).state = (s.seq j).state)
    (hfrozen : ∀ j, (s'.seq j).frozen = (s.seq j).frozen) (h : ExitArrival g m target s t) : ExitArrival g m target s' t := by
  unfold ExitArrival at h ⊢
  simpa only [hchan, hring, hretired, hhold, hinteg, hrecord, hset, hstate, hfrozen] using h

/-! ## A tail where no record is ACKED -/

theorem setStandState_frozen (k j : Stand) (st : StandState) (s : State) :
    ((setStandState k st s).seq j).frozen = (s.seq j).frozen := by
  rw [setStandState_seq]
  split
  next h =>
    rw [h]
    exact (evalDemand_record_keeps _ _ _).2.1
  next => rfl

/-- The trip matrix takes a tail without a removal (R139, R155). -/
theorem tailEntered_covered {k : Stand} {s : State} (hack : NoneAcked s) :
    NoneAcked (tailEntered k s) ∧ (∀ j, (tailEntered k s).openCover j = s.openCover j) ∧
      ∀ j, ((tailEntered k s).seq j).frozen = (s.seq j).frozen := by
  have hset : (setStandState k .tail s).tmx = s.tmx := by simp
  have hnotice (u : State) : (standNotice k u).tmx = u.tmx ∧ (standNotice k u).ssq = u.ssq := ⟨by simp, by simp⟩
  obtain ⟨htmx, hssq⟩ := hnotice ((setStandState k .tail s).modGap k fun g => { g with lockCount := 0 })
  have htable : (standNotice k ((setStandState k .tail s).modGap k fun g => { g with lockCount := 0 })).tmx.table = s.tmx.table := by
    rw [htmx]
    exact congrArg TripMatrix.table hset
  have h := covered_evalScopes (s := standNotice k ((setStandState k .tail s).modGap k fun g => { g with lockCount := 0 }))
    (by unfold NoneAcked; rw [htable]; exact hack)
  refine ⟨h.acked, fun j => (h.cover j).trans ?_, fun j => ?_⟩
  · rw [State.openCover, State.openCover, htable]
  · unfold tailEntered
    rw [seq_congr (h.ssq.trans hssq)]
    exact setStandState_frozen k j .tail s

/-- The sequencer's part of a tail that leaves the mill empty test waiting (R79, R99, R155). -/
theorem seqTail_covered {k : Stand} {s : State} (hack : NoneAcked s) (h : s.stk.mill ≠ .tailout ∨ s.stk.heldCount ≠ 0) :
    NoneAcked (seqTail k s) ∧ (∀ j, (seqTail k s).openCover j = s.openCover j) ∧
      ∀ j, ((seqTail k s).seq j).frozen = (s.seq j).frozen := by
  rw [seqTail_waits h]
  split
  · exact tailEntered_covered hack
  · exact ⟨hack, fun _ => rfl, fun _ => rfl⟩

/-! ## The tail -/

section
variable {k : Stand} {m : MillRecord} {pushed gone : List Segment} {s : State} (hset : s.inSet k = true)
  (hord : s.activeSet.Pairwise (· < ·)) (hlast : s.isLast k = true)
  (hheld : s.stk.mill = .rolling ∧ s.isFirst k = false ∨
    (s.stk.mill = .rolling ∨ s.stk.mill = .tailout) ∧ vget s.stk.bites k ≠ none)
  (hm : s.millRec = some m) (hnX : m.nX < 24)
include hset hord hlast hheld hm hnX

omit hm hnX in
theorem tail_last_starts : s.nextActive k = none ∧ (s.stk.mill = .rolling ∨ s.stk.mill = .tailout) ∧ Tailed k s (seqTail k s) := by
  refine ⟨(nextActive_last hord hset).mpr hlast, hheld.elim (fun h => .inl h.1) And.left, seqTail_tailed ?_⟩
  exact hheld.imp (fun h => by rw [h.1]; decide) fun h => heldCount_ne_of_bite k h.2

/-- With room on the exit span no record goes to the exit gauge (R77). -/
theorem tail_last_short (hpushed : pushed = (vget s.stk.bites k).toList.map (stamp k s))
    (hroom : (s.span exitSpan).length + pushed.length ≤ m.nX) (hr : s.stk.ring.length ≤ 32) (hn : s.stk.retired ≤ 65535)
    (hgone : gone = if s.isFirst k = true then [] else givenUp (s.span (spanInto k))) :
    (trackTail k (seqTail k s)).stk =
        retireAll gone
          { s.stk with
            mill := if s.isFirst k = true then .tailout else s.stk.mill
            bites := vset s.stk.bites k none
            spans :=
              vset (if s.isFirst k = true then s.stk.spans else vset s.stk.spans (spanInto k) []) exitSpan
                (s.span exitSpan ++ pushed)
            tailMarks := vset s.stk.tailMarks k true } ∧
      ((s.seq k).state.rolling = true →
        ((trackTail k (seqTail k s)).seq k).state = .tail ∧ ((trackTail k (seqTail k s)).gap k).lockCount = 0) := by
  obtain ⟨hnext, hmill, htailed⟩ := tail_last_starts hset hord hlast hheld
  generalize seqTail k s = v at htailed
  have hnextv : v.nextActive k = none := (htailed.nextActive k).trans hnext
  have hpush := pushBite_pushed (k := k) (pushed := pushed) hnextv (by rw [State.millRec, htailed.sch]; exact hm) hnX
    (by rw [hpushed, htailed.stk, show stamp k v = stamp k s from funext htailed.stamp]) (by rw [htailed.span]; exact hroom)
  obtain ⟨hdrawn, hstk⟩ := hpush
  rw [htailed.stk, htailed.span] at hstk
  have hexit : (pushBite k v).span exitSpan = s.span exitSpan ++ pushed := by
    rw [State.span, hstk]
    exact vget_vset_self _ _ _
  have hinto (hfirst : s.isFirst k = false) : spanInto k ≠ exitSpan ∧ (pushBite k v).span (spanInto k) = s.span (spanInto k) := by
    obtain ⟨hne, e⟩ := pushBite_last_into (k := k) (s := v) (by rw [htailed.activeSet]; exact hord) (by rw [htailed.inSet]; exact hset)
      (by rw [htailed.isLast]; exact hlast) (by rw [htailed.isFirst]; exact hfirst)
    exact ⟨hne, e.trans (htailed.span _)⟩
  have hkeep : s.stk.mill = .rolling ∧ s.isFirst k = false ∨ ∃ j, (giveTail k v).span j ≠ [] := by
    refine hheld.imp_right fun ⟨_, hbite⟩ => ⟨exitSpan, ?_⟩
    obtain ⟨g, hg⟩ := Option.ne_none_iff_exists'.mp hbite
    rw [giveTail_span, if_neg, hexit, hpushed, hg]
    · simp
    · rintro ⟨hfirst, e⟩
      exact (hinto (by rw [← hfirst, htailed.isFirst])).1 e.symm
  have hend := htailed.leaves hset hmill hkeep
  obtain ⟨htrack, hstkEnd⟩ := hend
  constructor
  · have hgive := giveTail_stk (k := k) (s := v) (by rw [hstk]; exact hr) (by rw [hstk]; exact hn)
    rw [hstkEnd, tailMill_stk, giveTail_isFirst, hgive, htailed.isFirst, hstk]
    unfold retireAll
    dsimp only
    by_cases hfirst : s.isFirst k = true
    · rw [if_pos hfirst, if_pos hfirst, if_pos hfirst, if_pos hfirst] at *
      rw [hgone]
      obtain h | h := hmill <;> simp [hfirst, h]
    · obtain ⟨hne, hspan⟩ := hinto (Bool.not_eq_true _ ▸ hfirst)
      rw [if_neg hfirst] at hgone
      rw [if_neg hfirst, if_neg hfirst, if_neg hfirst, if_neg hfirst, if_neg fun h => hfirst h.1, hspan, hgone, vset_comm _ hne]
  · intro hroll
    rw [htrack]
    refine (tail_state htailed hroll hord hset ((giveTail_drawn hdrawn).trans (tailMill_drawn k _)) (fun j hj ht => ?_)
      fun j hj => nomatch hnext.symm.trans hj).2
    rw [tailMill_touched] at ht
    exact giveTail_touched (by rw [htailed.activeSet]; exact hord) hj ht

/-- On an exit span at N_x the push sends the oldest record to the exit gauge (R73, R77). -/
theorem tail_last_pushes {v : State} {g old : Segment} {rest : List Segment} (htailed : Tailed k s v)
    (hbite : vget s.stk.bites k = some g) (hspan : s.span exitSpan = old :: rest) (hfull : rest.length + 1 = m.nX) :
    pushBite k v = arrive old ((v.setBite k none).setSpan exitSpan (rest ++ [stamp k s g])) := by
  have hnext := (tail_last_starts hset hord hlast hheld).1
  rw [pushBite_full ((htailed.nextActive k).trans hnext) (by rw [State.millRec, htailed.sch]; exact hm)
    (by rw [htailed.stk]; exact hbite) hnX ((htailed.span _).trans hspan) hfull, htailed.stamp]

theorem tail_last_full {g old : Segment} {rest : List Segment} (hfirst : s.isFirst k = false)
    (hbite : vget s.stk.bites k = some g) (hspan : s.span exitSpan = old :: rest) (hfull : rest.length + 1 = m.nX) :
    (trackTail k (seqTail k s)).span exitSpan = rest ++ [stamp k s g] ∧ vget (trackTail k (seqTail k s)).stk.bites k = none ∧
      (trackTail k (seqTail k s)).span (spanInto k) = [] ∧ vget (trackTail k (seqTail k s)).stk.tailMarks k = true ∧
      (GaugeQuiet s → (s.seq k).state.rolling = true →
        ((trackTail k (seqTail k s)).seq k).state = .tail ∧ ((trackTail k (seqTail k s)).gap k).lockCount = 0) := by
  obtain ⟨hnext, hmill, htailed⟩ := tail_last_starts hset hord hlast hheld
  generalize seqTail k s = v at htailed
  have hpush := tail_last_pushes hset hord hlast hheld hm hnX htailed hbite hspan hfull
  have hplaces := arrive_places old ((v.setBite k none).setSpan exitSpan (rest ++ [stamp k s g]))
  rw [← hpush] at hplaces
  have hne : exitSpan ≠ spanInto k := fun e => pos_of_not_first hord hset hfirst ((spanInto_exit k).mp e.symm)
  have hexit : (pushBite k v).span exitSpan = rest ++ [stamp k s g] := by
    rw [State.span, hplaces.1]
    exact vget_vset_self _ _ _
  have hgive : (giveTail k v).span exitSpan = rest ++ [stamp k s g] := by
    rw [giveTail_span, if_neg fun e => hne e.2, hexit]
  have hend := htailed.leaves hset hmill (.inr ⟨exitSpan, by rw [hgive]; simp⟩)
  obtain ⟨htrack, hstkEnd⟩ := hend
  refine ⟨?_, ?_, ?_, ?_, fun hquiet hroll => ?_⟩
  · rw [State.span, hstkEnd]
    exact (tailMill_span k exitSpan _).trans hgive
  · rw [hstkEnd, tailMill_stk]
    dsimp only
    rw [giveTail_bites, hplaces.2]
    exact vget_vset_self _ _ _
  · rw [State.span, hstkEnd]
    refine (tailMill_span k _ _).trans ?_
    rw [giveTail_span, if_pos ⟨(htailed.isFirst k).trans hfirst, rfl⟩]
  · rw [hstkEnd, tailMill_stk]
    exact vget_vset_self _ _ _
  · have hgauge : GaugeQuiet v := by
      unfold GaugeQuiet
      rw [State.chan, htailed.mch, htailed.sch]
      exact hquiet
    rw [htrack]
    refine (tail_state htailed hroll hord hset ((giveTail_drawn (pushBite_drawn (.inr (.inl hgauge)))).trans (tailMill_drawn k _))
      (fun j hj ht => ?_) fun j hj => nomatch hnext.symm.trans hj).2
    rw [tailMill_touched] at ht
    exact giveTail_touched (by rw [htailed.activeSet]; exact hord) hj ht

/-- The arrival that the tail's push brings, the stand in TAIL by then (R77, R99, R107). -/
theorem tail_last_arrival {g old : Segment} {rest : List Segment} {r : StandRecord} {u : State} (hfirst : s.isFirst k = false)
    (hbite : vget s.stk.bites k = some g) (hspan : s.span exitSpan = old :: rest) (hfull : rest.length + 1 = m.nX)
    (hr : s.record k = some r) (hring : s.stk.ring.length ≤ 32) (hempty : s.span (spanInto k) = []) (hack : NoneAcked s)
    (hu : u =
      { s with
        ssq := vset s.ssq k
          { s.seq k with state := if (s.seq k).state = .thread ∨ (s.seq k).state = .roll then .tail else (s.seq k).state } }) :
    ExitArrival old m r.hTgt u (trackTail k (seqTail k s)) := by
  obtain ⟨hnext, hmill, htailed⟩ := tail_last_starts hset hord hlast hheld
  obtain ⟨hackv, -, hfrozen⟩ := seqTail_covered (k := k) hack (.inr (heldCount_ne_of_bite k (by rw [hbite]; exact Option.some_ne_none g)))
  generalize seqTail k s = v at htailed hackv hfrozen
  have hpush := tail_last_pushes hset hord hlast hheld hm hnX htailed hbite hspan hfull
  have hplaces := arrive_places old ((v.setBite k none).setSpan exitSpan (rest ++ [stamp k s g]))
  rw [← hpush] at hplaces
  have hne : exitSpan ≠ spanInto k := fun e => pos_of_not_first hord hset hfirst ((spanInto_exit k).mp e.symm)
  have hexit : (pushBite k v).span exitSpan = rest ++ [stamp k s g] := by
    rw [State.span, hplaces.1]
    exact vget_vset_self _ _ _
  have hfirstv : v.isFirst k = false := (htailed.isFirst k).trans hfirst
  have hgive : (giveTail k v).span exitSpan ≠ [] := by
    rw [giveTail_span, if_neg fun e => hne e.2, hexit]
    simp
  obtain ⟨htrack, -⟩ := htailed.leaves hset hmill (.inr ⟨exitSpan, hgive⟩)
  have hinto : (pushBite k v).span (spanInto k) = [] := by
    rw [(pushBite_last_into (k := k) (s := v) (by rw [htailed.activeSet]; exact hord) (by rw [htailed.inSet]; exact hset)
      (by rw [htailed.isLast]; exact hlast) hfirstv).2, htailed.span, hempty]
  have hgiven : giveTail k v = ((pushBite k v).setSpan (spanInto k) []).withStk
      { ((pushBite k v).setSpan (spanInto k) []).stk with tailMarks := vset (pushBite k v).stk.tailMarks k true } := by
    unfold giveTail
    dsimp only
    rw [if_neg (by rw [pushBite_isFirst, hfirstv]; decide), discardSpan_empty hinto]
    rfl
  have hkept : tailMill k (giveTail k v) = giveTail k v := by
    unfold tailMill
    rw [giveTail_isFirst, hfirstv]
    rfl
  have hrunning : s.stk.mill.running = true := by obtain h | h := hmill <;> rw [h] <;> rfl
  have harrive := arrive_exit (g := old) (m := m) (target := r.hTgt)
    (s := (v.setBite k none).setSpan exitSpan (rest ++ [stamp k s g])) (by rw [← hm, State.millRec, State.millRec, ← htailed.sch]; rfl)
    (exitTarget_last (k := k) (by rw [← hlast]; exact htailed.isLast k) (by rw [← hr, State.record, State.record, ← htailed.sch]; rfl))
    (by rw [← hrunning, ← htailed.stk]; rfl) (by rw [← htailed.stk] at hring; exact hring)
    fun q hq => hackv q (recordOf_mem (by exact hq))
  rw [← hpush] at harrive
  have hmoved : Moved (pushBite k v) (giveTail k v) := by
    rw [hgiven]
    exact (moved_setSpan _ _ _).trans (moved_withStk _ _)
  have hgrun : (giveTail k v).stk.mill.running = true := by rw [giveTail_mill, htailed.stk, hrunning]
  have hstate (j : Stand) : (u.seq j).state = (v.seq j).state ∧ (u.seq j).frozen = (v.seq j).frozen := by
    have huseq : u.seq j = if j = k then
        { s.seq k with state := if (s.seq k).state = .thread ∨ (s.seq k).state = .roll then .tail else (s.seq k).state }
        else s.seq j := by
      rw [hu]
      exact vget_vset _ _ _ _
    rw [huseq, htailed.state, hfrozen]
    by_cases hj : j = k
    · rw [if_pos hj, hj]
      simp only [true_and, rolling_iff, and_self]
    · rw [if_neg hj, if_neg fun e => hj e.1]
      exact ⟨rfl, rfl⟩
  have hsource : ExitArrival old m r.hTgt u (pushBite k v) := by
    refine harrive.source (s' := u) ?_ ?_ ?_ ?_ ?_ ?_ ?_ (fun j => (hstate j).1) fun j => (hstate j).2
    · rw [hu]
      exact congrArg (fun x => vget x 25) htailed.mch.symm
    · rw [hu]
      exact congrArg Tracker.ring htailed.stk.symm
    · rw [hu]
      exact congrArg Tracker.retired htailed.stk.symm
    · rw [hu]
      exact congrArg Tracker.hold htailed.stk.symm
    · intro j
      have hgap : (v.gap j).integ = (s.gap j).integ := by
        rw [htailed.gap]
        split <;> rfl
      rw [hu]
      exact hgap.symm
    · intro j
      rw [hu]
      exact congrArg (fun x : ScheduleStore => vget x.active.bank.stands j) htailed.sch.symm
    · intro j
      rw [hu]
      exact (htailed.inSet j).symm
  rw [htrack, hkept]
  refine hsource.congr ?_ ?_ ?_ ?_ fun j => ?_
  · exact present_congr ((handCounts_exitStale hgrun).trans (hmoved.recordOf _))
  · rw [(handCounts_inTracker v _).1, hgiven]
    rfl
  · rw [(handCounts_inTracker v _).1, hgiven]
    rfl
  · rw [(handCounts_inTracker v _).1, hgiven]
    rfl
  · rw [handCounts_integ, hmoved.gap]

end

end Sys2Proof.Machine
end

section
/-! PROOFS. The tail that ends the coil (R79, R80). -/

namespace Sys2Proof.Machine

/-! ## The end of a coil -/

/-- The mill-empty event that a tracker event brings, read from the state as the event began (R79, R80). -/
theorem millEmptyTest_emptied {before : Stand → StandState} {s w : State} (hmill : w.stk.mill = .tailout)
    (hheld : w.stk.heldCount = 0) (hsch : w.sch = s.sch) (hcover : ∀ j, w.openCover j = s.openCover j)
    (hstate : ∀ j, (w.seq j).state = before j) (hstill : ∀ j, s.inSet j = true → (before j).rolling = false) :
    MillEmptied before s (millEmptyTest w) ∧ (millEmptyTest w).stk.ring = w.stk.ring ∧
      (millEmptyTest w).stk.retired = w.stk.retired ∧ (millEmptyTest w).stk.mill.running = false := by
  have hempty : w.millIsEmpty = true := by
    unfold State.millIsEmpty
    rw [hmill, (noSegments_iff _).mpr hheld]
    refine List.all_eq_true.mpr fun j hj => ?_
    have hset : s.inSet j = true := (inSet_congr (congrArg ScheduleStore.active hsch.symm) j).trans (inSet_iff_mem.mpr hj)
    rw [hstate, hstill j hset]
    rfl
  have e : millEmptyTest w = millEmpty w := if_pos hempty
  have hstk : (emptied w).stk.ring = w.stk.ring ∧ (emptied w).stk.retired = w.stk.retired := by
    unfold emptied
    split
    · rw [(swapBank_leaves w).1]
      exact ⟨rfl, rfl⟩
    · exact ⟨rfl, rfl⟩
  have hend := (millEmpty_leaves w).2.2.2
  rw [e]
  refine ⟨(millEmpty_emptied w).congr (fun j => (hstate j).symm) hsch.symm (fun j => (hcover j).symm) rfl rfl rfl rfl rfl, ?_, ?_, ?_⟩
  · rw [hend]
    exact hstk.1
  · rw [hend]
    exact hstk.2
  · rw [hend]
    dsimp only
    unfold stateAfterEmpty
    split <;> rfl

/-! ## What is given up -/

theorem discardSpan_ring (j : SpanId) {s : State} (hr : s.stk.ring.length ≤ 32) :
    (discardSpan j s).stk.ring = (retireAll (givenUp (s.span j)) s.stk).ring := by
  have hcongr (l : List Segment) {a b : Tracker} (h : a.ring = b.ring) : (retireAll l a).ring = (retireAll l b).ring := by
    simp only [retireAll, h]
  have hfold (l : List Segment) (t : State) (ht : t.stk.ring.length ≤ 32) :
      (l.foldl (fun t g => retire g.asDiscarded t) t).stk.ring = (retireAll (givenUp l) t.stk).ring := by
    induction l generalizing t with
    | nil => simp [retireAll, givenUp, ht]
    | cons g rest ih =>
      have hone := retire_one g.asDiscarded t ht
      rw [List.foldl_cons, ih _ (by rw [hone]; exact retireOpt_bounds ht), hone]
      have hopt := congrArg Tracker.ring (retireOpt_eq (some g.asDiscarded) { t.stk with retired := 0 } (by exact ht) (Nat.zero_le _))
      have hcons := congrArg Tracker.ring (retireAll_cons g.asDiscarded (givenUp rest) { t.stk with retired := 0 } (Nat.zero_le _))
      exact (hcongr _ hopt).trans hcons.symm
  exact hfold _ _ hr

/-- Counts whose conditions are out of scope take no record out of the table (R139, R155). -/
theorem handCounts_covered {before s : State} (hack : NoneAcked s)
    (h : ∀ k c, k ∈ s.downstream → spanTouched before s k = true → (Key.stand c k).counted = true →
      scopeHolds s (.stand c k) = false) : Covered s (handCounts before s) := by
  have htake (key : Key) (hkey : key.counted = true) (beyond : Bool) {t : State} (hout : scopeHolds s key = false)
      (ht : Unopened s t ∧ Covered s t) : Unopened s (takeCount key beyond t) ∧ Covered s (takeCount key beyond t) := by
    have hscope : scopeHolds t key = false := (ht.1.scope _).trans hout
    refine ⟨ht.1.trans (takeCount_unopened hkey beyond (.inr (.inr hscope))).1, ?_⟩
    unfold takeCount
    rw [hscope]
    split
    · exact ht.2
    · exact ht.2.trans (covered_goneKey key ht.2.acked)
  have hstep (l : List Stand) (hl : ∀ k, k ∈ l → k ∈ s.downstream.filter fun k => spanTouched before s k) (t : State)
      (ht : Unopened s t ∧ Covered s t) : Covered s (l.foldl (fun t k => handCount k (s.span (spanInto k)).length t) t) := by
    induction l generalizing t with
    | nil => exact ht.2
    | cons k rest ih =>
      refine ih (fun j hj => hl j (List.mem_cons_of_mem _ hj)) _ ?_
      obtain ⟨hdown, htouched⟩ := List.mem_filter.mp (hl k List.mem_cons_self)
      have hk (c : StandCond) (hc : (Key.stand c k).counted = true) (beyond : Bool) {t : State} :=
        htake (.stand c k) hc beyond (t := t) (h k c hdown htouched hc)
      dsimp only
      unfold handCount
      split
      · exact hk .loopPull rfl _ (hk .loopGrow rfl _ (hk .headOverdue rfl _ ht))
      · exact ht
  exact hstep _ (fun _ hk => hk) s ⟨.refl s, covered_of_table hack rfl rfl⟩

/-! ## The tail that ends the coil -/

section
variable {k : Stand} {s : State} (hset : s.inSet k = true) (hmill : s.stk.mill = .tailout) (hroll : (s.seq k).state.rolling = true)
  (hothers : ∀ j, j ≠ k → s.inSet j = true → (s.seq j).state.rolling = false) (hack : NoneAcked s)
include hset hmill hroll hothers hack

/-- Nothing is held: the sequencer's part ends the coil (R79, R99). -/
theorem tail_empties_held (hheld : s.stk.heldCount = 0) :
    MillEmptied (fun j => if j = k then .tail else (s.seq j).state) s (trackTail k (seqTail k s)) ∧
      (trackTail k (seqTail k s)).stk.ring = s.stk.ring := by
  have htailed := tailEntered_tailed hroll
  have hcovered := tailEntered_covered (k := k) hack
  have e : seqTail k s = millEmptyTest (tailEntered k s) := by
    rw [seqTail_eq, if_pos hroll, if_pos (by rw [htailed.inSet]; exact hset)]
  rw [e]
  generalize tailEntered k s = v at htailed hcovered
  obtain ⟨hempty, hring, -, hrun⟩ := millEmptyTest_emptied (before := fun j => if j = k then .tail else (s.seq j).state) (w := v)
    (by rw [htailed.stk]; exact hmill) (by rw [htailed.stk]; exact hheld) htailed.sch hcovered.2.1
    (fun j => by rw [htailed.state]; simp only [hroll, and_true]) fun j hj => by
      split
      · rfl
      next hne => exact hothers j hne hj
  have hidle : trackTail k (millEmptyTest v) = millEmptyTest v := by
    rw [trackTail_eq, hrun, Bool.and_false]
    rfl
  rw [hidle, hring, htailed.stk]
  exact ⟨hempty, rfl⟩

/-- Nothing is held but what the tail gives up (R75, R79). -/
theorem tail_empties_given (hfirst : s.isFirst k = false) (hbite : vget s.stk.bites k = none)
    (hheld : s.stk.heldCount = (s.span (spanInto k)).length) (hsome : s.stk.heldCount ≠ 0) :
    MillEmptied (fun j => if j = k then .tail else (s.seq j).state) s (trackTail k (seqTail k s)) ∧
      (s.stk.ring.length ≤ 32 →
        (trackTail k (seqTail k s)).stk.ring = (retireAll (givenUp (s.span (spanInto k))) s.stk).ring) := by
  have htailed : Tailed k s (seqTail k s) := seqTail_tailed (.inr hsome)
  have hcovered := seqTail_covered (k := k) hack (.inr hsome)
  generalize seqTail k s = v at htailed hcovered
  have hgive : ∃ marks, giveTail k v =
      (discardSpan (spanInto k) v).withStk { (discardSpan (spanInto k) v).stk with tailMarks := marks } := by
    have hpush : pushBite k v = v := by
      unfold pushBite
      rw [htailed.stk, hbite]
    refine ⟨vset (discardSpan (spanInto k) v).stk.tailMarks k true, ?_⟩
    unfold giveTail
    dsimp only
    rw [hpush, htailed.isFirst, hfirst]
    rfl
  obtain ⟨marks, hgive⟩ := hgive
  have hmoved : Moved v (giveTail k v) := by
    rw [hgive]
    exact (moved_discardSpan _ _).trans (moved_withStk _ _)
  have hkept : tailMill k (giveTail k v) = giveTail k v := by
    unfold tailMill
    rw [giveTail_isFirst, htailed.isFirst, hfirst]
    rfl
  have hgmill : (giveTail k v).stk.mill = .tailout := by rw [giveTail_mill, htailed.stk, hmill]
  have hstate (j : Stand) : ((giveTail k v).seq j).state = if j = k then .tail else (s.seq j).state := by
    rw [hmoved.seq, htailed.state]
    simp only [hroll, and_true]
  have hout (j : Stand) (c : StandCond) (hj : j ∈ (giveTail k v).downstream) (ht : spanTouched v (giveTail k v) j = true)
      (hc : (Key.stand c j).counted = true) : scopeHolds (giveTail k v) (.stand c j) = false := by
    obtain rfl : j = k := by
      by_contra hne
      have hspan : (giveTail k v).span (spanInto j) = v.span (spanInto j) := by
        rw [hgive]
        exact (discardSpan_spans _ _ _).trans (if_neg (spanInto_ne hne))
      rw [spanTouched, hspan, bne_self_eq_false] at ht
      exact Bool.noConfusion ht
    have htail : ((giveTail j v).seq j).state = .tail := (hstate j).trans (if_pos rfl)
    obtain rfl | rfl | rfl := (counted_iff c j).mp hc
    · exact overdueScope_away (by rw [htail]; decide)
    · exact loopScope_away (by rw [htail]; decide)
    · exact loopScope_away (by rw [htail]; decide)
  have hgack : NoneAcked (giveTail k v) := by
    unfold NoneAcked
    rw [hmoved.tmx]
    exact hcovered.1
  obtain ⟨hopen, -⟩ := handCounts_outOfScope hout
  have hcounted := handCounts_covered hgack hout
  have e : trackTail k v = millEmptyTest (handCounts v (giveTail k v)) := by
    rw [trackTail_eq, if_pos (by rw [htailed.inSet, hset, htailed.stk, hmill]; rfl), hkept]
    rfl
  have hnone : (giveTail k v).stk.heldCount = 0 := by
    have h := heldCount_setSpan v.stk (spanInto k) []
    have hspans : (discardSpan (spanInto k) v).stk.spans = vset v.stk.spans (spanInto k) [] := vec_ext fun j => by
      rw [vget_vset]
      exact discardSpan_spans _ _ _
    have hsame : (giveTail k v).stk.heldCount = ({ v.stk with spans := vset v.stk.spans (spanInto k) [] } : Tracker).heldCount := by
      rw [hgive]
      exact heldCount_congr (discardSpan_bites _ _) hspans
    have hlen : (vget v.stk.spans (spanInto k)).length = v.stk.heldCount := by
      rw [htailed.stk, hheld]
      rfl
    rw [hlen] at h
    exact hsame.trans (Nat.add_eq_right.mp h)
  obtain ⟨hempty, hring, -⟩ := millEmptyTest_emptied (before := fun j => if j = k then .tail else (s.seq j).state) (s := s)
    (w := handCounts v (giveTail k v)) (by rw [hopen.stk, hgmill]) (by rw [hopen.stk, hnone])
    (hopen.sch.trans (hmoved.sch.trans htailed.sch))
    (fun j => (hcounted.cover j).trans (Eq.trans (by rw [State.openCover, State.openCover, hmoved.tmx]) (hcovered.2.1 j)))
    (fun j => (hopen.state j).trans (hstate j)) fun j hj => by
      split
      · rfl
      next hne => exact hothers j hne hj
  refine ⟨by rw [e]; exact hempty, fun hr => ?_⟩
  have hdiscard := discardSpan_ring (spanInto k) (s := v) (by rw [htailed.stk]; exact hr)
  rw [htailed.span, htailed.stk] at hdiscard
  rw [e, hring, hopen.stk, hgive]
  exact hdiscard

theorem tail_empties
    (hheld : s.stk.heldCount = 0 ∨
      s.isFirst k = false ∧ vget s.stk.bites k = none ∧ s.stk.heldCount = (s.span (spanInto k)).length) :
    MillEmptied (fun j => if j = k then .tail else (s.seq j).state) s (trackTail k (seqTail k s)) ∧
      (s.stk.ring.length ≤ 32 →
        (trackTail k (seqTail k s)).stk.ring = (retireAll (givenUp (s.span (spanInto k))) s.stk).ring) := by
  by_cases hnone : s.stk.heldCount = 0
  · obtain ⟨hempty, hring⟩ := tail_empties_held hset hmill hroll hothers hack hnone
    refine ⟨hempty, fun hr => ?_⟩
    have hspan : s.span (spanInto k) = [] := ((heldCount_eq_zero _).mp hnone (spanInto k)).2
    rw [hring, hspan]
    simp [retireAll, givenUp, hr]
  · obtain ⟨hfirst, hbite, hlen⟩ := hheld.resolve_left hnone
    exact tail_empties_given hset hmill hroll hothers hack hfirst hbite hlen hnone

end

end Sys2Proof.Machine
end

section
/-! PROOFS. An advance and a tail in one pulse (R52, R75). -/

namespace Sys2Proof.Machine

/-! ## The advance, where no count opens a stand -/

theorem handCounts_quiet {before s : State} (h : ∀ j, NoTripAt j s) :
    Unopened s (handCounts before s) ∧ ∀ j, NoTripAt j (handCounts before s) := by
  refine foldl_inv (P := fun t => Unopened s t ∧ ∀ j, NoTripAt j t) _ (fun k {t} ht => ?_) _ ⟨.refl s, h⟩
  obtain ⟨hopen, hkeeps⟩ := handCount_unopened (s.span (spanInto k)).length (ht.2 k)
  exact ⟨ht.1.trans hopen, fun j => hkeeps j (ht.2 j)⟩

/-- Short of the lock delay an advance moves the lock count alone (R98). -/
theorem countAdvance_short {k : Stand} {r : StandRecord} {s : State} (hr : s.record k = some r)
    (h : (s.seq k).state = .thread → (s.gap k).lockCount + 1 ≠ r.lockDelay) :
    countAdvance k s = s ∨ countAdvance k s = s.modGap k fun g => { g with lockCount := g.lockCount + 1 } := by
  by_cases hthread : (s.seq k).state = .thread
  · by_cases hcount : (s.gap k).lockCount < r.lockDelay
    · right
      rw [countAdvance_counts hr hthread hcount, if_neg (h hthread)]
    · left
      unfold countAdvance
      rw [hr]
      exact if_neg fun e => hcount e.2
  · exact .inl (countAdvance_still hthread)

/-- A stand's lock count is nothing that a stamp or a count's condition reads. -/
theorem lockCount_unread {k : Stand} {r : StandRecord} {s : State} (hr : s.record k = some r)
    (h : (s.seq k).state = .thread → (s.gap k).lockCount + 1 ≠ r.lockDelay) :
    (countAdvance k s).stk = s.stk ∧ (countAdvance k s).sch = s.sch ∧ (countAdvance k s).plu = s.plu ∧
      (countAdvance k s).ssq = s.ssq ∧ (∀ g, stamp k (countAdvance k s) g = stamp k s g) ∧
      ∀ j, NoTripAt j s → NoTripAt j (countAdvance k s) := by
  obtain e | e := countAdvance_short hr h
  · rw [e]
    exact ⟨rfl, rfl, rfl, rfl, fun _ => rfl, fun _ hj => hj⟩
  · rw [e]
    refine ⟨rfl, rfl, rfl, rfl, fun g => ?_, fun j hj c hc => ?_⟩
    · unfold stamp
      rw [modGap_gap_self]
      rfl
    · refine (hj c hc).imp_right (Or.imp_right fun hout => ?_)
      obtain rfl | rfl | rfl := (counted_iff c j).mp hc <;> exact hout

/-- The strip that leaves a stand is read by no count of another stand's span (R146, R147). -/
theorem noTripAt_absentAt {j k : Stand} {s : State} (hj : j ≠ k) (h : NoTripAt j s) : NoTripAt j (absentAt k s) := by
  intro c hc
  refine (h c hc).imp_right (Or.imp_right fun hout => ?_)
  have hstrip : (absentAt k s).stripPresent j = s.stripPresent j := by
    have hpres : (absentAt k s).presence j = s.presence j := vget_vset_ne _ _ hj
    rw [State.stripPresent, State.stripPresent, hpres]
  obtain rfl | rfl | rfl := (counted_iff c j).mp hc
  · rw [← Bool.not_eq_true, overdueScope_iff] at hout ⊢
    rw [hstrip]
    exact hout
  · exact hout
  · exact hout

/-- An advance has gone by, and the strip has left the stand. -/
structure Passed (k : Stand) (s a : State) : Prop where
  stk : a.stk = (advanced k s).stk
  sch : a.sch = s.sch
  acc : a.plu.acc = s.plu.acc
  state : ∀ j, (a.seq j).state = (s.seq j).state
  stamp : ∀ g, stamp k a g = Machine.stamp k s g
  quiet : ∀ j, j ≠ k → NoTripAt j a

theorem passed_absent {k : Stand} {r : StandRecord} {s : State} (hmoves : StripMoves k s) (hmill : s.stk.mill = .rolling)
    (hr : s.record k = some r) (hlock : (s.seq k).state = .thread → (s.gap k).lockCount + 1 ≠ r.lockDelay) (hno : NoSpanTrip s)
    (hdrawn : Drawn s (advanced k s)) : Passed k s (absentAt k (biteAdvance k s)) := by
  have hboth := biteAdvance_leaves hmoves (.inl (by rw [advanced_mill, hmill]; decide))
  obtain ⟨htrack, hstk⟩ := hboth
  have hquiet (j : Stand) : NoTripAt j (advanced k s) := fun c hc =>
    hdrawn.noTripOf (fun e => nomatch e) (hno.at j c hc)
  obtain ⟨hopen, hopenQuiet⟩ := handCounts_quiet (before := s) hquiet
  generalize handCounts s (advanced k s) = u at *
  have hsch : u.sch = s.sch := hopen.sch.trans hdrawn.sch
  have hgap (j : Stand) : u.gap j = { s.gap j with integ := (u.gap j).integ } := by rw [hopen.gap, ← hdrawn.gap]
  have hstate (j : Stand) : (u.seq j).state = (s.seq j).state := (hopen.state j).trans (hdrawn.state j)
  obtain ⟨-, hcsch, hcplu, hcssq, hcstamp, hcquiet⟩ := lockCount_unread (k := k) (r := r) (s := u)
    (by rw [State.record, hsch]; exact hr) (by rw [hstate, hgap]; exact hlock)
  unfold biteAdvance at hstk ⊢
  rw [htrack] at hstk ⊢
  generalize countAdvance k u = b at *
  refine ⟨hstk, hcsch.trans hsch, ?_, fun j => ?_, fun g => ?_, fun j hj => noTripAt_absentAt hj (hcquiet j (hopenQuiet j))⟩
  · have hacc : b.plu.acc = s.plu.acc := congrArg PresenceUnit.acc (hcplu.trans (hopen.plu.trans hdrawn.plu))
    exact hacc
  · exact (congrArg SeqRecord.state (seq_congr hcssq j)).trans (hstate j)
  · refine (hcstamp g).trans ?_
    unfold stamp
    rw [hstate, hgap]

section
variable {k : Stand} {s a : State} (h : Passed k s a)
include h

theorem Passed.activeSet : a.activeSet = s.activeSet := by
  rw [State.activeSet, State.activeSet, State.millRec, State.millRec, h.sch]

theorem Passed.isFirst (j : Stand) : a.isFirst j = s.isFirst j := by
  rw [State.isFirst, State.isFirst, State.firstActive, State.firstActive, h.activeSet]

theorem Passed.isLast (j : Stand) : a.isLast j = s.isLast j := by
  rw [State.isLast, State.isLast, State.lastActive, State.lastActive, h.activeSet]

theorem Passed.nextActive (j : Stand) : a.nextActive j = s.nextActive j := by
  rw [State.nextActive, State.nextActive, h.activeSet]

theorem Passed.inSet (j : Stand) : a.inSet j = s.inSet j := inSet_congr (congrArg ScheduleStore.active h.sch) j

theorem Passed.mill : a.stk.mill = s.stk.mill := by rw [h.stk, advanced_mill]

/-- The tail's push has the stamp that the advance's had (R52, R74). -/
theorem Passed.pushStep {d : Stand} {l : List Segment} (hspan : a.span (spanInto d) = l)
    (hmark : vget a.stk.tailMarks d = vget s.stk.tailMarks d) (b : Option Segment) :
    pushStep k d b a = Machine.pushStep k d b (s.setSpan (spanInto d) l) := by
  have hset : (s.setSpan (spanInto d) l).span (spanInto d) = l := vget_vset_self _ _ _
  have hstamp (g : Segment) : Machine.stamp k (s.setSpan (spanInto d) l) g = Machine.stamp k s g := rfl
  unfold Machine.pushStep
  cases b with
  | none =>
    dsimp only
    rw [hspan, hset]
  | some g =>
    dsimp only
    rw [← stamp_eq, ← stamp_eq, h.stamp, hstamp, pushOnto_eq, pushOnto_eq, hspan, hset, hmark]
    rfl

/-- The stand behind the tail, where no count opens a stand (R99, R123). -/
theorem Passed.tail_state {d : Stand} (hset : s.inSet k = true) (hd : s.nextActive k = some d) (hmill : s.stk.mill = .rolling)
    (hheld : vget a.stk.bites k ≠ none ∧ vget a.stk.tailMarks d = false ∨ s.isFirst k = false)
    (hstate : (s.seq k).state = .thread ∨ (s.seq k).state = .roll ∨ (s.seq k).state = .tripped) :
    ((trackTail k (seqTail k a)).seq k).state = (if (s.seq k).state = .tripped then .tripped else .tail) ∧
      (trackTail k (seqTail k a)).plu.acc = s.plu.acc := by
  have hamill : a.stk.mill = .rolling := h.mill.trans hmill
  obtain ⟨htailed, e, -⟩ := tail_next (k := k) (d := d) (s := a) (by rw [h.inSet]; exact hset) (by rw [h.nextActive]; exact hd)
    (.inl hamill) (hheld.imp_right fun hfirst => ⟨hamill, by rw [h.isFirst]; exact hfirst⟩)
  rw [e]
  generalize seqTail k a = v at htailed
  have hmoved : (v.seq k).state = if (s.seq k).state = .tripped then .tripped else .tail := by
    rw [htailed.state, h.state]
    obtain hst | hst | hst := hstate <;> rw [hst] <;> simp [StandState.rolling]
  have hnext : v.nextActive k ≠ none := by
    rw [htailed.nextActive, h.nextActive, hd]
    exact Option.some_ne_none d
  have hdrawn : Drawn v (tailMill k (giveTail k v)) := (giveTail_drawn (pushBite_drawn (.inl hnext))).trans (tailMill_drawn k _)
  have hquiet (j : Stand) : NoTripAt j v := by
    by_cases hj : j = k
    · subst hj
      have hout : (v.seq j).state ≠ .roll ∧ (v.seq j).state ≠ .ready := by
        rw [hmoved]
        split <;> decide
      intro c hc
      refine .inr (.inr ?_)
      obtain rfl | rfl | rfl := (counted_iff c j).mp hc
      · exact overdueScope_away hout.2
      · exact loopScope_away hout.1
      · exact loopScope_away hout.1
    · exact htailed.noTripAt (h.quiet j hj)
  obtain ⟨hopen, -⟩ := handCounts_quiet (before := v) fun j c hc => hdrawn.noTripOf (fun e => nomatch e) (hquiet j c hc)
  refine ⟨by rw [hopen.state, hdrawn.state, hmoved], ?_⟩
  rw [hopen.plu, hdrawn.plu, htailed.plu]
  exact h.acc

/-- The two pushes of a stand between the first and the last (R52, R73, R75). -/
theorem Passed.tail_other {d : Stand} {one two : List Segment × Option Segment} (hset : s.inSet k = true)
    (hd : s.nextActive k = some d) (hmill : s.stk.mill = .rolling) (hfirst : s.isFirst k = false) (hr : s.stk.ring.length ≤ 32)
    (hn : s.stk.retired ≤ 65535) (hone : one = Machine.pushStep k d (vget s.stk.bites k) s)
    (htwo : two = Machine.pushStep k d (s.span (spanInto k)).head? (s.setSpan (spanInto d) one.1)) :
    (trackTail k (seqTail k a)).stk =
      retireAll (one.2.toList ++ two.2.toList ++ givenUp (s.span (spanInto k)).tail)
        { s.stk with
          bites := vset s.stk.bites k none
          spans := vset (vset s.stk.spans (spanInto k) []) (spanInto d) two.1
          tailMarks := vset s.stk.tailMarks k true } := by
  have hne : spanInto d ≠ spanInto k := (spanInto_ne (ne_of_lt (nextActive_lt hd))).symm
  have hadv := h.stk.trans (advanced_other hd hr hfirst)
  rw [← hone, retireOpt_eq _ _ (by exact hr) (by exact hn)] at hadv
  have hbounds := retireAll_bounds one.2.toList { s.stk with
    bites := vset s.stk.bites k (s.span (spanInto k)).head?,
    spans := vset (vset s.stk.spans (spanInto d) one.1) (spanInto k) (s.span (spanInto k)).tail }
  have hspan (j : SpanId) : a.span j = if j = spanInto k then (s.span (spanInto k)).tail
      else if j = spanInto d then one.1 else s.span j := by
    rw [State.span, hadv]
    exact (vget_vset _ _ _ _).trans (if_congr Iff.rfl rfl (vget_vset _ _ _ _))
  have hbite : vget a.stk.bites k = (s.span (spanInto k)).head? := by
    rw [hadv]
    exact vget_vset_self _ _ _
  have hstep := h.pushStep (d := d) (l := one.1) (by rw [hspan, if_neg hne, if_pos rfl]) (by rw [hadv]; rfl) (vget a.stk.bites k)
  rw [hbite, ← htwo] at hstep
  have hafter := tail_next_stk (k := k) (d := d) (s := a) (out := two)
    (gone := two.2.toList ++ givenUp (s.span (spanInto k)).tail) (by rw [h.inSet]; exact hset) (by rw [h.nextActive]; exact hd)
    (.inl (h.mill.trans hmill)) (.inr ⟨h.mill.trans hmill, by rw [h.isFirst]; exact hfirst⟩) (by rw [hadv]; exact hbounds.1)
    (by rw [hadv]; exact hbounds.2) (by rw [hbite, hstep]) (by
      rw [h.isFirst, hfirst, hspan, if_pos rfl, if_neg (by decide)])
  rw [hafter, h.isFirst, hfirst, hadv, List.append_assoc]
  refine Eq.trans ?_ (retireAll_append _ _ _ (by exact hn) (by exact hr))
  have hspans : vset (vset (vset (vset s.stk.spans (spanInto d) one.1) (spanInto k) (s.span (spanInto k)).tail) (spanInto k) [])
      (spanInto d) two.1 = vset (vset s.stk.spans (spanInto k) []) (spanInto d) two.1 := by
    rw [vset_vset, vset_comm _ hne, vset_vset]
  have hbites : vset (vset s.stk.bites k (s.span (spanInto k)).head?) k none = vset s.stk.bites k none := vset_vset _ _ _ _
  rw [← hspans, ← hbites, if_neg (by decide), if_neg (by decide)]
  rfl

/-- The two pushes of the first stand, the second of the record that the refill allocated (R52, R73, R75). -/
theorem Passed.tail_first {d : Stand} {one : List Segment × Option Segment} (hset : s.inSet k = true)
    (hd : s.nextActive k = some d) (hmill : s.stk.mill = .rolling) (hfirst : s.isFirst k = true)
    (hmark : vget s.stk.tailMarks k = false) (hmarkd : vget s.stk.tailMarks d = false) (hr : s.stk.ring.length ≤ 32)
    (hn : s.stk.retired ≤ 65535) (hone : one = Machine.pushStep k d (vget s.stk.bites k) s) :
    ∃ g two, AllocatedAt s.stk.coil k s g ∧ two = Machine.pushStep k d (some g) (s.setSpan (spanInto d) one.1) ∧
      (vget a.stk.bites k ≠ none ∧ vget a.stk.tailMarks d = false) ∧
      (trackTail k (seqTail k a)).stk =
        retireAll (one.2.toList ++ two.2.toList)
          { s.stk with
            mill := .tailout
            bites := vset s.stk.bites k none
            spans := vset s.stk.spans (spanInto d) two.1
            tailMarks := vset s.stk.tailMarks k true
            nextSeg := if g.seg < 65535 then g.seg + 1 else 1
            lastAlloc := g.seg
            allocated := min 65535 (s.stk.allocated + 1) } := by
  obtain ⟨g, hg, hadv⟩ := advanced_first hd hr hfirst hmark
  rw [← hone, retireOpt_eq _ _ (by exact hr) (by exact hn)] at hadv
  have hadv := h.stk.trans hadv
  have hbounds := retireAll_bounds one.2.toList s.stk
  have hbite : vget a.stk.bites k = some g := by
    rw [hadv]
    exact vget_vset_self _ _ _
  have hheld : vget a.stk.bites k ≠ none ∧ vget a.stk.tailMarks d = false :=
    ⟨by rw [hbite]; exact Option.some_ne_none g, by rw [hadv]; exact hmarkd⟩
  have hstep := h.pushStep (d := d) (l := one.1) (by rw [State.span, hadv]; exact vget_vset_self _ _ _) (by rw [hadv]; rfl) (some g)
  have hafter := tail_next_stk (k := k) (d := d) (s := a) (out := Machine.pushStep k d (some g) a)
    (gone := (Machine.pushStep k d (some g) a).2.toList) (by rw [h.inSet]; exact hset) (by rw [h.nextActive]; exact hd)
    (.inl (h.mill.trans hmill)) (.inl hheld) (by rw [hadv]; exact hbounds.1) (by rw [hadv]; exact hbounds.2) (by rw [hbite]) (by
      rw [h.isFirst, hfirst, if_pos rfl, List.append_nil])
  refine ⟨g, _, hg, rfl, hheld, ?_⟩
  rw [hafter, h.isFirst, hfirst, hadv, if_pos rfl, if_pos rfl, hstep]
  refine Eq.trans ?_ (retireAll_append _ _ _ (by exact hn) (by exact hr))
  generalize Machine.pushStep k d (some g) (s.setSpan (spanInto d) one.1) = two
  have hspans : vset (vset s.stk.spans (spanInto d) one.1) (spanInto d) two.1 = vset s.stk.spans (spanInto d) two.1 :=
    vset_vset _ _ _ _
  have hbites : vset (vset s.stk.bites k (some g)) k none = vset s.stk.bites k none := vset_vset _ _ _ _
  rw [← hspans, ← hbites]
  rfl

/-- The two pushes of the last stand, where the exit span keeps within N_x (R52, R73, R75). -/
theorem Passed.tail_last {m : MillRecord} {pushed : List Segment} (hset : s.inSet k = true)
    (hord : s.activeSet.Pairwise (· < ·)) (hlast : s.isLast k = true) (hfirst : s.isFirst k = false) (hmill : s.stk.mill = .rolling)
    (hm : s.millRec = some m) (hnX : m.nX < 24) (hr : s.stk.ring.length ≤ 32) (hn : s.stk.retired ≤ 65535)
    (hpushed : pushed = ((vget s.stk.bites k).toList ++ (s.span (spanInto k)).head?.toList).map (Machine.stamp k s))
    (hroom : (s.span exitSpan).length + pushed.length ≤ m.nX) :
    (trackTail k (seqTail k a)).stk =
      retireAll (givenUp (s.span (spanInto k)).tail)
        { s.stk with
          bites := vset s.stk.bites k none
          spans := vset (vset s.stk.spans (spanInto k) []) exitSpan (s.span exitSpan ++ pushed)
          tailMarks := vset s.stk.tailMarks k true } := by
  have hnext : s.nextActive k = none := (nextActive_last hord hset).mpr hlast
  rw [List.map_append] at hpushed
  generalize hone : (vget s.stk.bites k).toList.map (Machine.stamp k s) = one at hpushed
  generalize htwo : (s.span (spanInto k)).head?.toList.map (Machine.stamp k s) = two at hpushed
  rw [hpushed, List.length_append] at hroom
  obtain ⟨-, hpush⟩ := pushBite_pushed (pushed := one) hnext hm hnX hone.symm (by omega)
  obtain ⟨hne, hinto⟩ := pushBite_last_into hord hset hlast hfirst
  have hadv := refill_other (k := k) (s := pushBite k s) (by rw [pushBite_isFirst]; exact hfirst) (by
    rw [hpush]
    exact vget_vset_self _ _ _)
  rw [hinto, hpush] at hadv
  have hadv := h.stk.trans hadv
  have hspan (j : SpanId) : a.span j = if j = spanInto k then (s.span (spanInto k)).tail
      else if j = exitSpan then s.span exitSpan ++ one else s.span j := by
    rw [State.span, hadv]
    exact (vget_vset _ _ _ _).trans (if_congr Iff.rfl rfl (vget_vset _ _ _ _))
  have hexit : a.span exitSpan = s.span exitSpan ++ one := by rw [hspan, if_neg hne.symm, if_pos rfl]
  have hbite : vget a.stk.bites k = (s.span (spanInto k)).head? := by
    rw [hadv]
    exact vget_vset_self _ _ _
  have hafter := tail_last_short (k := k) (s := a) (pushed := two) (gone := givenUp (s.span (spanInto k)).tail)
    (by rw [h.inSet]; exact hset) (by rw [h.activeSet]; exact hord) (by rw [h.isLast]; exact hlast)
    (.inl ⟨h.mill.trans hmill, by rw [h.isFirst]; exact hfirst⟩) (by rw [State.millRec, h.sch]; exact hm) hnX
    (by rw [hbite, ← htwo, show Machine.stamp k a = Machine.stamp k s from funext h.stamp])
    (by rw [hexit, List.length_append]; omega) (by rw [hadv]; exact hr) (by rw [hadv]; exact hn)
    (by rw [h.isFirst, hfirst, hspan, if_pos rfl, if_neg (by decide)])
  have hspans : vset (vset (vset (vset s.stk.spans exitSpan (s.span exitSpan ++ one)) (spanInto k) (s.span (spanInto k)).tail)
      (spanInto k) []) exitSpan (s.span exitSpan ++ one ++ two) =
        vset (vset s.stk.spans (spanInto k) []) exitSpan (s.span exitSpan ++ one ++ two) := by
    rw [vset_vset, vset_comm _ hne, vset_vset, vset_comm _ hne.symm]
  have hbites : vset (vset (vset s.stk.bites k none) k (s.span (spanInto k)).head?) k none = vset s.stk.bites k none := by
    rw [vset_vset, vset_vset]
  rw [hafter.1, h.isFirst, hfirst, hexit, hadv, hpushed, ← List.append_assoc, if_neg (by decide), if_neg (by decide)]
  dsimp only
  rw [hspans, hbites]

end

end Sys2Proof.Machine
end

section
/-! PROOFS. The exit span drained behind the last stand's tail (R76, R77, R79). -/

namespace Sys2Proof.Machine

/-! ## A raise that opens no stand -/

/-- The open cover reads the records of the table alone (R122). -/
theorem raiseKey_uncovered {key : Key} {s : State} (hlow : (newRecord key s).action.openClass = false ∨ s.recordOf key ≠ none)
    (hack : NoneAcked s) : NoneAcked (raiseKey true key s) ∧ ∀ j, (raiseKey true key s).openCover j = s.openCover j := by
  cases hr : s.recordOf key with
  | none =>
    have hclass := hlow.resolve_right fun h => h hr
    have htable : (tripNotice key (handed key s)).tmx.table = s.tmx.table ++ [newRecord key s] := by
      have hnotice : (tripNotice key (handed key s)).tmx = (handed key s).tmx := by simp
      rw [hnotice, handed, handCreation_tmx]
      simp [State.withTmx]
    have hnew : NoneAcked (tripNotice key (handed key s)) := by
      intro q hq
      rw [htable, List.mem_append, List.mem_singleton] at hq
      obtain hq | rfl := hq
      · exact hack q hq
      · exact (fun e => nomatch e)
    have hscopes := covered_evalScopes hnew
    rw [raiseKey_of_none true hr, createRecord_eq, handedTest_low true key hclass]
    refine ⟨hscopes.acked, fun j => (hscopes.cover j).trans ?_⟩
    rw [State.openCover, State.openCover, htable, List.any_append]
    simp [hclass]
  | some r =>
    have hmarked := covered_marked (s := s) key (f := fun r => { r with state := .raised, occ := satSucc 255 r.occ }) hack
      fun r => ⟨rfl, rfl, fun h => nomatch h⟩
    have hnotice := covered_of_table (t := tripNotice key (s.modRecord key fun r => { r with state := .raised, occ := satSucc 255 r.occ }))
      hmarked.acked (by simp) (by simp)
    unfold raiseKey
    rw [hr]
    dsimp only
    split
    · exact ⟨hnotice.acked, fun j => (hnotice.cover j).trans (hmarked.cover j)⟩
    · exact ⟨hack, fun _ => rfl⟩
    · exact ⟨hack, fun _ => rfl⟩

/-- An arrival that opens no stand leaves the open cover (R77, R149). -/
theorem arrive_uncovered (g : Segment) {s : State} (hrun : s.stk.mill.running = true) (hquiet : GaugeQuiet s) (hack : NoneAcked s) :
    NoneAcked (arrive g s) ∧ ∀ j, (arrive g s).openCover j = s.openCover j := by
  have hkeeps {u v : State} (htmx : v.tmx.table = u.tmx.table) (h : NoneAcked u ∧ ∀ j, u.openCover j = s.openCover j) :
      NoneAcked v ∧ ∀ j, v.openCover j = s.openCover j :=
    ⟨by unfold NoneAcked; rw [htmx]; exact h.1, fun j => by rw [← h.2 j, State.openCover, State.openCover, htmx]⟩
  by_cases hfresh : (s.chan 25).state = .fresh
  · have hgone := covered_goneKey .exitStale hack
    rw [(arrive_fresh g hfresh).2]
    exact hkeeps (by simp) ⟨hgone.acked, hgone.cover⟩
  · rw [arrive_stale g hfresh hrun]
    refine hkeeps (u := raiseKey true .exitStale s) (by simp) (raiseKey_uncovered (.inl ?_) hack)
    exact (openClass_false_iff _).mpr (hquiet.resolve_left hfresh)

/-! ## The drain -/

/-- The drain of the exit span touches no span that is counted: where the set is out of its order, stand 1 counts no span
(R63). -/
theorem popExit_counts (s : State) : handCounts s (popExit s) = popExit s := by
  have hnone (l : List Stand) (hl : ∀ j, j ∈ l → j = 0) (t u : State) :
      l.foldl (fun t k => handCount k (u.span (spanInto k)).length t) t = t := by
    induction l generalizing t with
    | nil => rfl
    | cons j rest ih =>
      obtain rfl := hl j List.mem_cons_self
      have hentry : t.spanEntry 0 = none := by
        unfold State.spanEntry
        cases t.millRec <;> rfl
      rw [List.foldl_cons, handCount, hentry]
      exact ih (fun i hi => hl i (List.mem_cons_of_mem _ hi)) t
  refine hnone _ (fun j hj => ?_) _ _
  obtain ⟨-, htouched⟩ := List.mem_filter.mp hj
  by_contra hne
  rw [spanTouched, popExit_other (mt (spanInto_exit j).mp hne), bne_self_eq_false] at htouched
  exact Bool.noConfusion htouched

section
variable {k : Stand} {g : Segment} {rest : List Segment} {s : State} (hset : s.inSet k = true) (hlast : s.isLast k = true)
  (hmark : vget s.stk.tailMarks k = true) (hmill : s.stk.mill = .rolling ∨ s.stk.mill = .tailout)
  (hspan : s.span exitSpan = g :: rest)
include hset hlast hmark hmill hspan

theorem trackAdvance_drained :
    trackAdvance k s = millEmptyTest (arrive g (s.setSpan exitSpan rest)) ∧ popExit s = arrive g (s.setSpan exitSpan rest) := by
  have hpop : popExit s = arrive g (s.setSpan exitSpan rest) := by
    unfold popExit
    rw [hspan]
  refine ⟨?_, hpop⟩
  rw [trackAdvance_drains hset (by obtain h | h := hmill <;> rw [h] <;> rfl) hlast hmark, endTracker, popExit_counts, hpop]

theorem drain_spans : (∀ j, (biteAdvance k s).span j = if j = exitSpan then rest else s.span j) ∧
    (biteAdvance k s).stk.bites = s.stk.bites := by
  obtain ⟨e, -⟩ := trackAdvance_drained hset hlast hmark hmill hspan
  obtain ⟨hspans, hbites⟩ := arrive_places g (s.setSpan exitSpan rest)
  have hstk : (biteAdvance k s).stk = (trackAdvance k s).stk := by
    unfold biteAdvance
    simp
  have hkeep : (millEmptyTest (arrive g (s.setSpan exitSpan rest))).stk.spans = (arrive g (s.setSpan exitSpan rest)).stk.spans ∧
      (millEmptyTest (arrive g (s.setSpan exitSpan rest))).stk.bites = (arrive g (s.setSpan exitSpan rest)).stk.bites := by simp
  refine ⟨fun j => ?_, ?_⟩
  · rw [State.span, hstk, e, hkeep.1, hspans]
    exact vget_vset _ _ _ _
  · rw [hstk, e, hkeep.2, hbites]
    rfl

/-- The arrival that a drain brings, where the coil goes on (R76, R77). -/
theorem drain_arrival {m : MillRecord} {r : StandRecord} (hr : s.record k = some r) (hm : s.millRec = some m)
    (hring : s.stk.ring.length ≤ 32) (hheld : s.stk.mill = .rolling ∨ rest ≠ [])
    (hack : ∀ q, s.recordOf .exitStale = some q → q.state ≠ .acked) :
    ExitArrival g m r.hTgt s (biteAdvance k s) ∧ (biteAdvance k s).stk.mill = s.stk.mill ∧
      (biteAdvance k s).stk.tailMarks = s.stk.tailMarks := by
  obtain ⟨e, hpop⟩ := trackAdvance_drained hset hlast hmark hmill hspan
  have hrun : s.stk.mill.running = true := by obtain h | h := hmill <;> rw [h] <;> rfl
  have hcoil := sameCoil_popExit s
  have harrive := arrive_exit (g := g) (s := s.setSpan exitSpan rest) hm (exitTarget_last hlast hr) hrun hring hack
  have hkeep : (popExit s).stk.mill ≠ .tailout ∨ (popExit s).stk.heldCount ≠ 0 := by
    refine hheld.imp (fun h => by rw [hcoil.mill, h]; decide) fun h => heldCount_ne_of_span exitSpan ?_
    rw [hpop, (arrive_places g _).1]
    exact ne_of_eq_of_ne (vget_vset_self _ _ _) h
  have htrack : trackAdvance k s = popExit s := by
    rw [trackAdvance_drains hset hrun hlast hmark, endTracker_leaves hkeep, popExit_counts]
  have hstk : (biteAdvance k s).stk = (popExit s).stk := by
    unfold biteAdvance
    rw [htrack]
    simp
  have hrunning : (popExit s).stk.mill.running = true := by rw [hcoil.mill, hrun]
  have hstale : (biteAdvance k s).recordOf .exitStale = (popExit s).recordOf .exitStale := by
    unfold biteAdvance
    rw [htrack, countAdvance_exitStale k hrunning]
  have hinteg (j : Stand) : ((biteAdvance k s).gap j).integ = ((popExit s).gap j).integ := by
    unfold biteAdvance
    rw [htrack, countAdvance_integ]
  rw [← hpop] at harrive
  have hexit : ExitArrival g m r.hTgt s (popExit s) := harrive
  exact ⟨hexit.congr (present_congr hstale) (by rw [hstk]) (by rw [hstk]) (by rw [hstk]) hinteg, by rw [hstk, hcoil.mill],
    by rw [hstk, hcoil.tailMarks]⟩

/-- The drain that ends the coil (R76, R79, R80). -/
theorem drain_empties {m : MillRecord} {r : StandRecord} (hr : s.record k = some r) (hm : s.millRec = some m)
    (hthread : (s.seq k).state ≠ .thread) (htailout : s.stk.mill = .tailout) (hring : s.stk.ring.length ≤ 32)
    (hheld : s.stk.heldCount = 1) (hstill : ∀ j, s.inSet j = true → (s.seq j).state.rolling = false) (hquiet : GaugeQuiet s)
    (hack : NoneAcked s) :
    MillEmptied (fun j => (s.seq j).state) s (biteAdvance k s) ∧
      (biteAdvance k s).stk.retired = min 65535 (s.stk.retired + 1) := by
  obtain ⟨e, hpop⟩ := trackAdvance_drained hset hlast hmark hmill hspan
  have hrun : s.stk.mill.running = true := by rw [htailout]; rfl
  have hdrawn := popExit_drawn hquiet
  have hcoil := sameCoil_popExit s
  have hcover := arrive_uncovered g (s := s.setSpan exitSpan rest) hrun hquiet hack
  have hretired : (popExit s).stk.retired = min 65535 (s.stk.retired + 1) := by
    have harrive := arrive_exit (g := g) (s := s.setSpan exitSpan rest) hm (exitTarget_last hlast hr) hrun hring
      fun q hq => hack q (recordOf_mem (by exact hq))
    rw [← hpop] at harrive
    obtain ⟨-, -, -, -, h, -⟩ := harrive
    exact h
  have hnone : (popExit s).stk.heldCount = 0 := by
    have hplaces := arrive_places g (s.setSpan exitSpan rest)
    rw [← hpop] at hplaces
    have h := heldCount_setSpan s.stk exitSpan rest
    have hsame : (popExit s).stk.heldCount = ({ s.stk with spans := vset s.stk.spans exitSpan rest } : Tracker).heldCount :=
      heldCount_congr hplaces.2 hplaces.1
    have hlen : (vget s.stk.spans exitSpan).length = rest.length + 1 := congrArg List.length hspan
    rw [← hsame, hlen, hheld] at h
    omega
  rw [← hpop] at hcover e
  obtain ⟨hempty, -, hcount, -⟩ := millEmptyTest_emptied (before := fun j => (s.seq j).state) (hcoil.mill.trans htailout) hnone hdrawn.sch
    hcover.2 hdrawn.state hstill
  rw [← e] at hempty hcount
  have hbite : biteAdvance k s = trackAdvance k s := by
    refine countAdvance_still ?_
    obtain ⟨-, -, hkept, hswapped⟩ := hempty
    by_cases hcommitted : s.sch.pendingBank.state = .committed
    · rw [(hswapped hcommitted).2.2.2.2.2 k]
      split
      next h =>
        obtain h | h | h := h <;> rw [h] <;> decide
      next =>
        split
        · decide
        · split <;> decide
    · rw [(hkept hcommitted).2 k]
      split
      · decide
      · exact hthread
  rw [hbite]
  exact ⟨hempty, hcount.trans hretired⟩

end

end Sys2Proof.Machine
end

section
/-! PROOFS. Tails: O14. -/

namespace Sys2Proof.Machine

/-! ## What stands behind the pulse -/

/-- The blocks of the part, but for the links and the clock, are as in the other state. -/
structure SameBlocks (t w : State) : Prop where
  sch : t.sch = w.sch
  acc : t.plu.acc = w.plu.acc
  stk : t.stk = w.stk
  gce : t.gce = w.gce
  ssq : t.ssq = w.ssq
  tmx : t.tmx = w.tmx

section
variable {t w : State} (h : SameBlocks t w)
include h

theorem SameBlocks.seq (k : Stand) : t.seq k = w.seq k := seq_congr h.ssq k

theorem SameBlocks.gap (k : Stand) : t.gap k = w.gap k := by rw [State.gap, State.gap, h.gce]

theorem SameBlocks.span (j : SpanId) : t.span j = w.span j := by rw [State.span, State.span, h.stk]

theorem SameBlocks.emptied {before : Stand → StandState} {s : State} (he : MillEmptied before s w) : MillEmptied before s t :=
  he.congr (fun _ => rfl) rfl (fun _ => rfl) h.sch h.stk h.gce h.acc h.ssq

theorem SameBlocks.arrival {g : Segment} {m : MillRecord} {target : Nat} {s : State} (ha : ExitArrival g m target s w) :
    ExitArrival g m target s t :=
  ha.congr (present_congr (recordOf_congr (congrArg TripMatrix.table h.tmx) _)) (by rw [h.stk]) (by rw [h.stk]) (by rw [h.stk])
    fun j => by rw [h.gap]

end

/-- The stand's state behind its tail, and its notice (R51, R114). -/
theorem tailConfirmed_shown (k : Stand) (s : State) (l : HostLink) :
    ((Machine.tailConfirmed k s).withHlk l).presence k = { state := .absent, measurer := 0 } ∧
      ((Machine.tailConfirmed k s).withHlk l).stripPresent k = false ∧
      SameBlocks ((Machine.tailConfirmed k s).withHlk l) (trackTail k (seqTail k (absentAt k s))) := by
  have hpres := tailConfirmed_presence k s
  refine ⟨hpres, ?_, ?_⟩
  · rw [State.stripPresent, show ((Machine.tailConfirmed k s).withHlk l).presence k = _ from hpres]
    decide
  · rw [tailConfirmed_eq]
    generalize trackTail k (seqTail k (absentAt k s)) = w
    obtain ⟨queue, e⟩ := standNotice_eq k w
    rw [e]
    exact ⟨rfl, rfl, rfl, rfl, rfl, rfl⟩

/-! ## A tail with nothing to do (R51, R75) -/

/-- Outside the active set and before ROLLING a pulse touches the length accumulator alone (R44, R72). -/
theorem accumulate_ignored {k : Stand} {s : State} (hset : s.inSet k = false ∨ s.stk.mill = .idle ∨ s.stk.mill = .armed)
    (hstate : (s.seq k).state ≠ .thread) :
    accumulate k s = s.withLengths (match s.record k with
      | none => s.plu.acc
      | some r =>
        vset s.plu.acc k
          (if r.lSeg * 1000000 ≤ vget s.plu.acc k + r.e then vget s.plu.acc k + r.e - r.lSeg * 1000000
           else vget s.plu.acc k + r.e)) := by
  cases hr : s.record k with
  | none => exact accumulate_of_none k s hr
  | some r =>
    dsimp only
    by_cases hfull : r.lSeg * 1000000 ≤ vget s.plu.acc k + r.e
    · rw [if_pos hfull, accumulate_of_full k r s hr hfull]
      exact biteAdvance_ignored (s := s.withLengths (vset s.plu.acc k (vget s.plu.acc k + r.e - r.lSeg * 1000000))) hstate
        (hset.imp_right (Or.imp_right .inl))
    · rw [if_neg hfull, accumulate_of_short k r s hr (Nat.lt_of_not_le hfull)]
      rfl

theorem tail_ignored {k : Stand} {s : State} {l : HostLink} (hset : s.inSet k = false ∨ s.stk.mill = .idle ∨ s.stk.mill = .armed)
    (hthread : (s.seq k).state ≠ .thread) (hroll : (s.seq k).state ≠ .roll) :
    (Machine.tailConfirmed k (accumulate k s)).withHlk l =
      { s with
        plu := { s.plu with
          acc := match s.record k with
            | none => s.plu.acc
            | some r =>
              vset s.plu.acc k
                (if r.lSeg * 1000000 ≤ vget s.plu.acc k + r.e then vget s.plu.acc k + r.e - r.lSeg * 1000000
                 else vget s.plu.acc k + r.e)
          pres := vset s.plu.pres k { state := .absent, measurer := 0 } }
        hlk := l } := by
  rw [accumulate_ignored hset hthread]
  generalize (match s.record k with
    | none => s.plu.acc
    | some r =>
      vset s.plu.acc k
        (if r.lSeg * 1000000 ≤ vget s.plu.acc k + r.e then vget s.plu.acc k + r.e - r.lSeg * 1000000
         else vget s.plu.acc k + r.e)) = acc
  have hidle : s.inSet k = false ∨ s.stk.mill.running = false :=
    hset.imp_right fun h => by obtain h | h := h <;> rw [h] <;> rfl
  have hstill : (s.seq k).state.rolling = false := by
    rw [← Bool.not_eq_true, rolling_iff]
    exact not_or.mpr ⟨hthread, hroll⟩
  rw [tailConfirmed_ignored (s := s.withLengths acc) hstill hidle]
  obtain ⟨queue, e⟩ := standNotice_eq k (absentAt k (s.withLengths acc))
  rw [e]
  rfl

/-! ## The obligation -/

theorem noTripAt_stripped {d k : Stand} {s : State} (acc : Vector Nat 8) (hd : s.nextActive k = some d) (hno : NoSpanTrip s) :
    NoTripAt d (absentAt k (s.withLengths acc)) :=
  noTripAt_absentAt (Fin.ne_of_gt (nextActive_lt hd)) ((hno.withLengths acc).at d)

theorem not_rolling {st : StandState} (h : st ≠ .thread ∧ st ≠ .roll) : st.rolling = false := by
  rw [← Bool.not_eq_true, rolling_iff]
  exact not_or.mpr h

section
variable {k : Stand} {s t : State} {acc : Vector Nat 8} (hset : s.inSet k = true)
  (hsame : SameBlocks t (trackTail k (seqTail k (absentAt k (s.withLengths acc)))))
include hset hsame

/-- What the tail of a stand in THREAD or ROLL makes of the stand (R75, R99, R118). -/
theorem alone_rolling (hroll : (s.seq k).state.rolling = true) :
    (s.stk.mill = .rolling → s.isFirst k = false → vget s.stk.bites k = none → s.span (spanInto k) = [] →
      (t.seq k).state = .tail ∧ (t.gap k).lockCount = 0 ∧ vget t.stk.tailMarks k = true) ∧
    (s.activeSet.Pairwise (· < ·) → s.isLast k = false →
      (s.stk.mill = .rolling ∧ s.isFirst k = false ∨
        (s.stk.mill = .rolling ∨ s.stk.mill = .tailout) ∧ vget s.stk.bites k ≠ none ∧
          (∀ d, s.nextActive k = some d → vget s.stk.tailMarks d = false)) →
      (NoSpanTrip s ∨ (∀ d, s.nextActive k = some d → (s.seq d).state ≠ .ready)) →
      (t.seq k).state = .tail ∧ (t.gap k).lockCount = 0) ∧
    (s.stk.mill = .tailout →
      (s.stk.heldCount = 0 ∨
        s.isFirst k = false ∧ vget s.stk.bites k = none ∧ s.stk.heldCount = (s.span (spanInto k)).length) →
      (∀ j, j ≠ k → s.inSet j = true → (s.seq j).state ≠ .thread ∧ (s.seq j).state ≠ .roll) →
      (∀ q ∈ s.tmx.table, q.state ≠ .acked) →
      MillEmptied (fun j => if j = k then .tail else (s.seq j).state) s t ∧
        (s.stk.ring.length ≤ 32 → t.stk.ring = (retireAll (givenUp (s.span (spanInto k))) s.stk).ring)) := by
  refine ⟨fun hmill hfirst hbite hspan => ?_, fun hord hlast hheld hno => ?_, fun hmill hheld hothers hack => ?_⟩
  · rw [hsame.seq, hsame.gap, hsame.stk]
    exact tail_bare (s := absentAt k (s.withLengths acc)) hset hmill hfirst hbite hspan hroll
  · rw [hsame.seq, hsame.gap]
    obtain ⟨d, hd⟩ : ∃ d, s.nextActive k = some d := by
      refine Option.ne_none_iff_exists'.mp (mt (nextActive_last hord hset).mp ?_)
      rw [hlast]
      decide
    refine tail_next_state (s := absentAt k (s.withLengths acc)) (d := d) hset hd ?_ ?_ hord hroll
      (hno.imp (noTripAt_stripped acc hd) fun hready => hready d hd)
    · exact hheld.elim (fun h => .inl h.1) And.left
    · exact hheld.symm.imp_left fun h => ⟨h.2.1, h.2.2 d hd⟩
  · obtain ⟨hempty, hring⟩ := tail_empties (s := absentAt k (s.withLengths acc)) hset hmill hroll
      (fun j hj hin => not_rolling (hothers j hj hin)) hack hheld
    refine ⟨hsame.emptied ?_, fun hr => by rw [hsame.stk]; exact hring hr⟩
    exact hempty

/-- The last stand's tail at the tracker (R73, R75, R77). -/
theorem alone_last {m : MillRecord} {r : StandRecord} {pushed gone : List Segment} (hr : s.record k = some r)
    (hord : s.activeSet.Pairwise (· < ·)) (hlast : s.isLast k = true)
    (hheld : s.stk.mill = .rolling ∧ s.isFirst k = false ∨
      (s.stk.mill = .rolling ∨ s.stk.mill = .tailout) ∧ vget s.stk.bites k ≠ none)
    (hm : s.millRec = some m) (hnX : m.nX < 24) (hring : s.stk.ring.length ≤ 32) (hretired : s.stk.retired ≤ 65535)
    (hpushed : pushed = (vget s.stk.bites k).toList.map (stampOf k s (decide ((s.seq k).state = .tripped))))
    (hgone : gone = if s.isFirst k = true then [] else givenUp (s.span (spanInto k))) :
    ((s.span exitSpan).length + pushed.length ≤ m.nX →
      t.stk =
        retireAll gone
          { s.stk with
            mill := if s.isFirst k = true then .tailout else s.stk.mill
            bites := vset s.stk.bites k none
            spans :=
              vset (if s.isFirst k = true then s.stk.spans else vset s.stk.spans (spanInto k) []) exitSpan
                (s.span exitSpan ++ pushed)
            tailMarks := vset s.stk.tailMarks k true } ∧
      ((s.seq k).state = .thread ∨ (s.seq k).state = .roll → (t.seq k).state = .tail ∧ (t.gap k).lockCount = 0)) ∧
    (∀ new old rest, pushed = [new] → s.span exitSpan = old :: rest → rest.length + 1 = m.nX →
      s.isFirst k = false →
      t.span exitSpan = rest ++ [new] ∧ vget t.stk.bites k = none ∧ t.span (spanInto k) = [] ∧
        vget t.stk.tailMarks k = true ∧
        ((s.chan 25).state = .fresh ∨ vget s.sch.config.actions 11 = .note ∨ vget s.sch.config.actions 11 = .freeze →
          (s.seq k).state = .thread ∨ (s.seq k).state = .roll → (t.seq k).state = .tail ∧ (t.gap k).lockCount = 0) ∧
        ∀ u, gone = [] → (∀ q ∈ s.tmx.table, q.state ≠ .acked) →
          u =
            { s with
              ssq := vset s.ssq k
                { s.seq k with
                  state := if (s.seq k).state = .thread ∨ (s.seq k).state = .roll then .tail else (s.seq k).state } } →
          ExitArrival old m r.hTgt u t) := by
  have hstamped : pushed = (vget s.stk.bites k).toList.map (stamp k s) :=
    hpushed.trans (congrArg (List.map · _) (funext fun g => (stamp_eq k s g).symm))
  refine ⟨fun hroom => ?_, fun new old rest hnew hspan hfull hfirst => ?_⟩
  · obtain ⟨hstk, hstate⟩ := tail_last_short (s := absentAt k (s.withLengths acc)) hset hord hlast hheld hm hnX hstamped hroom hring
      hretired hgone
    rw [hsame.seq, hsame.gap, hsame.stk]
    exact ⟨hstk, fun hroll => hstate ((rolling_iff _).mpr hroll)⟩
  · cases hbite : vget s.stk.bites k with
    | none =>
      rw [hbite, hnew] at hpushed
      exact nomatch hpushed
    | some g =>
      rw [hbite, hnew] at hstamped
      obtain rfl : new = stamp k s g := List.singleton_injective hstamped
      obtain ⟨hexit, hbites, hinto, hmark, hstate⟩ := tail_last_full (s := absentAt k (s.withLengths acc)) hset hord hlast hheld hm hnX
        hfirst hbite hspan hfull
      rw [hsame.seq, hsame.gap, hsame.stk, hsame.span, hsame.span]
      refine ⟨hexit, hbites, hinto, hmark, fun hquiet hroll => hstate hquiet ((rolling_iff _).mpr hroll), fun u hnone hack hu => ?_⟩
      rw [hnone, if_neg (by rw [hfirst]; decide)] at hgone
      have hempty : s.span (spanInto k) = [] := List.map_eq_nil_iff.mp hgone.symm
      have harrival := tail_last_arrival (s := absentAt k (s.withLengths acc)) hset hord hlast hheld hm hnX hfirst hbite hspan hfull hr
        hring hempty hack rfl
      rw [hu]
      exact hsame.arrival (harrival.source rfl rfl rfl rfl (fun _ => rfl) (fun _ => rfl) (fun _ => rfl) (fun _ => rfl) fun _ => rfl)

end

/-- An advance and a tail in one pulse (R52). -/
theorem both_tracked {k : Stand} {r : StandRecord} {s t : State} {acc : Vector Nat 8} (hset : s.inSet k = true)
    (hsame : SameBlocks t (trackTail k (seqTail k (absentAt k (biteAdvance k (s.withLengths acc))))))
    (hacc : vget acc k = vget s.plu.acc k + r.e - r.lSeg * 1000000) (hr : s.record k = some r) (hdrop : s.stripPresent k = true)
    (hmill : s.stk.mill = .rolling)
    (hstate : (s.seq k).state = .thread ∧ (s.gap k).lockCount + 1 ≠ r.lockDelay ∨ (s.seq k).state = .roll ∨
      (s.seq k).state = .tripped) (hno : NoSpanTrip s) (hring : s.stk.ring.length ≤ 32) (hretired : s.stk.retired ≤ 65535) :
    (∀ d one two, s.isLast k = false → s.isFirst k = false → s.nextActive k = some d →
      one = pushStep k d (vget s.stk.bites k) s →
      two = pushStep k d (s.span (spanInto k)).head? (s.setSpan (spanInto d) one.1) →
      vget t.plu.acc k = vget s.plu.acc k + r.e - r.lSeg * 1000000 ∧
      (t.seq k).state = (if (s.seq k).state = .tripped then .tripped else .tail) ∧
      t.stk =
        retireAll (one.2.toList ++ two.2.toList ++ givenUp (s.span (spanInto k)).tail)
          { s.stk with
            bites := vset s.stk.bites k none
            spans := vset (vset s.stk.spans (spanInto k) []) (spanInto d) two.1
            tailMarks := vset s.stk.tailMarks k true }) ∧
    (∀ d one, s.isLast k = false → s.isFirst k = true → vget s.stk.tailMarks k = false → s.nextActive k = some d →
      vget s.stk.tailMarks d = false → one = pushStep k d (vget s.stk.bites k) s →
      ∃ g two, AllocatedAt s.stk.coil k s g ∧ two = pushStep k d (some g) (s.setSpan (spanInto d) one.1) ∧
        (t.seq k).state = (if (s.seq k).state = .tripped then .tripped else .tail) ∧
        t.stk =
          retireAll (one.2.toList ++ two.2.toList)
            { s.stk with
              mill := .tailout
              bites := vset s.stk.bites k none
              spans := vset s.stk.spans (spanInto d) two.1
              tailMarks := vset s.stk.tailMarks k true
              nextSeg := if g.seg < 65535 then g.seg + 1 else 1
              lastAlloc := g.seg
              allocated := min 65535 (s.stk.allocated + 1) }) ∧
    (∀ m pushed, s.activeSet.Pairwise (· < ·) → s.isLast k = true → s.isFirst k = false →
      vget s.stk.tailMarks k = false → s.millRec = some m → m.nX < 24 →
      pushed = ((vget s.stk.bites k).toList ++ (s.span (spanInto k)).head?.toList).map
        (stampOf k s (decide ((s.seq k).state = .tripped))) →
      (s.span exitSpan).length + pushed.length ≤ m.nX →
      t.stk =
        retireAll (givenUp (s.span (spanInto k)).tail)
          { s.stk with
            bites := vset s.stk.bites k none
            spans := vset (vset s.stk.spans (spanInto k) []) exitSpan (s.span exitSpan ++ pushed)
            tailMarks := vset s.stk.tailMarks k true }) := by
  have hlock : (s.seq k).state = .thread → (s.gap k).lockCount + 1 ≠ r.lockDelay := fun h => by
    obtain ⟨-, hcount⟩ | hst | hst := hstate
    · exact hcount
    · exact nomatch h.symm.trans hst
    · exact nomatch h.symm.trans hst
  have hthree : (s.seq k).state = .thread ∨ (s.seq k).state = .roll ∨ (s.seq k).state = .tripped := hstate.imp_left And.left
  have hmoves (hahead : s.isLast k = false ∨ vget s.stk.tailMarks k = false) : StripMoves k (s.withLengths acc) :=
    ⟨hset, by rw [show (s.withLengths acc).stk = s.stk from rfl, hmill]; rfl, hdrop, hthree, hahead⟩
  have hpassed (hahead : s.isLast k = false ∨ vget s.stk.tailMarks k = false)
      (hquiet : Drawn (s.withLengths acc) (advanced k (s.withLengths acc))) :=
    passed_absent (hmoves hahead) hmill hr hlock (hno.withLengths acc) hquiet
  have hnext {d : Stand} (hlast : s.isLast k = false) (hd : s.nextActive k = some d) :=
    hpassed (.inl hlast) (advanced_drawn (.inl (by
      rw [show (s.withLengths acc).nextActive k = some d from hd]
      exact Option.some_ne_none d)))
  generalize absentAt k (biteAdvance k (s.withLengths acc)) = a at hsame hpassed hnext
  refine ⟨fun d one two hlast hfirst hd hone htwo => ?_, fun d one hlast hfirst hmark hd hmarkd hone => ?_,
    fun m pushed hord hlast hfirst hmark hm hnX hpushed hroom => ?_⟩
  · have h := hnext hlast hd
    have hstand := h.tail_state (s := s.withLengths acc) hset hd hmill (.inr hfirst) hthree
    rw [hsame.seq, hsame.acc, hsame.stk, hstand.2]
    exact ⟨hacc, hstand.1, h.tail_other (s := s.withLengths acc) hset hd hmill hfirst hring hretired hone htwo⟩
  · have h := hnext hlast hd
    obtain ⟨g, two, hg, htwo, hheld, hstk⟩ := h.tail_first (s := s.withLengths acc) hset hd hmill hfirst hmark hmarkd hring hretired hone
    have hstand := h.tail_state (s := s.withLengths acc) hset hd hmill (.inl hheld) hthree
    rw [hsame.seq, hsame.stk]
    exact ⟨g, two, hg, htwo, hstand.1, hstk⟩
  · have hstamped : pushed = ((vget s.stk.bites k).toList ++ (s.span (spanInto k)).head?.toList).map (stamp k s) :=
      hpushed.trans (congrArg (List.map · _) (funext fun g => (stamp_eq k s g).symm))
    have hnone : s.nextActive k = none := (nextActive_last hord hset).mpr hlast
    have hfits : (s.span exitSpan).length + ((vget s.stk.bites k).toList.map (stamp k s)).length ≤ m.nX := by
      rw [hpushed] at hroom
      simp only [List.length_map, List.length_append] at hroom ⊢
      omega
    have hpush := (pushBite_pushed (k := k) (s := s.withLengths acc) hnone hm hnX rfl hfits).1
    have h := hpassed (.inr hmark) (hpush.trans ((moved_refill k _).drawn (refill_mill k _)))
    rw [hsame.stk]
    exact h.tail_last (s := s.withLengths acc) hset hord hlast hfirst hmill hm hnX hring hretired hstamped hroom

/-- What a drain leaves behind (R76, R77, R79). -/
theorem drain_tracked {k : Stand} {r : StandRecord} {m : MillRecord} {g : Segment} {rest : List Segment} {s t : State}
    {acc : Vector Nat 8} (hset : s.inSet k = true) (hlast : s.isLast k = true) (hmark : vget s.stk.tailMarks k = true)
    (hmill : s.stk.mill = .rolling ∨ s.stk.mill = .tailout) (hthread : (s.seq k).state ≠ .thread) (hr : s.record k = some r)
    (hm : s.millRec = some m) (hspan : s.span exitSpan = g :: rest) (hring : s.stk.ring.length ≤ 32)
    (hsame : SameBlocks t (biteAdvance k (s.withLengths acc))) :
    (∀ j, t.span j = if j = exitSpan then rest else s.span j) ∧ t.stk.bites = s.stk.bites ∧
      (s.stk.mill = .rolling ∨ rest ≠ [] →
        (∀ q, s.recordOf .exitStale = some q → q.state ≠ .acked) →
        ExitArrival g m r.hTgt s t ∧ t.stk.mill = s.stk.mill ∧ t.stk.tailMarks = s.stk.tailMarks) ∧
      (s.stk.mill = .tailout → s.stk.heldCount = 1 →
        (∀ j, s.inSet j = true → (s.seq j).state ≠ .roll ∧ (s.seq j).state ≠ .thread) →
        ((s.chan 25).state = .fresh ∨ vget s.sch.config.actions 11 = .note ∨
          vget s.sch.config.actions 11 = .freeze) →
        (∀ q ∈ s.tmx.table, q.state ≠ .acked) →
        MillEmptied (fun j => (s.seq j).state) s t ∧ t.stk.retired = min 65535 (s.stk.retired + 1)) := by
  obtain ⟨hspans, hbites⟩ := drain_spans (s := s.withLengths acc) hset hlast hmark hmill hspan
  refine ⟨fun j => (hsame.span j).trans (hspans j), by rw [hsame.stk]; exact hbites, fun hheld hack => ?_,
    fun htailout hheld hstill hquiet hack => ?_⟩
  · obtain ⟨harrive, hkept, hmarks⟩ := drain_arrival (s := s.withLengths acc) hset hlast hmark hmill hspan hr hm hring hheld hack
    rw [hsame.stk]
    exact ⟨hsame.arrival harrive, hkept, hmarks⟩
  · obtain ⟨hempty, hretired⟩ := drain_empties (s := s.withLengths acc) hset hlast hmark hmill hspan hr hm hthread htailout hring hheld
      (fun j hj => not_rolling (hstill j hj).symm) hquiet hack
    rw [hsame.stk]
    exact ⟨hsame.emptied hempty, hretired⟩

/-- Settles O14: a pulse that confirms a tail hands on the advance that it completes and then the tail; the drain of the exit
span is the advance of a stand behind its own tail. -/
theorem Settled.tailConfirmed : Obligations.TailConfirmed := by
  intro k edge s hrun hdir hns
  refine ⟨fun hdrop hconf => ?_, fun hthread hset hlast hmark hmill r m g rest hr hfull hm hpres hspan hring => ?_⟩
  · obtain ⟨l, hexec, hline⟩ := exec_tail (edge := edge) hrun hdir hns hdrop hconf
    obtain ⟨habsent, hstrip, hsame⟩ := tailConfirmed_shown k (accumulate k s) l
    have htripped : ((accumulate k s).seq k).state = .tripped →
        (((Machine.tailConfirmed k (accumulate k s)).withHlk l).seq k).state = .tripped := tripped_tailConfirmed
    have hnotice (htx : s.hlk.tx ≠ none) (henabled : kindEnabled s.hlk.mask (.standState k) = true) := by
      refine tailConfirmed_noticed k (accumulate k s) ?_
      have hmask : (Machine.tailConfirmed k (accumulate k s)).hlk.mask = s.hlk.mask := by simp
      rw [hmask]
      exact henabled
    refine ⟨_, hexec, habsent, hstrip, fun htx henabled => ?_, fun hset hnot hroll => tail_ignored hset hnot hroll, ?_⟩
    · rw [← hline htx] at hnotice
      exact hnotice htx henabled
    generalize (Machine.tailConfirmed k (accumulate k s)).withHlk l = t at hsame htripped
    refine ⟨fun r hr hshort hset => ?_, fun r hr hfull hset hmill hstate hno hring hretired => ?_⟩
    · rw [accumulate_of_short k r s hr hshort] at hsame htripped
      generalize vset s.plu.acc k (vget s.plu.acc k + r.e) = acc at hsame htripped
      refine ⟨htripped, fun hroll => alone_rolling hset hsame ((rolling_iff _).mpr hroll),
        fun d out gone hlast hd hmill hheld hring hretired hout hgone => ?_,
        fun m pushed gone hord hlast hheld hm hnX hring hretired hpushed hgone =>
          alone_last hset hsame hr hord hlast hheld hm hnX hring hretired hpushed hgone⟩
      rw [hsame.stk]
      exact tail_next_stk (s := absentAt k (s.withLengths acc)) hset hd hmill hheld hring hretired hout hgone
    · rw [accumulate_of_full k r s hr hfull] at hsame
      have hdropout : s.stripPresent k = true := by
        rw [State.stripPresent, hdrop]
        decide
      exact both_tracked (acc := vset s.plu.acc k (vget s.plu.acc k + r.e - r.lSeg * 1000000)) hset hsame (vget_vset_self _ _ _) hr
        hdropout hmill hstate hno hring hretired
  · obtain ⟨p, hp⟩ : ∃ p, Unconfirmed k r p s := by
      by_cases hdrop : (s.presence k).state = .dropout
      · exact ⟨_, .inr ⟨hdrop, hpres.resolve_left fun h => h hdrop, rfl⟩⟩
      · exact ⟨_, .inl ⟨hdrop, rfl⟩⟩
    obtain ⟨l, hexec⟩ := exec_advance_line hr hfull hp hrun hdir hns
    have hsame : SameBlocks (((biteAdvance k (segmentTaken k r s)).modPresence k fun _ => p).withHlk l)
      (biteAdvance k (segmentTaken k r s)) := ⟨rfl, rfl, rfl, rfl, rfl, rfl⟩
    exact ⟨_, hexec, drain_tracked hset hlast hmark hmill hthread hr hm hspan hring hsame⟩

end Sys2Proof.Machine
end
